-- ==== Sys2Proof/Word.lean ====
section
/-! DEFINITION. The words of the machine: bytes, 32-bit registers, 64-bit addresses, lane masks. -/

namespace Sys2Proof

abbrev Byte := BitVec 8
/-- A uniform register, a vector register word, an instruction word (R8, R75). -/
abbrev Word := BitVec 32
/-- An address or a register pair (R30, R81). -/
abbrev DWord := BitVec 64
/-- One bit for each lane of a group of at most 64 lanes (R19, R185). -/
abbrev Mask := BitVec 64

end Sys2Proof
end

