-- ==== Sys2Proof/Config.lean ====
section
/-! DEFINITION. What the manual leaves open (log entry 2) and what is fused into one device:
constants without a body, so that no proof can lean on a value. -/

namespace Sys2Proof.Config

/-- A free value: applied to State.freeCtr, which the step that reads it advances. -/
opaque freeNat : Nat → Nat
/-- Which of two teams comes first at a group scheduler between gangs of equal age and group index (R23 states no order): clock,
teams. -/
opaque teamFirst : Nat → Nat → Nat → Bool
/-- The choice an approximation makes among the results that R207 allows, a fixed function of the function's number, the
format tag and the element (R207: deterministic, independent of lane, time and core). -/
opaque approx : Nat → Nat → Nat → Nat
/-- The 64-bit signature of a compared event (R436). -/
opaque signature : List Nat → Nat
/-- Root of the public key of the signing authority, fused into the hub die (R498): byte i. -/
opaque authorityRoot : Nat → Byte
/-- Public seed of that key: byte i. -/
opaque authoritySeed : Nat → Byte
/-- The device identity key's signature with a leaf over bytes (R499). -/
opaque xmssSign : Nat → List Byte → List Byte
/-- Which flags the finaliser gives a run (R114 rule 4): .tvf hash bytes and index of the run. -/
opaque finaliserFlag : List Byte → Nat → Nat
/-- The finaliser's version (R117, R118). -/
opaque finaliserVersion : Nat
/-- The module's own device number in GFT packets (R334). -/
opaque deviceNumber : Nat

/-- What a byte of device space reads as where the manual lays no register there: time, address. -/
opaque deviceByte : Nat → Nat → Byte

end Sys2Proof.Config
end

