-- ==== Sys2Proof/Syntax.lean ====
section
/-! DEFINITION. The instruction set: one constructor of Instr for each row of spec/opcode_table.json. The 250 rows with
bits are instruction words (R75, R78, R105), their arguments the fields of the word. The 94 rows without bits are the
steps that the engines, the hub, the links, the drawer and the outside world take by themselves
(spec/95_what_each_step_holds.md); they carry no operand, and State.subject holds what such a step is about. The
constructors with operands stand first. -/

namespace Sys2Proof

/-- A GFT packet as it stands on the wire (R334): header fields, data bytes, tag. -/
structure Packet where
  ver : Nat
  type : Nat
  owner : Nat
  sender : Nat
  seq : Nat
  raddr : BitVec 64
  len : Nat
  info : BitVec 8
  opid : Nat
  data : List (BitVec 8)
  tag : BitVec 64
  macsecOk : Bool
  deriving DecidableEq, Repr

/-- An Ethernet frame at the port (R331 to R333): the kind of traffic its address names, its length, and whether it
verifies under MACsec. -/
inductive FrameAddr where
  | management
  | host
  | peer
  | other
  deriving DecidableEq, Repr

structure Frame where
  addr : FrameAddr
  length : Nat
  macsecOk : Bool
  body : List (BitVec 8)
  deriving DecidableEq, Repr

/-- A signed firmware image, Marigold image or Foxglove package (R498, R500). -/
structure SignedImage where
  bytes : List (BitVec 8)
  version : Nat
  signature : List (BitVec 8)
  cluster : Nat
  deriving DecidableEq, Repr

/-- What the boot sequence of R495 meets outside the compute package: the images in flash, the two pairing values, the
link groups that train, and what the Marigold image header names. -/
structure BootInput where
  firmware : SignedImage
  previous : Option SignedImage
  pairPackage : List (BitVec 8)
  pairDrawer : List (BitVec 8)
  trained : List Nat
  marigold : SignedImage
  entry : BitVec 64
  ptRoot : Nat
  splBase : Nat
  splCount : Nat
  fqBase : Nat
  fqLog : Nat
  placed : List (Nat × List (BitVec 8))
  deriving DecidableEq, Repr

/-- Where an error arises (R194, R232, R268, R285, R454): a single-bit or a double-bit error in each kind of storage, a wrong
residue or parity bit of a lane, or a wrong result of a lane's adder, multiplier or shifter, which its residue code shows. -/
inductive ErrorSite where
  | slice (vc sector : Nat) (double : Bool)
  | bank (cluster bank word : Nat) (double : Bool)
  | l1 (core line word : Nat)
  | stack (sector : Nat) (double : Bool)
  | residue (team group reg lane : Nat)
  | parityX (team group reg lane : Nat)
  | parityQ (team group reg lane : Nat)
  | unit (team group lane : Nat)
  deriving DecidableEq, Repr

/-- What a step without a word is about: up to four numbers (which operation, team, group, lane, sector, link group ...),
bytes written at offsets, and what reaches the module from outside. The docstring of each such step's meaning says
which of these it reads. -/
structure Subject where
  a : Nat := 0
  b : Nat := 0
  c : Nat := 0
  flag : Bool := false
  bytes : List Host.Cell := []
  raw : List (BitVec 8) := []
  packet : Option Packet := none
  frame : Option Frame := none
  image : Option SignedImage := none
  boot : Option BootInput := none
  site : Option ErrorSite := none
  deriving DecidableEq, Repr

/-- One constructor per row of the opcode table. -/
inductive Instr where
  /-- CLAUSE (R97) -/
  | clause (wt : BitVec 12) (a : BitVec 4) (b : BitVec 4) (l : BitVec 5)
  /-- ENDRUN (R98) -/
  | endrun (c : BitVec 1) (f : BitVec 8) (n : BitVec 4) (k : BitVec 1) (g : BitVec 8) (m : BitVec 4)
  /-- HIMM (R100) -/
  | himm (p : BitVec 2) (v : BitVec 16)
  /-- HOPND (R101) -/
  | hopnd (o : BitVec 8)
  /-- MPFX (R102) -/
  | mpfx (o : BitVec 3) (sg : BitVec 3) (p : BitVec 3) (c : BitVec 3) (u : BitVec 3) (n : BitVec 2)
  /-- SADD (R155) -/
  | sadd (d : BitVec 8) (a : BitVec 8) (b : BitVec 8)
  /-- SSUB (R155) -/
  | ssub (d : BitVec 8) (a : BitVec 8) (b : BitVec 8)
  /-- SMUL (R155) -/
  | smul (d : BitVec 8) (a : BitVec 8) (b : BitVec 8)
  /-- SMULH (R155) -/
  | smulh (d : BitVec 8) (a : BitVec 8) (b : BitVec 8)
  /-- SAND (R155) -/
  | sand (d : BitVec 8) (a : BitVec 8) (b : BitVec 8)
  /-- SOR (R155) -/
  | sor (d : BitVec 8) (a : BitVec 8) (b : BitVec 8)
  /-- SXOR (R155) -/
  | sxor (d : BitVec 8) (a : BitVec 8) (b : BitVec 8)
  /-- SANDN (R155) -/
  | sandn (d : BitVec 8) (a : BitVec 8) (b : BitVec 8)
  /-- SSHL (R155) -/
  | sshl (d : BitVec 8) (a : BitVec 8) (b : BitVec 8)
  /-- SSHR (R155) -/
  | sshr (d : BitVec 8) (a : BitVec 8) (b : BitVec 8)
  /-- SSAR (R155) -/
  | ssar (d : BitVec 8) (a : BitVec 8) (b : BitVec 8)
  /-- SROT (R155) -/
  | srot (d : BitVec 8) (a : BitVec 8) (b : BitVec 8)
  /-- SMIN (R155) -/
  | smin (d : BitVec 8) (a : BitVec 8) (b : BitVec 8)
  /-- SMAX (R155) -/
  | smax (d : BitVec 8) (a : BitVec 8) (b : BitVec 8)
  /-- SMINU (R155) -/
  | sminu (d : BitVec 8) (a : BitVec 8) (b : BitVec 8)
  /-- SMAXU (R155) -/
  | smaxu (d : BitVec 8) (a : BitVec 8) (b : BitVec 8)
  /-- SSEQ (R155) -/
  | sseq (d : BitVec 8) (a : BitVec 8) (b : BitVec 8)
  /-- SSNE (R155) -/
  | ssne (d : BitVec 8) (a : BitVec 8) (b : BitVec 8)
  /-- SSLT (R155) -/
  | sslt (d : BitVec 8) (a : BitVec 8) (b : BitVec 8)
  /-- SSLTU (R155) -/
  | ssltu (d : BitVec 8) (a : BitVec 8) (b : BitVec 8)
  /-- SSLE (R155) -/
  | ssle (d : BitVec 8) (a : BitVec 8) (b : BitVec 8)
  /-- SSLEU (R155) -/
  | ssleu (d : BitVec 8) (a : BitVec 8) (b : BitVec 8)
  /-- SSEL (R155) -/
  | ssel (d : BitVec 8) (a : BitVec 8) (b : BitVec 8)
  /-- SMOV (R155) -/
  | smov (d : BitVec 8) (a : BitVec 8) (b : BitVec 8)
  /-- SLI (R156) -/
  | sli (d : BitVec 8) (i : BitVec 16)
  /-- SLIU (R156) -/
  | sliu (d : BitVec 8) (i : BitVec 16)
  /-- SLIH (R156) -/
  | slih (d : BitVec 8) (i : BitVec 16)
  /-- SADDI (R156) -/
  | saddi (d : BitVec 8) (i : BitVec 16)
  /-- SPOPC (R157) -/
  | spopc (d : BitVec 8) (a : BitVec 8)
  /-- SCLZ (R157) -/
  | sclz (d : BitVec 8) (a : BitVec 8)
  /-- SBREV (R157) -/
  | sbrev (d : BitVec 8) (a : BitVec 8)
  /-- SBFE (R157) -/
  | sbfe (d : BitVec 8) (a : BitVec 8) (sg : BitVec 1)
  /-- SBFI (R157) -/
  | sbfi (d : BitVec 8) (a : BitVec 8)
  /-- SMOVH (R157) -/
  | smovh (h : BitVec 8) (a : BitVec 8)
  /-- SMOVL (R157) -/
  | smovl (d : BitVec 8) (h : BitVec 8)
  /-- SADD64 (R157) -/
  | sadd64 (d : BitVec 8) (a : BitVec 8)
  /-- SSUB64 (R157) -/
  | ssub64 (d : BitVec 8) (a : BitVec 8)
  /-- SSHL64 (R157) -/
  | sshl64 (d : BitVec 8) (a : BitVec 8)
  /-- SSHR64 (R157) -/
  | sshr64 (d : BitVec 8) (a : BitVec 8) (x : BitVec 1)
  /-- SMULW (R157) -/
  | smulw (d : BitVec 8) (a : BitVec 8) (sg : BitVec 1)
  /-- RDSR (R158) -/
  | rdsr (d : BitVec 8) (n : BitVec 8)
  /-- WRSR (R158) -/
  | wrsr (n : BitVec 8) (a : BitVec 8)
  /-- BRS (R169) -/
  | brs (c : BitVec 4) (sg : BitVec 8) (o : BitVec 14)
  /-- DBR (R170) -/
  | dbr (q : BitVec 3) (n : BitVec 1) (t : BitVec 11) (j : BitVec 11)
  /-- CALL (R172) -/
  | call (o : BitVec 26)
  /-- LOOP (R173) -/
  | loop (sg : BitVec 8) (o : BitVec 18)
  /-- BRX (R174) -/
  | brx (a : BitVec 8)
  /-- REGANG (R176) -/
  | regang (a : BitVec 8) (m : BitVec 1)
  /-- BARP (R178) -/
  | barp (a : BitVec 8) (b : BitVec 4)
  /-- SLEEP (R180) -/
  | sleep (a : BitVec 8)
  /-- WAITEV (R179) -/
  | waitev (d : BitVec 8) (a : BitVec 8)
  /-- SIGEV (R179) -/
  | sigev (a : BitVec 8) (b : BitVec 8)
  /-- TRAP (R188) -/
  | trap (n : BitVec 12)
  /-- SYSCALL (R188) -/
  | syscall (a : BitVec 8) (n : BitVec 12)
  /-- GROW (R183) -/
  | grow (a : BitVec 8)
  /-- SHRINK (R183) -/
  | shrink (a : BitVec 8)
  /-- SETPART (R182) -/
  | setpart (p : BitVec 4)
  /-- ELECT (R181) -/
  | elect (d : BitVec 8) (q : BitVec 3)
  /-- ERET (R189) -/
  | eret (sg : BitVec 1)
  /-- ERRINJ (R190) -/
  | errinj (a : BitVec 8)
  /-- VADD (R197) -/
  | vadd (d : BitVec 8) (a : BitVec 8) (b : BitVec 8)
  /-- VSUB (R197) -/
  | vsub (d : BitVec 8) (a : BitVec 8) (b : BitVec 8)
  /-- VMUL (R197) -/
  | vmul (d : BitVec 8) (a : BitVec 8) (b : BitVec 8)
  /-- VMA (R197) -/
  | vma (d : BitVec 8) (a : BitVec 8) (b : BitVec 8)
  /-- VMIN (R197) -/
  | vmin (d : BitVec 8) (a : BitVec 8) (b : BitVec 8)
  /-- VMAX (R197) -/
  | vmax (d : BitVec 8) (a : BitVec 8) (b : BitVec 8)
  /-- VMULH (R197) -/
  | vmulh (d : BitVec 8) (a : BitVec 8) (b : BitVec 8)
  /-- VMAD (R197) -/
  | vmad (d : BitVec 8) (a : BitVec 8) (b : BitVec 8)
  /-- VAND (R198) -/
  | vand (d : BitVec 8) (a : BitVec 8) (b : BitVec 8)
  /-- VOR (R198) -/
  | vor (d : BitVec 8) (a : BitVec 8) (b : BitVec 8)
  /-- VXOR (R198) -/
  | vxor (d : BitVec 8) (a : BitVec 8) (b : BitVec 8)
  /-- VANDN (R198) -/
  | vandn (d : BitVec 8) (a : BitVec 8) (b : BitVec 8)
  /-- VSEL (R199) -/
  | vsel (n : BitVec 2) (d : BitVec 8) (a : BitVec 8) (b : BitVec 8)
  /-- VSHL (R200) -/
  | vshl (d : BitVec 8) (a : BitVec 8) (b : BitVec 8)
  /-- VSHR (R200) -/
  | vshr (d : BitVec 8) (a : BitVec 8) (b : BitVec 8)
  /-- VBFE (R200) -/
  | vbfe (d : BitVec 8) (a : BitVec 8) (b : BitVec 8)
  /-- VBFI (R200) -/
  | vbfi (d : BitVec 8) (a : BitVec 8) (b : BitVec 8)
  /-- VSADD (R201) -/
  | vsadd (d : BitVec 8) (a : BitVec 8) (b : BitVec 8)
  /-- VSSUB (R201) -/
  | vssub (d : BitVec 8) (a : BitVec 8) (b : BitVec 8)
  /-- VDOT2 (R201) -/
  | vdot2 (d : BitVec 8) (a : BitVec 8) (b : BitVec 8)
  /-- VDOT4 (R201) -/
  | vdot4 (d : BitVec 8) (a : BitVec 8) (b : BitVec 8)
  /-- VCMP (R202) -/
  | vcmp (c : BitVec 5) (q : BitVec 3) (a : BitVec 8) (b : BitVec 8)
  /-- VCMPA (R202) -/
  | vcmpa (c : BitVec 5) (q : BitVec 3) (a : BitVec 8) (b : BitVec 8)
  /-- VCMPO (R202) -/
  | vcmpo (c : BitVec 5) (q : BitVec 3) (a : BitVec 8) (b : BitVec 8)
  /-- VCVT (R203) -/
  | vcvt (t : BitVec 4) (r : BitVec 2) (sg : BitVec 1) (d : BitVec 8) (a : BitVec 8)
  /-- VRETAG (R132) -/
  | vretag (t : BitVec 4) (d : BitVec 8) (a : BitVec 8)
  /-- VMOV (R204) -/
  | vmov (d : BitVec 8) (a : BitVec 8)
  /-- VMOVS (R204) -/
  | vmovs (d : BitVec 8) (n : BitVec 9)
  /-- VLI (R204) -/
  | vli (d : BitVec 8) (i : BitVec 12)
  /-- VLANE (R204) -/
  | vlane (d : BitVec 8)
  /-- VTID (R204) -/
  | vtid (d : BitVec 8)
  /-- VSLICE (R204) -/
  | vslice (d : BitVec 8)
  /-- VACTIVE (R204) -/
  | vactive (d : BitVec 8)
  /-- PAND (R205) -/
  | pand (d : BitVec 8) (a : BitVec 8) (b : BitVec 8)
  /-- POR (R205) -/
  | por (d : BitVec 8) (a : BitVec 8) (b : BitVec 8)
  /-- PXOR (R205) -/
  | pxor (d : BitVec 8) (a : BitVec 8) (b : BitVec 8)
  /-- PANDN (R205) -/
  | pandn (d : BitVec 8) (a : BitVec 8) (b : BitVec 8)
  /-- VRCP (R207) -/
  | vrcp (d : BitVec 8) (a : BitVec 8)
  /-- VRSQ (R207) -/
  | vrsq (d : BitVec 8) (a : BitVec 8)
  /-- VSQRT (R207) -/
  | vsqrt (d : BitVec 8) (a : BitVec 8)
  /-- VEXP2 (R207) -/
  | vexp2 (d : BitVec 8) (a : BitVec 8)
  /-- VLOG2 (R207) -/
  | vlog2 (d : BitVec 8) (a : BitVec 8)
  /-- VSIN (R207) -/
  | vsin (d : BitVec 8) (a : BitVec 8)
  /-- VCOS (R207) -/
  | vcos (d : BitVec 8) (a : BitVec 8)
  /-- VTANH (R207) -/
  | vtanh (d : BitVec 8) (a : BitVec 8)
  /-- VFRAC (R206) -/
  | vfrac (d : BitVec 8) (a : BitVec 8)
  /-- VROUND (R206) -/
  | vround (d : BitVec 8) (a : BitVec 8) (r : BitVec 2)
  /-- VCLASS (R209) -/
  | vclass (d : BitVec 8) (a : BitVec 8)
  /-- VABS (R206) -/
  | vabs (d : BitVec 8) (a : BitVec 8)
  /-- VNEG (R206) -/
  | vneg (d : BitVec 8) (a : BitVec 8)
  /-- VNOT (R206) -/
  | vnot (d : BitVec 8) (a : BitVec 8)
  /-- VCLZ (R206) -/
  | vclz (d : BitVec 8) (a : BitVec 8)
  /-- VPOPC (R206) -/
  | vpopc (d : BitVec 8) (a : BitVec 8)
  /-- VBREV (R206) -/
  | vbrev (d : BitVec 8) (a : BitVec 8)
  /-- VSHFL (R211) -/
  | vshfl (d : BitVec 8) (a : BitVec 8)
  /-- VSHFLU (R211) -/
  | vshflu (d : BitVec 8) (a : BitVec 8)
  /-- VSHFLD (R211) -/
  | vshfld (d : BitVec 8) (a : BitVec 8)
  /-- VSHFLX (R211) -/
  | vshflx (d : BitVec 8) (a : BitVec 8)
  /-- VBCAST (R211) -/
  | vbcast (d : BitVec 8) (a : BitVec 8)
  /-- VVOTEANY (R212) -/
  | vvoteany (d : BitVec 8) (a : BitVec 8)
  /-- VVOTEALL (R212) -/
  | vvoteall (d : BitVec 8) (a : BitVec 8)
  /-- VBALLOT (R212) -/
  | vballot (d : BitVec 8) (a : BitVec 8)
  /-- VREDADD (R213) -/
  | vredadd (d : BitVec 8) (a : BitVec 8) (q : BitVec 2) (u : BitVec 1)
  /-- VREDMIN (R213) -/
  | vredmin (d : BitVec 8) (a : BitVec 8) (q : BitVec 2) (u : BitVec 1)
  /-- VREDMAX (R213) -/
  | vredmax (d : BitVec 8) (a : BitVec 8) (q : BitVec 2) (u : BitVec 1)
  /-- VREDAND (R213) -/
  | vredand (d : BitVec 8) (a : BitVec 8) (q : BitVec 2) (u : BitVec 1)
  /-- VREDOR (R213) -/
  | vredor (d : BitVec 8) (a : BitVec 8) (q : BitVec 2) (u : BitVec 1)
  /-- VREDXOR (R213) -/
  | vredxor (d : BitVec 8) (a : BitVec 8) (q : BitVec 2) (u : BitVec 1)
  /-- VSCANADD (R213) -/
  | vscanadd (d : BitVec 8) (a : BitVec 8) (q : BitVec 2) (e : BitVec 1)
  /-- VSCANMIN (R213) -/
  | vscanmin (d : BitVec 8) (a : BitVec 8) (q : BitVec 2) (e : BitVec 1)
  /-- VSCANMAX (R213) -/
  | vscanmax (d : BitVec 8) (a : BitVec 8) (q : BitVec 2) (e : BitVec 1)
  /-- VZIP (R214) -/
  | vzip (n : BitVec 2) (d : BitVec 8) (a : BitVec 8)
  /-- VUNZIP (R214) -/
  | vunzip (n : BitVec 2) (d : BitVec 8) (a : BitVec 8)
  /-- XSET (R215) -/
  | xset (k : BitVec 2) (a : BitVec 8)
  /-- XADD (R215) -/
  | xadd (k : BitVec 2) (i : BitVec 8)
  /-- XWIN (R215) -/
  | xwin (b : BitVec 8) (l : BitVec 8)
  /-- VRAND (R217) -/
  | vrand (d : BitVec 8) (a : BitVec 8) (k : BitVec 4)
  /-- VRANDU (R217) -/
  | vrandu (d : BitVec 8) (a : BitVec 8) (k : BitVec 4)
  /-- LD (R223) -/
  | ld (t : BitVec 4) (wt : BitVec 2) (d : BitVec 8) (a : BitVec 8) (p : BitVec 4)
  /-- ST (R223) -/
  | st (t : BitVec 4) (wt : BitVec 2) (d : BitVec 8) (a : BitVec 8) (p : BitVec 4)
  /-- LDS (R223) -/
  | lds (t : BitVec 4) (wt : BitVec 2) (d : BitVec 8) (a : BitVec 8) (p : BitVec 4)
  /-- STS (R223) -/
  | sts (t : BitVec 4) (wt : BitVec 2) (d : BitVec 8) (a : BitVec 8) (p : BitVec 4)
  /-- LDU (R225) -/
  | ldu (d : BitVec 9) (p : BitVec 4)
  /-- STU (R225) -/
  | stu (d : BitVec 9) (p : BitVec 4)
  /-- LDSU (R225) -/
  | ldsu (d : BitVec 9) (p : BitVec 4)
  /-- STSU (R225) -/
  | stsu (d : BitVec 9) (p : BitVec 4)
  /-- PREF (R247) -/
  | pref (t : BitVec 2) (a : BitVec 8) (p : BitVec 4)
  /-- PROBE (R250) -/
  | probe (d : BitVec 8) (a : BitVec 8) (p : BitVec 4)
  /-- INVPG (R251) -/
  | invpg (a : BitVec 8) (b : BitVec 8)
  /-- ATOM (R300) -/
  | atom (o : BitVec 4) (wt : BitVec 2) (d : BitVec 8) (a : BitVec 8) (p : BitVec 4)
  /-- ATOMN (R300) -/
  | atomn (o : BitVec 4) (wt : BitVec 2) (d : BitVec 8) (a : BitVec 8) (p : BitVec 4)
  /-- CMLR (R303) -/
  | cmlr (a : BitVec 8) (n : BitVec 2)
  /-- CMLS (R304) -/
  | cmls (d : BitVec 8) (a : BitVec 8) (n : BitVec 2)
  /-- SEAL (R307) -/
  | seal (a : BitVec 8) (b : BitVec 8)
  /-- UNSEAL (R308) -/
  | unseal (a : BitVec 8) (b : BitVec 8)
  /-- WOBSEAL (R309) -/
  | wobseal (d : BitVec 8) (a : BitVec 8)
  /-- WOBREL (R310) -/
  | wobrel (a : BitVec 8)
  /-- DISCARD (R312) -/
  | discard (a : BitVec 8) (b : BitVec 8)
  /-- FLUSH (R313) -/
  | flush (a : BitVec 8) (b : BitVec 8)
  /-- VCQUERY (R296) -/
  | vcquery (d : BitVec 8) (a : BitVec 8)
  /-- VCDEF (R293) -/
  | vcdef (a : BitVec 8)
  /-- VCRESIZE (R294) -/
  | vcresize (a : BitVec 8)
  /-- VCRESIZE_MOVE (R295) -/
  | vcresizeMove (a : BitVec 8)
  /-- BTAKE (R258) -/
  | btake (d : BitVec 8) (sg : BitVec 4)
  /-- BFREE (R259) -/
  | bfree (sg : BitVec 4)
  /-- BGIVE (R260) -/
  | bgive (p : BitVec 8) (c : BitVec 3) (sg : BitVec 4)
  /-- BOPEN (R261) -/
  | bopen (d : BitVec 8) (p : BitVec 8) (sg : BitVec 4)
  /-- BDRAIN (R263) -/
  | bdrain (l : BitVec 1) (sg : BitVec 4)
  /-- BQUERY (R264) -/
  | bquery (d : BitVec 8) (o : BitVec 1) (sg : BitVec 4)
  /-- SWINIT (R269) -/
  | swinit (x : BitVec 8) (a : BitVec 8)
  /-- SWADD (R269) -/
  | swadd (x : BitVec 8) (a : BitVec 8)
  /-- SWWAIT (R269) -/
  | swwait (d : BitVec 8) (x : BitVec 8)
  /-- SWREAD (R269) -/
  | swread (d : BitVec 8) (x : BitVec 8)
  /-- RINGDEF (R273) -/
  | ringdef (d : BitVec 8) (a : BitVec 8)
  /-- SEND (R274) -/
  | send (r : BitVec 8) (a : BitVec 8)
  /-- RINGACK (R275) -/
  | ringack (r : BitVec 8) (a : BitVec 8)
  /-- RINGWAIT (R275) -/
  | ringwait (d : BitVec 8) (r : BitVec 8)
  /-- COPY (R322) -/
  | copy (a : BitVec 8)
  /-- COPY2D (R322) -/
  | copy2d (a : BitVec 8)
  /-- CGATH (R322) -/
  | cgath (a : BitVec 8)
  /-- CSCAT (R322) -/
  | cscat (a : BitVec 8)
  /-- CFILL (R322) -/
  | cfill (a : BitVec 8)
  /-- CSEAL (R324) -/
  | cseal (b : BitVec 4)
  /-- CWAIT (R324) -/
  | cwait (d : BitVec 8) (c : BitVec 1) (b : BitVec 4)
  /-- CSTAT (R324) -/
  | cstat (d : BitVec 8) (b : BitVec 4)
  /-- RPUT (R322) -/
  | rput (a : BitVec 8)
  /-- RGET (R322) -/
  | rget (a : BitVec 8)
  /-- RATOM (R337) -/
  | ratom (d : BitVec 8) (a : BitVec 8)
  /-- WEXPORT (R338) -/
  | wexport (d : BitVec 8) (a : BitVec 8)
  /-- WREVOKE (R340) -/
  | wrevoke (a : BitVec 8)
  /-- QKICK (R359) -/
  | qkick (a : BitVec 8)
  /-- LAUNCH (R359) -/
  | launch (d : BitVec 8) (a : BitVec 8)
  /-- QWAIT (R359) -/
  | qwait (a : BitVec 8)
  /-- STAGEINIT (R358) -/
  | stageinit (r : BitVec 2) (a : BitVec 8)
  /-- STAGEARV (R358) -/
  | stagearv (r : BitVec 2) (k : BitVec 3)
  /-- STAGEWT (R358) -/
  | stagewt (r : BitVec 2) (h : BitVec 1) (k : BitVec 3)
  /-- ROLEQ (R358) -/
  | roleq (d : BitVec 8) (r : BitVec 2)
  /-- PREEMPT_SUSPEND (R362) -/
  | preemptSuspend (d : BitVec 8) (a : BitVec 8)
  /-- PREEMPT_RESUME (R362) -/
  | preemptResume (d : BitVec 8) (a : BitVec 8)
  /-- PREEMPT_EVICT (R364) -/
  | preemptEvict (d : BitVec 8) (a : BitVec 8)
  /-- PREEMPT_TERMINATE (R362) -/
  | preemptTerminate (d : BitVec 8) (a : BitVec 8)
  /-- PREEMPT_SYSRESUME (R362) -/
  | preemptSysresume (d : BitVec 8) (a : BitVec 8)
  /-- PREEMPT_CLDRAIN (R362) -/
  | preemptCldrain (d : BitVec 8) (a : BitVec 8)
  /-- PREEMPT_CLOPEN (R362) -/
  | preemptClopen (d : BitVec 8) (a : BitVec 8)
  /-- PREEMPT_CLOFF (R362) -/
  | preemptCloff (d : BitVec 8) (a : BitVec 8)
  /-- CTXSAVE (R365) -/
  | ctxsave (d : BitVec 8) (a : BitVec 8)
  /-- CTXLOAD (R365) -/
  | ctxload (d : BitVec 8) (a : BitVec 8)
  /-- MCFG (R374) -/
  | mcfg (n : BitVec 2) (a : BitVec 8)
  /-- MMP (R376) -/
  | mmp (n : BitVec 2) (a : BitVec 8) (b : BitVec 8) (sg : BitVec 1)
  /-- MMPB (R376) -/
  | mmpb (n : BitVec 2) (a : BitVec 8) (b : BitVec 8) (sg : BitVec 1)
  /-- MMPG (R376) -/
  | mmpg (n : BitVec 2) (a : BitVec 8) (b : BitVec 8) (sg : BitVec 1)
  /-- MZERO (R386) -/
  | mzero (n : BitVec 2)
  /-- TOKPASS (R387) -/
  | tokpass (n : BitVec 2) (g : BitVec 8)
  /-- TOKWAIT (R387) -/
  | tokwait (n : BitVec 2)
  /-- TREAD (R388) -/
  | tread (n : BitVec 2) (d : BitVec 8) (r : BitVec 8) (h : BitVec 1)
  /-- TWRITE (R389) -/
  | twrite (n : BitVec 2) (a : BitVec 8) (r : BitVec 8) (h : BitVec 1)
  /-- TCHK (R390) -/
  | tchk (n : BitVec 2) (d : BitVec 8) (c : BitVec 1) (f : BitVec 1) (h : BitVec 1)
  /-- MDRAIN (R391) -/
  | mdrain (n : BitVec 2) (a : BitVec 8) (h : BitVec 1)
  /-- ENSURE (R403) -/
  | ensure (l : BitVec 8) (e : BitVec 12)
  /-- ELSEBY (R404) -/
  | elseby (o : BitVec 12)
  /-- VERDICT (R405) -/
  | verdict (q : BitVec 3)
  /-- CONVJOIN (R421) -/
  | convjoin (a : BitVec 8)
  /-- RBSTAT (R410) -/
  | rbstat (d : BitVec 8)
  /-- RBFAIL (R409) -/
  | rbfail (c : BitVec 8)
  /-- CMPSTAT (R449) -/
  | cmpstat (d : BitVec 8)
  /-- CMPPOINT (R450) -/
  | cmppoint (a : BitVec 8) (sg : BitVec 1) (n : BitVec 3)
  /-- LNKPARK (R481) -/
  | lnkpark (a : BitVec 8) (g : BitVec 3)
  /-- LNKWAKE (R481) -/
  | lnkwake (a : BitVec 8) (g : BitVec 3)
  /-- LNKSTAT (R483) -/
  | lnkstat (d : BitVec 8) (g : BitVec 3)
  /-- SLOTLD (R484) -/
  | slotld (a : BitVec 8) (g : BitVec 3)
  /-- SLOTSW (R485) -/
  | slotsw (g : BitVec 3)
  /-- LNKTHR (R482) -/
  | lnkthr (a : BitVec 8) (g : BitVec 3)
  /-- LNKRETRAIN (R486) -/
  | lnkretrain (g : BitVec 3)
  /-- NOP (R104) -/
  | nop
  /-- HSCHED_YIELD (R104) -/
  | hschedYield
  /-- HSCHED_PREF (R104) -/
  | hschedPref
  /-- RET (R172) -/
  | ret
  /-- EXIT (R175) -/
  | exit
  /-- BAR (R177) -/
  | bar
  /-- YIELD (R180) -/
  | yield
  /-- HALT (R190) -/
  | halt
  /-- FENCE (R248) -/
  | fence
  /-- INVL1 (R249) -/
  | invl1
  /-- ELSEERR (R404) -/
  | elseerr
  /-- BRK (R188) -/
  | brk
  /-- LONG_LATENCY_COMPLETION (R86), no bits: a step of its own -/
  | longLatencyCompletion
  /-- LOAD_REPLY (R16), no bits: a step of its own -/
  | loadReply
  /-- STORE_BLOCK_MERGE (R234), no bits: a step of its own -/
  | storeBlockMerge
  /-- STORE_ACKNOWLEDGE (R234), no bits: a step of its own -/
  | storeAcknowledge
  /-- COMMUTATIVE_FLUSH (R58), no bits: a step of its own -/
  | commutativeFlush
  /-- TRANSLATION_WALK (R239), no bits: a step of its own -/
  | translationWalk
  /-- PAGE_MONITOR_WAKE (R245), no bits: a step of its own -/
  | pageMonitorWake
  /-- WALK_RETRY_TIMER (R245), no bits: a step of its own -/
  | walkRetryTimer
  /-- SECTOR_FILL_RETURN (R236), no bits: a step of its own -/
  | sectorFillReturn
  /-- LINE_HANDOVER (R294), no bits: a step of its own -/
  | lineHandover
  /-- SHARE_CLEARING_DONE (R297), no bits: a step of its own -/
  | shareClearingDone
  /-- SLICE_RETENTION_ENTRY (R286), no bits: a step of its own -/
  | sliceRetentionEntry
  /-- SLICE_RETENTION_EXIT_DONE (R286), no bits: a step of its own -/
  | sliceRetentionExitDone
  /-- CMLR_RESERVATION_TIMEOUT (R303), no bits: a step of its own -/
  | cmlrReservationTimeout
  /-- BANK_ZEROING_DONE (R256), no bits: a step of its own -/
  | bankZeroingDone
  /-- BANK_RETENTION_ENTRY (R267), no bits: a step of its own -/
  | bankRetentionEntry
  /-- BANK_RETENTION_EXIT_DONE (R267), no bits: a step of its own -/
  | bankRetentionExitDone
  /-- GIVE_LAND (R261), no bits: a step of its own -/
  | giveLand
  /-- SYNC_WORD_RAISE (R64), no bits: a step of its own -/
  | syncWordRaise
  /-- RING_MESSAGE_DELIVERY (R274), no bits: a step of its own -/
  | ringMessageDelivery
  /-- SEND_REFUSAL (R274), no bits: a step of its own -/
  | sendRefusal
  /-- COPY_TRANSFER (R323), no bits: a step of its own -/
  | copyTransfer
  /-- COPY_FINISH (R324), no bits: a step of its own -/
  | copyFinish
  /-- GFT_PUT (R337), no bits: a step of its own -/
  | gftPut
  /-- GFT_GET_REQUEST (R337), no bits: a step of its own -/
  | gftGetRequest
  /-- GFT_GET_REPLY (R337), no bits: a step of its own -/
  | gftGetReply
  /-- GFT_ATOMIC_REQUEST (R337), no bits: a step of its own -/
  | gftAtomicRequest
  /-- GFT_ATOMIC_REPLY (R337), no bits: a step of its own -/
  | gftAtomicReply
  /-- GFT_ACKNOWLEDGEMENT (R336), no bits: a step of its own -/
  | gftAcknowledgement
  /-- GFT_REFUSAL (R338), no bits: a step of its own -/
  | gftRefusal
  /-- GFT_RETRANSMIT (R336), no bits: a step of its own -/
  | gftRetransmit
  /-- REMOTE_OPERATION_TIMEOUT (R339), no bits: a step of its own -/
  | remoteOperationTimeout
  /-- MANAGEMENT_FRAME (R332), no bits: a step of its own -/
  | managementFrame
  /-- KICK_WRITE (R348), no bits: a step of its own -/
  | kickWrite
  /-- CONTEXT_DEFINE (R345), no bits: a step of its own -/
  | contextDefine
  /-- CONTEXT_DESTROY (R345), no bits: a step of its own -/
  | contextDestroy
  /-- CONTEXT_DESTRUCTION_DONE (R345), no bits: a step of its own -/
  | contextDestructionDone
  /-- CONTEXT_RECORD_WRITE (R345), no bits: a step of its own -/
  | contextRecordWrite
  /-- QUEUE_DEFINE (R347), no bits: a step of its own -/
  | queueDefine
  /-- QUEUE_UNDEFINE (R347), no bits: a step of its own -/
  | queueUndefine
  /-- QUEUE_ENTRY_WRITE (R347), no bits: a step of its own -/
  | queueEntryWrite
  /-- NOP_RECORD (R350), no bits: a step of its own -/
  | nopRecord
  /-- LAUNCH_RECORD (R352), no bits: a step of its own -/
  | launchRecord
  /-- WAIT_RECORD (R350), no bits: a step of its own -/
  | waitRecord
  /-- LOAD_RECORD (R118), no bits: a step of its own -/
  | loadRecord
  /-- COMMAND_RECORD_COMPLETE (R350), no bits: a step of its own -/
  | commandRecordComplete
  /-- TEAM_PLACEMENT (R354), no bits: a step of its own -/
  | teamPlacement
  /-- GROUP_RETIRE (R175), no bits: a step of its own -/
  | groupRetire
  /-- TEAM_RETIRE (R175), no bits: a step of its own -/
  | teamRetire
  /-- GROW_DEADLOCK_EVICTION (R184), no bits: a step of its own -/
  | growDeadlockEviction
  /-- SLEEP_EXPIRY (R180), no bits: a step of its own -/
  | sleepExpiry
  /-- GROUP_WATCHDOG_EXPIRY (R192), no bits: a step of its own -/
  | groupWatchdogExpiry
  /-- CLUSTER_WATCHDOG_FIRE (R493), no bits: a step of its own -/
  | clusterWatchdogFire
  /-- COMMAND_CORE_WATCHDOG_EXPIRY (R494), no bits: a step of its own -/
  | commandCoreWatchdogExpiry
  /-- SUSPENSION_LIMIT_EXPIRY (R362), no bits: a step of its own -/
  | suspensionLimitExpiry
  /-- RING_CLUSTER_WAIT_TIMEOUT (R363), no bits: a step of its own -/
  | ringClusterWaitTimeout
  /-- BARRIER_COMPLETE (R177), no bits: a step of its own -/
  | barrierComplete
  /-- BARP_GENERATION_COMPLETE (R178), no bits: a step of its own -/
  | barpGenerationComplete
  /-- TOKEN_HANDOVER (R387), no bits: a step of its own -/
  | tokenHandover
  /-- MATRIX_ACCUMULATION (R378), no bits: a step of its own -/
  | matrixAccumulation
  /-- LEVEL_ROLLBACK (R407), no bits: a step of its own -/
  | levelRollback
  /-- CYCLE_LIMIT_EXPIRY (R418), no bits: a step of its own -/
  | cycleLimitExpiry
  /-- CONVERSATION_FORMATION (R421), no bits: a step of its own -/
  | conversationFormation
  /-- CONVERSATION_COMMIT (R422), no bits: a step of its own -/
  | conversationCommit
  /-- CONVERSATION_JOINT_FAILURE (R422), no bits: a step of its own -/
  | conversationJointFailure
  /-- TRAILING_COPY_START (R432), no bits: a step of its own -/
  | trailingCopyStart
  /-- COMPARE_MATCH (R436), no bits: a step of its own -/
  | compareMatch
  /-- COMPARE_WAIT_TIMEOUT (R440), no bits: a step of its own -/
  | compareWaitTimeout
  /-- INJECTION_PORT_WRITE (R447), no bits: a step of its own -/
  | injectionPortWrite
  /-- READ_BUNDLE_SLOT (R462), no bits: a step of its own -/
  | readBundleSlot
  /-- WRITE_SLOT (R468), no bits: a step of its own -/
  | writeSlot
  /-- MAINTENANCE_SLOT (R478), no bits: a step of its own -/
  | maintenanceSlot
  /-- ZERO_MAP_BACKGROUND_CLEAR (R477), no bits: a step of its own -/
  | zeroMapBackgroundClear
  /-- READ_REPLY_SLOT (R469), no bits: a step of its own -/
  | readReplySlot
  /-- ACKNOWLEDGEMENT_SLOT (R468), no bits: a step of its own -/
  | acknowledgementSlot
  /-- SUPERFRAME_BOUNDARY (R470), no bits: a step of its own -/
  | superframeBoundary
  /-- LANE_LOSS_OF_LOCK (R473), no bits: a step of its own -/
  | laneLossOfLock
  /-- SLOT_CHECK_FAILURE (R473), no bits: a step of its own -/
  | slotCheckFailure
  /-- LINKSTALL_TIMEOUT (R475), no bits: a step of its own -/
  | linkstallTimeout
  /-- LINKDOWN (R476), no bits: a step of its own -/
  | linkdown
  /-- LINK_LIVE (R474), no bits: a step of its own -/
  | linkLive
  /-- CLSRES_WRITE (R479), no bits: a step of its own -/
  | clsresWrite
  /-- REGISTER_WRITE (R503), no bits: a step of its own -/
  | registerWrite
  /-- MODULE_RESET (R495), no bits: a step of its own -/
  | moduleReset
  /-- ATTESTATION_REQUEST (R499), no bits: a step of its own -/
  | attestationRequest
  /-- FOXGLOVE_PACKAGE_LOAD (R500), no bits: a step of its own -/
  | foxglovePackageLoad
  /-- IN_FIELD_SCAN (R500), no bits: a step of its own -/
  | inFieldScan
  /-- THERMAL_THROTTLE (R502), no bits: a step of its own -/
  | thermalThrottle
  /-- THERMAL_SHUTDOWN (R502), no bits: a step of its own -/
  | thermalShutdown
  /-- THERMAL_POWER_REMOVAL (R502), no bits: a step of its own -/
  | thermalPowerRemoval
  /-- RESERVED_WORD (R106), no bits: a step of its own -/
  | reservedWord
  /-- STORAGE_BIT_ERROR (R285), no bits: a step of its own -/
  | storageBitError
  /-- KEY_EPOCH_INSTALL (R334), no bits: a step of its own -/
  | keyEpochInstall
  /-- THERMAL_THROTTLE_RELEASE (R502), no bits: a step of its own -/
  | thermalThrottleRelease
  deriving DecidableEq, Repr

end Sys2Proof
end

