-- ==== Sys2Proof/Machine/State.lean ====
section
/-! DEFINITION. The state of the module as plain data: every register, store and record that spec/ names (INVENTORY.md
lists them with their rules), the reasons a step can stop, and the state right after module reset. -/

namespace Sys2Proof.Machine

/-- Finite map from numbers, keys strictly rising: every sparse store of the model. -/
abbrev Map (α : Type) := List (Nat × α)

/-- Reasons a step stops with a fault of the model. The machine's own faults (R186) are no fault here: they are taken. -/
inductive Fault where
  /-- Raised by the meaning of an instruction word when State.cur names no issuing gang of a resident team: exec was
  asked to run a word that no sequencer issues. No run of step reaches it. Safe. -/
  | noIssuer
  /-- Raised by step when the module has no power (R502): nothing moves any more. Safe. -/
  | powerRemoved
  deriving DecidableEq, Repr

/-- Reasons the model gives no meaning. -/
inductive Refusal where
  /-- Raised only by the arms of exec for an instruction without a meaning yet. Safe. -/
  | notModelled (mnemonic : String)
  deriving DecidableEq, Repr

/-! ## Register files of a group -/

/-- A word of a vector register: value and 2-bit residue (R12, R194). -/
structure VWord where
  val : Word
  res : BitVec 2
  deriving DecidableEq, Repr

/-- The registers of a group's lanes and its uniform registers. Key of v: register × 64 + lane, with registers 0-127 for
v0-v127 and 128-135 for t0-t7; key of x and q: number × 64 + lane. xbad and qbad hold the keys whose parity bit is wrong
(R194). Unlisted entries hold the value that allocation gives (R34). -/
structure RegFile where
  v : Map VWord
  x : Map Byte
  q : Map Bool
  s : Map Word
  xbad : List Nat
  qbad : List Nat
  deriving DecidableEq, Repr

/-! ## Slices, units, gangs, runs -/

/-- What an issue unit does at its PC (R166 to R176). After a REGANG that names slices, left are the named ones that have not
gathered yet since (R176). -/
inductive UnitState where
  | ready
  | atRejoin
  | regang (named left : List Nat)
  | finished
  deriving DecidableEq, Repr

/-- An issue unit (R166): a PC, a lane mask over the group's lanes, its return stack (R172), its gang (R167), and the
address of the word that led to its PC (R93). -/
structure PathUnit where
  pc : DWord
  via : DWord
  mask : Mask
  ret : List DWord
  st : UnitState
  gang : Nat
  deriving DecidableEq, Repr

/-- An entry of the reconvergence stack (R170): owner is true for slot B. -/
structure Recon where
  owner : Bool
  rj : DWord
  ft : DWord
  n : Mask
  m : Mask
  ran : Bool
  deriving DecidableEq, Repr

/-- A slice (R19, R166): in single mode only a is an issue unit. -/
structure Slice where
  dual : Bool
  a : PathUnit
  b : PathUnit
  rj : DWord
  stack : List Recon
  deriving DecidableEq, Repr

/-- A destination of a long-latency operation issued in a run (R88): scalar or vector register. -/
structure Dest where
  op : Nat
  scalar : Bool
  reg : Nat
  deriving DecidableEq, Repr

/-- A pending range (R88), bound to a flag. -/
structure PendRange where
  flag : Nat
  scalar : Bool
  first : Nat
  count : Nat
  deriving DecidableEq, Repr

/-- Run state (R83 to R102): CLAUSE address, the words after the CLAUSE as the sequencer read them at the run's start
(R84; the last is the ENDRUN), offset of the next word from the CLAUSE, FA, FB, the ENDRUN ranges, the units that issue
it (slice, slot B), the pending immediate and hints, the temporaries written, the run's own long-latency destinations, whether its end resets the ages (R104), the operation of
a memory word whose translation is under way, and whether the word is resumed after a fault (R245, R189). -/
structure Run where
  clause : DWord
  words : List Word
  off : Nat
  fa : Nat
  fb : Nat
  ranges : List PendRange
  units : List (Nat × Bool)
  imm : Option Word
  hopnd : Option Byte
  mpfx : Option Word
  temps : BitVec 8
  dests : List Dest
  yield : Bool
  op : Option Nat
  replay : Option Mask
  deriving DecidableEq, Repr

/-- Why a gang does not issue (R94, R95, R176, R188, R190, R403). woken: what the gang parked or blocked at inside its run is
over, and it goes on when no other gang of its group is inside a run that is issuing (R85). replay: a memory word that its gang
had parked at translates again (R245). A barp names the barrier, the
generation and the count that the word has named (R178). -/
inductive Wait where
  | none
  | woken
  | translate (op : Nat)
  | replay (op : Nat)
  | parked (op : Nat)
  | timer (op : Nat) (due : Nat)
  | syscall
  | halted
  | barrier
  | barp (b gen n : Nat)
  | event (mask : Word)
  | sleep (due : Nat)
  | grow (n : Nat)
  | stage (r k : Nat) (ph : Bool)
  | token (tile : Nat)
  | queue (q target : Nat)
  | sync (off : Nat) (gen : Word)
  | ring (handle : Word) (tail : Word)
  | batch (b : Nat)
  | ensure (level : Nat)
  | verdict (level : Nat)
  | convjoin
  | members
  | drain (op : Nat)
  deriving DecidableEq, Repr

/-- A gang (R167): the time of its last issue for its age counter (R23), its run, what it waits for, and the clock at which its
word has stalled at issue (R85; MODEL: the scheduler looks elsewhere on that clock). -/
structure Gang where
  id : Nat
  last : Nat
  run : Option Run
  wait : Wait
  tried : Option Nat
  deriving DecidableEq, Repr

/-! ## Cached translations (R240) -/

/-- A cached translation: context, virtual base, size in bytes, leaf entry. -/
structure Tlb where
  ctx : Nat
  base : Nat
  size : Nat
  leaf : Nat
  deriving DecidableEq, Repr

/-- An entry of a cluster's pointer caches: the table of a level below the root that the walks of a context's virtual range
reach. -/
structure TablePtr where
  ctx : Nat
  level : Nat
  base : Nat
  size : Nat
  table : Nat
  deriving DecidableEq, Repr

/-! ## Memory traffic of a group -/

/-- Spaces of R30. -/
inductive Space where
  | global
  | scratch
  | remote
  | drawer
  | sync
  | tile
  deriving DecidableEq, Repr

/-- The six memory modifiers of a word (R102, R103), as numbers of their codes, with the space named. -/
structure Mods where
  order : Nat
  scope : Nat
  space : Space
  cpol : Nat
  use : Nat
  rcnt : Nat
  deriving DecidableEq, Repr

/-- What a block of a store FIFO does where it is performed (R234, R269, R301). -/
inductive BlockKind where
  | store
  | atomic (op : Nat) (wide : Bool)
  | swinit (target gen : Word)
  | swadd (n : Nat)
  deriving DecidableEq, Repr

/-- A block of one store or atomic (R226, R234): its operation and lane set, where it goes, its bytes (address in its
space, physical for global and drawer-direct), the recovery level it was issued in, and how a release holds it. For an
atomic the cells hold the lane's data and cmp its compare bytes. iaddr, gang, lanes and va say which instruction, gang and lanes
it comes from and its first address, for a fault met where it is performed; psize is the size of the page that it has been
translated through, for the sweep of an INVPG (R251), and born the clock of its issue (R58). -/
structure Block where
  id : Nat
  op : Nat
  team : Nat
  group : Nat
  kind : BlockKind
  space : Space
  lane : Nat
  ctx : Nat
  vc : Nat
  lclass : Nat
  device : Bool
  bank : Nat
  cells : List Host.Cell
  cmp : Nat
  mods : Mods
  level : Nat
  iaddr : DWord
  gang : Nat
  lanes : Mask
  va : DWord
  psize : Nat
  born : Nat
  deriving DecidableEq, Repr

/-- State of one lane of a memory operation (R223, R243). -/
inductive LaneState where
  | walk
  | ready
  | miss
  | parked (sector : Nat)
  | stalled
  | bound
  | faulted (code datum : Nat)
  | dropped
  deriving DecidableEq, Repr

/-- One lane's access of a memory operation: its virtual address or offset, where the translation leads and the size of the
page that it leads through, the first data register it reads or writes, its state, and data that have come back. -/
structure LaneAcc where
  lane : Nat
  va : DWord
  pa : Nat
  vc : Nat
  lclass : Nat
  sealed : Bool
  reg : Nat
  st : LaneState
  data : List Byte
  cmp : Nat
  psize : Nat
  deriving DecidableEq, Repr

/-- Which memory instruction an operation belongs to. -/
inductive MemKind where
  | load
  | store
  | loadU
  | storeU
  | atom (op : Nat)
  | atomn (op : Nat)
  | pref
  | probe
  deriving DecidableEq, Repr

/-- The memory part of an operation (R219 to R225, R247, R250, R298). bytes is the lane size, tag the TAG field, posted
says that its park has posted a record (R245), lead is the leading copy's operation that answers it (R433), loose that its gang
has gone on without it (R187). -/
structure MemOp where
  kind : MemKind
  space : Space
  mods : Mods
  bytes : Nat
  tag : Nat
  regs : Nat
  accs : List LaneAcc
  posted : Bool
  lead : Option Nat
  loose : Bool
  deriving DecidableEq, Repr

/-- A range that SEAL, UNSEAL, WOBSEAL, DISCARD, FLUSH or VCRESIZE.move works on (R306 to R313, R295): physical pieces
with their VC and link class, and the size of the page that each lies in. -/
structure Piece where
  va : Nat
  pa : Nat
  size : Nat
  vc : Nat
  lclass : Nat
  psize : Nat
  deriving DecidableEq, Repr

/-- What an outstanding long-latency operation still has to do before its flag count falls (R86). ret writes words to
uniform registers; follow is the trailing copy's part of an operation that the leading copy performs (R433). -/
inductive OpBody where
  | done
  | ret (d : Nat) (vals : List Nat)
  | follow (lead d : Nat)
  | mem (m : MemOp)
  | fetch (va : DWord)
  | fence (order scope : Nat)
  | at (due : Nat)
  | btake (slot d : Nat)
  | bfree (slot : Nat)
  | bgive (slot bank core port : Nat) (match? : Option Nat)
  | bopen (slot d port core : Nat) (sync : Option Nat) (give : Option Nat)
  | bdrain (slots : List Nat)
  | send (ring : Word) (src len : Nat) (bytes : Option (List Byte)) (refusal : Option Nat)
  | ringack (ring : Word) (n : Word)
  | cmlr (lines : List Piece)
  | cmls (d src : Nat) (lines : List Piece)
  | seal (pieces : List Piece) (value : Bool) (since : Option Nat)
  | wobseal (d count : Nat) (key : Option Nat) (pieces : List Piece) (since : Option Nat)
  | wobrel (key phase since : Nat) (pieces : List Piece)
  | discard (pieces : List Piece) (sent : Bool)
  | flush (pieces : List Piece) (sent : Bool)
  | vcundef (vc : Nat)
  | vcresize (vc : Nat)
  | vcmove (pieces : List Piece) (target : Nat) (since : Option Nat)
  | invpg (kind ctx : Nat) (va : DWord) (since : Option Nat) (size : Nat)
  | accept (copy : Nat)
  | cseal (b : Nat)
  | ratom (copy d : Nat)
  | wrevoke (window : Nat)
  | qkick (q : Nat) (v : DWord)
  | launch (q d : Nat) (addr : DWord) (inc : Nat)
  | stagearv (r k : Nat)
  | evict (team d : Nat) (terminate : Bool)
  | suspend (team d : Nat)
  | closed (cluster d : Nat)
  | matrix (fn tile : Nat) (a b : List Word) (share : Bool) (list : List Word) (posted : Option DWord) (started : Bool)
      (lines : Map (List Byte)) (bad : Option DWord)
  | mcfg (tile : Nat) (w : Word)
  | mzero (tile : Nat)
  | tokpass (tile grp : Nat)
  | tread (tile half e : Nat) (regs : List (Nat × Nat))
  | twrite (tile half e : Nat) (words : List (Nat × Word))
  | tchk (tile half d : Nat) (clr nf : Bool)
  | mdrain (tile half : Nat) (a : List Word) (list : List Word) (posted : Option DWord) (todo : Option (List Nat))
  | park (link : Nat) (pairs : List Nat)
  | wake (link : Nat) (pairs : List Nat)
  | switch (link : Nat)
  | retrain (link : Nat)
  deriving DecidableEq, Repr

/-- An outstanding long-latency operation (R16, R86): who issued it and where, the lanes of the issuing units, the flag
it is attached to, the destination registers. -/
structure Op where
  id : Nat
  team : Nat
  group : Nat
  gang : Nat
  iaddr : DWord
  lanes : Mask
  flag : Option Nat
  level : Nat
  body : OpBody
  deriving DecidableEq, Repr

/-- A fault record before it is laid out in bytes (R185). -/
structure Record where
  code : Nat
  kind : Nat
  inrun : Bool
  replay : Bool
  sysmode : Bool
  double : Bool
  group : Nat
  num : Nat
  iaddr : DWord
  lanes : Mask
  faddr : DWord
  deriving DecidableEq, Repr

/-! ## Groups -/

/-- Roles of R17, in the coding of GSTAT.ROLE (R160). -/
inductive Role where
  | vector
  | copy
  | matrix
  deriving DecidableEq, Repr

/-- A batch (R324). -/
inductive BatchState where
  | free
  | sealed
  | done
  deriving DecidableEq, Repr

structure Batch where
  st : BatchState
  code : Nat
  sub : Nat
  nerr : Nat
  ncopy : Nat
  deriving DecidableEq, Repr

/-- A system-mode shadow (R189): divergence and run state at the trap, the temporaries among it (registers 128-135 and their
tags, R94), with the recorded instruction and lanes. -/
structure Shadow where
  slices : List Slice
  gangs : List Gang
  gang : Nat
  iaddr : DWord
  lanes : Mask
  temps : Map VWord
  tempTags : Map Nat
  deriving DecidableEq, Repr

/-- A CMLR reservation (R303): line, its VC, and whether it is lost. -/
structure Resv where
  line : Nat
  vc : Nat
  lost : Bool
  due : Nat
  deriving DecidableEq, Repr

/-- A group (R19) with everything it owns. width counts physical lanes; in lane-pair mode sh holds the shadow lanes'
registers and the second copy of the uniform registers (R429, R430). half, col and rows say where it lives: its core-half,
its first column and the words of each of its columns (R21, R24). loose are registers that operations of abandoned runs will
write, each with its flag (R88, R187); idle is the no-issue counter, in units of State.now (R192); busy says for a slice the
clock from which its column is free (R22, R193); lastPage holds the last-page registers of its lanes (R240), and seen the blocks
of the merge point whose bytes its loads have returned, each with the operation of the load (R49). -/
structure Group where
  id : Nat
  width : Nat
  lanepair : Bool
  vregs : Nat
  sregs : Nat
  role : Role
  checked : Bool
  rf : RegFile
  sh : Option RegFile
  tags : Map Nat
  flags : Map Nat
  pend : List PendRange
  loose : List PendRange
  sysmode : Bool
  intrap : Bool
  empty : Bool
  fpctl : Word
  fpstat : Word
  fpcnt : List Nat
  part : Nat
  winbase : Nat
  winlen : Nat
  faultlo : Word
  faulthi : Word
  errinj : Word
  unitBad : List Nat
  evpend : Word
  mdef : Word
  wdcfg : Word
  cmpretry : Word
  slices : List Slice
  gangs : List Gang
  gangCtr : Nat
  fifo : List Block
  lastPage : Map Tlb
  seen : List (Nat × Nat)
  acqt : Nat
  idle : Nat
  busy : Map Nat
  runs : Nat
  late : List Record
  batches : List Batch
  openStat : Batch
  resv : List Resv
  shadow : Option Shadow
  retired : Bool
  half : Nat
  col : Nat
  rows : List Nat
  core : Nat
  deriving DecidableEq, Repr

/-! ## Recovery (13) and compare (14) state of a team -/

/-- A tile element's checksum entry (R382). -/
structure Check where
  c : Word
  m : Word
  v : Word
  deriving DecidableEq, Repr

/-- One half of an accumulator tile (R369, R382, R385): elements and entries that hold +0 are unlisted. -/
structure Tile where
  acc : Map Word
  row : Map Check
  col : Map Check
  tcfg : Word
  iv : Bool
  ovf : Bool
  uf : Bool
  ix : Bool
  deriving DecidableEq, Repr

/-- State of a sector at its home slice (R282). A fill-pending sector carries the mask of bytes already written. -/
inductive SectorState where
  | invalid
  | pending (written : DWord)
  | clean
  | dirty
  | sealed
  | prov (team level : Nat)
  deriving DecidableEq, Repr

/-- A sector at its home slice: state, bytes, poison, a single-bit error that no read has met (R285), priority, last use and time
of its fill. -/
structure Sector where
  st : SectorState
  bytes : Map Byte
  poison : Bool
  weak : Bool
  prio : Nat
  used : Nat
  filled : Nat
  deriving DecidableEq, Repr

/-- Barrier 1-15 of a team (R178): its open generation, and those that are complete and whose groups still have to pass, with
their groups. -/
structure Barp where
  gen : Nat
  expected : Option Nat
  arrived : List Nat
  closed : List (Nat × List Nat)
  deriving DecidableEq, Repr

/-- A group's snapshot at ENSURE (R412). -/
structure Snap where
  group : Nat
  q : Map Bool
  x : Map Byte
  shq : Map Bool
  shx : Map Byte
  winbase : Nat
  winlen : Nat
  part : Nat
  fpctl : Word
  fpstat : Word
  fpcnt : List Nat
  empty : Bool
  intrap : Bool
  rets : List (List DWord)
  deriving DecidableEq, Repr

/-- An entry of the recovery cache: an item's value before its first write in the level (R412). -/
inductive Undo where
  | vreg (group slice reg tag : Nat) (words : List (Nat × VWord)) (shadow : List (Nat × VWord))
  | sreg (group reg : Nat) (old oldShadow : Word)
  | word (slot off : Nat) (old : Word)
  | sector (key : Nat) (old : Sector) (keep : DWord)
  | tile (half z : Nat) (old : Tile)
  deriving DecidableEq, Repr

/-- An entry of the exactly-once log (R419): its instruction, the bytes of the region it takes, and the results of the
lanes or registers performed so far. -/
structure LogEntry where
  group : Nat
  iaddr : DWord
  fn : Nat
  size : Nat
  olds : List (Nat × Nat)
  deriving DecidableEq, Repr

/-- An open recovery level (R400): its addresses, where the current routine starts and the first operation number of it,
resident clocks at its start, the groups that have issued the ENSURE, those in phase TEST, their verdicts, what is saved,
the log with its replay cursors, and the conversation that it has joined (R420): key of the record's sector, its address,
the groups that have issued CONVJOIN, whether the team has joined, whether the conversation has formed, whether the
team's verdict is posted, and its report after a joint rollback (R422). -/
structure Level where
  ens : DWord
  term : DWord
  exit : DWord
  test : DWord
  start : DWord
  first : Nat
  routine : Nat
  limit : Nat
  count : Nat
  retry : Nat
  arrived : List Nat
  testing : List Nat
  verdicts : List (Nat × Bool)
  snaps : List Snap
  barps : List Barp
  entries : List Undo
  log : List LogEntry
  cursor : List (Nat × Nat)
  conv : Option Nat
  convva : DWord
  joiners : List Nat
  joined : Bool
  formed : Bool
  posted : Bool
  reported : Option Bool
  deriving DecidableEq, Repr

/-- A failure whose rollback is under way (R407); retry marks a compare retry (R441). -/
structure Failing where
  level : Nat
  kind : Nat
  code : Nat
  group : Nat
  retry : Bool
  deriving DecidableEq, Repr

/-- A compared event (R436) held in the compare buffer with its data. -/
structure CmpEvent where
  group : Nat
  index : Nat
  kind : Nat
  iaddr : DWord
  lanes : Mask
  words : List Nat
  faddr : DWord
  block : Option Block
  copy : Option Nat
  since : Nat
  deriving DecidableEq, Repr

/-- Compare-engine state of a protected team (R433, R436, R449). -/
structure Compare where
  held : List CmpEvent
  seen : List CmpEvent
  values : List (Nat × List Nat)
  sent : List (Nat × Nat)
  taken : List (Nat × Nat)
  mismatch : Nat
  retries : Nat
  escal : Nat
  stall : Nat
  lastGroup : Nat
  lastDatum : Nat
  deriving DecidableEq, Repr

/-! ## Teams -/

/-- The launch descriptor (R352). -/
structure Desc where
  entry : DWord
  param : DWord
  gx : Nat
  gy : Nat
  gz : Nat
  width : Nat
  vregs : Nat
  threads : Nat
  sregs : Nat
  slots : Nat
  fused : Bool
  protect : Nat
  copyFirst : Nat
  copyCount : Nat
  matFirst : Nat
  matCount : Nat
  stages : List Nat
  rcsize : Nat
  slack : Nat
  rcbase : Nat
  savebase : Nat
  savesize : Nat
  diemask : Nat
  deriving DecidableEq, Repr

/-- Entry of a bank map (R254). -/
inductive SlotState where
  | detached
  | attached (bank : Nat)
  | opening (op : Nat)
  | leaving (bank : Nat)
  deriving DecidableEq, Repr

/-- Where a team stands (R353, R361, R362, R364). -/
inductive TeamPhase where
  | waiting
  | resident
  | evicted
  deriving DecidableEq, Repr

/-- Which copy of a core-pair protected team a record is (R427, R432). -/
inductive CopyRole where
  | only
  | leading
  | trailing
  deriving DecidableEq, Repr

/-- What eviction saved of a team (R360, R364): tiles of both halves (half × 4 + tile) and bank contents by slot with their poison
marks (R268); the areas before the banks hold the free values from first on. -/
structure Saved where
  first : Nat
  tiles : Map Tile
  banks : Map (List Host.Cell)
  bad : Map (List Nat)
  deriving DecidableEq, Repr

/-- A team (R19). core is the module-wide core (or lower core of the pair); a command core's team has command = true and
core = die. promised are the slots that a placement has still to attach banks to (R256, R354); regionHit says that something else has
written into the recovery-cache region since its first level opened (R414). -/
structure Team where
  id : Nat
  handle : Word
  ctx : Nat
  grid : Nat
  number : Nat
  queue : Nat
  desc : Desc
  command : Bool
  phase : TeamPhase
  begun : Bool
  order : Nat
  core : Nat
  pair : Bool
  suspended : Bool
  suspendedAt : Nat
  evictReq : Bool
  waitSince : Nat
  placedAt : Nat
  placeSeq : Nat
  resident : Nat
  groups : List Group
  trapvec : Word
  barps : List Barp
  phases : List (List Bool)
  slots : List SlotState
  tokens : List (Option Nat)
  tokpend : List (Option Nat)
  levels : List Level
  forming : Option Level
  fail : Option Failing
  failSince : Nat
  rbcause : Word
  committed : Nat
  rolled : Nat
  cmp : Compare
  copy : CopyRole
  twin : Option Nat
  started : Bool
  startAt : Nat
  saved : Option Saved
  half1 : Map Tile
  oldRegs : List Nat
  promised : List Nat
  regionHit : Bool
  deriving DecidableEq, Repr

/-! ## Clusters, cores -/

/-- State of a scratchpad bank (R253, R256, R258): a zeroing bank has its place in the order of release and, once it is one of
the eight under way, the clock at which its zeroing began. -/
inductive BankState where
  | free
  | zeroing (rank : Nat) (start : Option Nat)
  | attached (team slot : Nat)
  | transit
  deriving DecidableEq, Repr

/-- Retention of a bank (R267, R286). -/
inductive Retention where
  | active
  | entering (since : Nat)
  | retained
  | leaving (due : Nat)
  deriving DecidableEq, Repr

/-- A scratchpad bank: bytes by offset (unlisted: zero), 8-byte words with an uncorrectable error, words with a
correctable one, the last access, retention. -/
structure Bank where
  st : BankState
  mem : List Host.Cell
  bad : List Nat
  weak : List Nat
  last : Nat
  ret : Retention
  deriving DecidableEq, Repr

/-- A held give (R262). -/
structure Give where
  ctx : Nat
  core : Nat
  port : Nat
  bank : Nat
  gcore : Nat
  op : Nat
  landed : Bool
  deriving DecidableEq, Repr

/-- A ring entry (R271). -/
structure Ring where
  team : Nat
  ctx : Nat
  base : Nat
  size : Nat
  head : Word
  tail : Word
  sync : Option Nat
  producer : Option Nat
  deriving DecidableEq, Repr

/-- Whether a cluster accepts teams (R362, R363, R500). -/
inductive Door where
  | opened
  | draining
  | closed
  | offline
  deriving DecidableEq, Repr

/-- A cluster (R11) with its bank pool, gives, rings, L1 mode and device registers. walks are the walks that its two walkers
hold (context, 64 KiB range), ptrs their pointer caches, copyTlb and tileTlb the translation caches of the copy engine and of the
tile fetch unit (R240), and pins the lines that the tile fetch unit pins: operation, VC, line (R380). -/
structure Cluster where
  banks : Map Bank
  gives : List Give
  rings : Map Ring
  fused : Bool
  door : Door
  bsret : Word
  clwd : Word
  ceclus : Word
  cecore : Map Word
  lastctx : Map Nat
  walks : List (Nat × Nat)
  ptrs : List TablePtr
  copyTlb : List Tlb
  tileTlb : List Tlb
  pins : List (Nat × Nat × Nat)
  deriving DecidableEq, Repr

/-- An L1 line (R228, R229): line number (physical address / 256), VC, whether held untracked as sealed, clock of its
first sector's fill, priority, last use, sectors by number with their bytes, and its 32-bit words (0-63) whose parity bit is
wrong (R232). -/
structure L1Line where
  vc : Nat
  line : Nat
  sealed : Bool
  filled : Nat
  prio : Nat
  used : Nat
  sectors : Map (Map Byte)
  bad : List Nat
  deriving DecidableEq, Repr

/-- A core (R11): L1, merge point, core TLB (R240), tiles; comm holds the
commutative contributions that its L1 combines (R56); issued says for a core-half the clock after the one on which it
last issued (R23). Key of a command core: 1792 + die. -/
structure Core where
  issued : Map Nat
  l1 : List L1Line
  merge : List Block
  tlb : List Tlb
  tiles : Map Tile
  comm : List Block
  deriving DecidableEq, Repr

/-! ## Slices and virtual caches -/

/-- What a resize leaves behind (R294): the shares, their kind and the associativity under which lines not yet handed over are
homed, the half banks that will be free, those of them that have never joined (R297), and the operation that waits. -/
structure VcOld where
  shares : List Nat
  half : Nat
  assoc : Nat
  leaving : List Nat
  uncleared : List Nat
  op : Nat
  deriving DecidableEq, Repr

/-- A virtual cache (R287 to R294): its definition, its shares (slice × 24 + bank × 2 + half, with kind), those not yet
joined with the clock at which their clearing ends (R297), lines that have still to hand over (R294), and the definitions
queued behind. -/
structure Vc where
  ctx : Nat
  lsize : Nat
  assoc : Nat
  wpol : Nat
  repl : Nat
  lclass : Nat
  half : Nat
  shares : List Nat
  clearing : List (Nat × Nat)
  old : Option VcOld
  moved : List Nat
  queued : List (List Byte × Nat)
  deriving DecidableEq, Repr

/-- A write-once buffer entry (R309): live with range and count, or free with its generation. -/
structure Wob where
  gen : Nat
  live : Bool
  ctx : Nat
  va : Nat
  len : Nat
  count : Nat
  deriving DecidableEq, Repr

/-- A page monitor (R245): the 64-byte sector watched, its VC, and who waits. -/
inductive Waiter where
  | op (id : Nat)
  | copy (id : Nat)
  deriving DecidableEq, Repr

structure Monitor where
  slice : Nat
  sector : Nat
  who : Waiter
  fired : Bool
  deriving DecidableEq, Repr

/-! ## Copies and fabric -/

/-- Where a copy stands (R323, R327). -/
inductive CopyPhase where
  | held
  | queued
  | active
  | waiting
  | remote
  | finished
  deriving DecidableEq, Repr

/-- A copy-engine operation (R317 to R326), with the number of the operation that handed it over: fn is its function
number, words its descriptor D0-D15, todo the ranges of bytes, counted from its first, that it has not moved yet, banks
the scratch ranges it has had accepted (which range × 16 + slot, bank), posted whether a record says that it waits
(R327), parts the SEQs of its packets that have no answer yet. -/
structure Copy where
  id : Nat
  team : Nat
  group : Nat
  ctx : Nat
  cluster : Nat
  fn : Nat
  iaddr : DWord
  words : List Word
  cpol : Nat
  batch : Option Nat
  phase : CopyPhase
  todo : List (Nat × Nat)
  posted : Bool
  banks : List (Nat × Nat)
  code : Nat
  sub : Nat
  raised : Bool
  level : Nat
  result : Nat
  since : Nat
  parts : List Nat
  deriving DecidableEq, Repr

/-- A connection of one owner to one peer (R336): next SEQ, packets sent and not acknowledged, and at the receiver's
side the last SEQ performed with the replies kept and whether a record says that the head waits (R337). -/
structure Connection where
  owner : Nat
  peer : Nat
  nextSeq : Nat
  unacked : List (Packet × Nat × Nat)
  performed : Nat
  replies : List (Nat × List Packet)
  waiting : List Packet
  posted : Bool
  deriving DecidableEq, Repr

/-- An export window (R338, R340). -/
structure Window where
  valid : Bool
  gen : Nat
  ctx : Nat
  base : DWord
  length : Nat
  fowner : Nat
  perm : Nat
  revoked : Option Nat
  accepted : List Nat
  deriving DecidableEq, Repr

/-- An owner's fabric identity (R334): fabric owner identifier, two key slots, current epoch. -/
structure OwnerKey where
  fowner : Nat
  key0 : List Byte
  key1 : List Byte
  epoch : Nat
  deriving DecidableEq, Repr

/-- The Ethernet port and fabric transport on the hub (R331 to R341). -/
structure Fabric where
  udpPort : Nat
  macsec : Bool
  dropped : Nat
  errors : Nat
  owners : Map OwnerKey
  conns : List Connection
  windows : Map Window
  outbox : List Packet
  mgmt : List Frame
  hostRx : List Frame
  deriving DecidableEq, Repr

/-! ## Contexts, queues, grids -/

/-- A context record (R345) with the context's fault-queue count (R490, R491). -/
structure Ctx where
  v : Bool
  busy : Bool
  err : Bool
  custom : Bool
  owner : Nat
  ptroot : Nat
  splbase : Nat
  splcount : Nat
  peertab : Nat
  peercount : Nat
  fqbase : Nat
  fqlog : Nat
  mdef : Word
  wdcfg : Word
  cmpretry : Word
  phvc : Nat
  fqseq : Nat
  fqlost : Nat
  deriving DecidableEq, Repr

/-- A started record of a queue (R350): its index, KIND, FLAGS, INC, STATUS address, and its outcome when known. -/
structure Started where
  index : Nat
  kind : Nat
  flags : Nat
  inc : Nat
  status : Nat
  wqueue : Nat
  target : Nat
  grid : Nat
  result : Option Nat
  deriving DecidableEq, Repr

/-- A queue (R347, R348): entry fields and the state of its region. -/
structure Queue where
  v : Bool
  dev : Bool
  stopped : Bool
  prio : Nat
  ctx : Nat
  diemask : Nat
  logsize : Nat
  base : Nat
  errcode : Word
  head : Word
  tail : Word
  counter : Nat
  started : List Started
  deriving DecidableEq, Repr

/-- A grid (R350, R352). -/
structure Grid where
  handle : Nat
  queue : Nat
  index : Nat
  total : Nat
  ended : Nat
  terminated : Nat
  deriving DecidableEq, Repr

/-! ## The optical port and the drawer -/

/-- Who a read at the port is for (R460, R465). -/
inductive Requester where
  | fill (key : Nat)
  | lane (op lane : Nat)
  | copy (id : Nat)
  deriving DecidableEq, Repr

/-- A read: class, 256-byte block, mask of its sectors (R462). Before it is sent, due is the first slot that can take it;
once sent, the absolute slot its reply is matched with, with the bytes that the drawer gave, poison, and the reply bytes still
to carry (R469); with none left, due is the slot in which its last byte left. -/
structure LinkRead where
  cls : Nat
  block : Nat
  mask : Nat
  who : Requester
  due : Nat
  bytes : Map Byte
  poison : List Nat
  left : Nat
  deriving DecidableEq, Repr

/-- A write: class, cells by physical address, the VC whose line it is (none for drawer-direct), whether it carries poison,
bytes still to send, the first slot that can take it, the slot of its last part once the drawer has performed it, the block or
operation that waits for its acknowledgement, and whether a slot of it has ever been sent (R312). -/
structure LinkWrite where
  cls : Nat
  cells : List Host.Cell
  vc : Option Nat
  poison : Bool
  left : Nat
  due : Nat
  done : Option Nat
  waiter : Option Nat
  begun : Bool
  deriving DecidableEq, Repr

/-- A zero-map command (R478), the operation that waits for it, the first slot that can take it, and the slot it was sent
in. -/
structure ZeroCmd where
  block : Nat
  op : Nat
  due : Nat
  sentAt : Option Nat
  deriving DecidableEq, Repr

/-- State of a wavelength pair (R470). -/
inductive Pair where
  | active
  | parkpend
  | parked
  | wakepend
  | waking (count : Nat) (abandoned : Bool)
  deriving DecidableEq, Repr

inductive LinkState where
  | live
  | retrain (since : Nat)
  | down (since : Nat)
  deriving DecidableEq, Repr

/-- A pair of slot tables (R461): entries that are zero (idle) are unlisted. -/
structure Tables where
  request : Map Nat
  reply : Map Nat
  deriving DecidableEq, Repr

/-- A link group (R453 to R486). frame is the superframe it is in; the request slots before reqSlot and the reply slots before
repSlot are over. -/
structure Link where
  st : LinkState
  pairs : List Pair
  active : Tables
  previous : Option Tables
  standby : Option Tables
  swpend : Bool
  reads : List LinkRead
  sent : List LinkRead
  writes : List LinkWrite
  unacked : List LinkWrite
  zeros : List ZeroCmd
  sfcount : Nat
  retrains : Nat
  thr : Nat
  armed : Bool
  res : Map Nat
  err : Bool
  frame : Nat
  reqSlot : Nat
  repSlot : Nat
  deriving DecidableEq, Repr

/-- The drawer (R452 to R455, R477): bytes by physical address, blocks whose mark in the zero map has been cleared,
poisoned sectors, corrected errors by stack, sectors with a correctable error. -/
structure Drawer where
  mem : List Host.Cell
  clear : List Nat
  poison : List Nat
  weak : List Nat
  cestack : Map Word
  deriving DecidableEq, Repr

/-! ## The module -/

/-- The management processor's state (R495 to R502). -/
structure Mgmt where
  booted : Nat
  recovery : Bool
  mismatch : Bool
  firmware : Option SignedImage
  marigold : Option SignedImage
  packages : List SignedImage
  minVersion : Nat
  leaf : Nat
  entry : DWord
  boot : Option BootInput
  reports : List (List Byte)
  refusing : Bool
  hot : List Nat
  shutdownAt : Option Nat
  powered : Bool
  results : List (Nat × Bool × Bool)
  ccount : Map Nat
  halted : List Nat
  deriving DecidableEq, Repr

/-- The injection port (R447). -/
structure Inject where
  handle : Word
  group : Nat
  ctx : Nat
  status : Nat
  pending : List (Nat × Nat × Nat × Word)
  armed : List (Nat × Nat × Word)
  deriving DecidableEq, Repr

/-- The word being issued: who issues it (MODEL). -/
structure Cur where
  team : Nat
  group : Nat
  gang : Nat
  units : List (Nat × Bool)
  lanes : Mask
  addr : DWord
  word : Word
  deriving DecidableEq, Repr

/-- Who moves next (MODEL): an engine or outside event with its subject, or the gang that the scheduler of a core-half picks
(R23). -/
inductive Actor where
  | event (i : Instr) (sub : Subject)
  | scheduler (core half : Nat)
  deriving DecidableEq, Repr

/-- A turn of the agenda (MODEL): time that passes first, in units of 1/25 clock = 1/9 slot (R6), and who then moves. -/
structure Turn where
  dt : Nat
  who : Actor
  deriving DecidableEq, Repr

/-- The whole module. now counts units of 1/25 clock = 1/9 slot since module reset (R6, R159 CLOCK). -/
structure State where
  now : Nat
  agenda : List Turn
  subject : Subject
  cur : Option Cur
  freeCtr : Nat
  opCtr : Nat
  teamCtr : Nat
  mgmt : Mgmt
  inject : Inject
  ctxs : Map Ctx
  queues : Map Queue
  qmem : List Host.Cell
  grids : Map Grid
  susplim : Nat
  teams : Map Team
  ops : Map Op
  clusters : Map Cluster
  cores : Map Core
  vcs : Map Vc
  homes : Map Sector
  shareCtx : Map Nat
  slret : Map Word
  sliceRet : Map Retention
  sliceUse : Map Nat
  ceslice : Map Word
  wobs : Map Wob
  monitors : List Monitor
  copies : Map Copy
  fabric : Fabric
  ccwd : Map Word
  links : Map Link
  drawer : Drawer
  images : List (List Byte × Nat × List Byte)
  deriving DecidableEq, Repr

/-- What an unlisted byte of drawer memory, of a bank and of queue memory reads as: zero (R477 every block is marked at
power-on, R34; queue memory is log entry 9). -/
def emptyByte : Byte := 0

/-- A link group right after module reset: not trained, tables all idle, RES 64 for class 0 (R461, R479, R495). -/
def Link.reset : Link :=
  { st := .down 0, pairs := List.replicate 7 .active, active := ⟨[], []⟩, previous := none,
    standby := none, swpend := false, reads := [], sent := [], writes := [], unacked := [], zeros := [], sfcount := 0,
    retrains := 0, thr := 0, armed := false, res := [(0, 64)], err := false, frame := 0, reqSlot := 0, repSlot := 0 }

/-- The state right after module reset (R495): nothing booted, no context defined, no team resident, every drawer block
marked; the boot sequence is the next thing that happens. -/
def State.reset : State :=
  { now := 0
    agenda := [⟨0, .event .moduleReset {}⟩]
    subject := {}
    cur := none
    freeCtr := 0
    opCtr := 0
    teamCtr := 0
    mgmt := { booted := 0, recovery := false, mismatch := false, firmware := none, marigold := none, packages := [],
              minVersion := 0, leaf := 0, entry := 0, boot := none, reports := [], refusing := false, hot := [],
              shutdownAt := none, powered := true, results := [], ccount := [], halted := [] }
    inject := { handle := 0, group := 0, ctx := 0, status := 0, pending := [], armed := [] }
    ctxs := []
    queues := []
    qmem := []
    grids := []
    susplim := 0x0400
    teams := []
    ops := []
    clusters := []
    cores := []
    vcs := []
    homes := []
    shareCtx := []
    slret := []
    sliceRet := []
    sliceUse := []
    ceslice := []
    wobs := []
    monitors := []
    copies := []
    fabric := { udpPort := 27706, macsec := false, dropped := 0, errors := 0, owners := [], conns := [], windows := [],
                outbox := [], mgmt := [], hostRx := [] }
    ccwd := []
    links := []
    drawer := { mem := [], clear := [], poison := [], weak := [], cestack := [] }
    images := [] }

end Sys2Proof.Machine
end

