-- ==== Sys2Proof/Machine/Maps.lean ====
section
/-! DEFINITION. Finite maps and byte memories in canonical form: keys strictly rising, and in a memory no entry equal to
what an unlisted address reads as. -/

namespace Sys2Proof.Machine

/-- The entry at a key. -/
def Map.find {α : Type} : Map α → Nat → Option α
  | [], _ => none
  | (k', v) :: r, k => if k = k' then some v else Map.find r k

/-- The entry at a key, or a value for an unlisted key. -/
def Map.getD {α : Type} (m : Map α) (k : Nat) (d : α) : α := (m.find k).getD d

/-- Sets the entry at a key. -/
def Map.put {α : Type} : Map α → Nat → α → Map α
  | [], k, v => [(k, v)]
  | (k', v') :: r, k, v =>
    if k = k' then (k, v) :: r else if k < k' then (k, v) :: (k', v') :: r else (k', v') :: Map.put r k v

/-- Removes what is listed at a key. -/
def Map.del {α : Type} (m : Map α) (k : Nat) : Map α := m.filter (fun e => e.1 != k)

/-- Sets the value at a key of a map whose unlisted keys hold d: d itself is never listed. -/
def Map.setD {α : Type} [DecidableEq α] (m : Map α) (k : Nat) (v d : α) : Map α :=
  if v = d then m.del k else m.put k v

/-- Keys strictly above a bound and strictly rising. -/
def Map.risingFrom {α : Type} : Nat → Map α → Bool
  | _, [] => true
  | b, (k, _) :: r => decide (b ≤ k) && Map.risingFrom (k + 1) r

/-- Keys strictly rising. -/
def Map.rising {α : Type} (m : Map α) : Bool := Map.risingFrom 0 m

/-- Applies a function to the entry at a key, if there is one. -/
def Map.adjust {α : Type} (m : Map α) (k : Nat) (f : α → α) : Map α :=
  match m.find k with
  | some v => m.put k (f v)
  | none => m

/-- A byte memory. -/
abbrev Memory := List Host.Cell

/-- The byte at an address. -/
def Memory.read (m : Memory) (a : Nat) : Byte := Map.getD m a emptyByte

/-- Writes a byte; writing what an unlisted address reads as removes the entry. -/
def Memory.write (m : Memory) (a : Nat) (b : Byte) : Memory := Map.setD m a b emptyByte

/-- The canonical form of a memory. -/
def Memory.wf (m : Memory) : Bool := Map.rising m && m.all (fun c => c.2 != emptyByte)

/-- Writes a list of cells in order. -/
def Memory.writeAll (m : Memory) : List Host.Cell → Memory
  | [] => m
  | (a, b) :: r => Memory.writeAll (Memory.write m a b) r

/-- n bytes from an address on. -/
def Memory.readN (m : Memory) : Nat → Nat → List Byte
  | 0, _ => []
  | n + 1, a => Memory.read m a :: Memory.readN m n (a + 1)

/-- Cells of bytes laid out from an address on. -/
def cellsAt : Nat → List Byte → List Host.Cell
  | _, [] => []
  | a, b :: bs => (a, b) :: cellsAt (a + 1) bs

/-- The byte that a list of cells leaves at an address: the last one named (R221). -/
def lastCell (cells : List Host.Cell) (a : Nat) : Option Byte :=
  cells.foldl (fun (r : Option Byte) c => if c.1 = a then some c.2 else r) none

/-- Replaces the element at an index of a list. -/
def setAt {α : Type} : List α → Nat → α → List α
  | [], _, _ => []
  | _ :: r, 0, v => v :: r
  | x :: r, n + 1, v => x :: setAt r n v

end Sys2Proof.Machine
end

