-- ==== Sys2Proof/Machine/Memory.lean ====
section
/-! DEFINITION. Named operations over the shared memory: virtual-cache geometry, the bytes a home slice and the drawer
hold, writes at a home slice with provisional marks, the optical port's queues, and the walk of the page tables. -/

namespace Sys2Proof.Machine

/-! ## Bit helpers -/

/-- Bits lo to lo+n-1 of a number. -/
def natBits (w lo n : Nat) : Nat := w / 2 ^ lo % 2 ^ n

/-- Bit i of a number. -/
def natBit (w i : Nat) : Bool := w / 2 ^ i % 2 == 1

/-- Little-endian value of bytes (R4). -/
def leVal : List Byte → Nat
  | [] => 0
  | b :: bs => b.toNat + 256 * leVal bs

/-- The n low bytes of a number, lowest first (R4). -/
def bytesLE : Nat → Nat → List Byte
  | 0, _ => []
  | n + 1, v => BitVec.ofNat 8 v :: bytesLE n (v / 256)

/-- Two's complement of an n-bit number as an integer. -/
def signed (n v : Nat) : Int := if v % 2 ^ n < 2 ^ (n - 1) then (v % 2 ^ n : Nat) else (v % 2 ^ n : Nat) - (2 ^ n : Nat)

/-- The next free value, and the state that has used it (log entry 2). -/
def State.free (s : State) : Nat × State := (Config.freeNat s.freeCtr, { s with freeCtr := s.freeCtr + 1 })

/-- Core clocks since module reset (R6, R159). -/
def State.clock (s : State) : Nat := s.now / 25

/-- Slots since module reset (R6). -/
def State.slot (s : State) : Nat := s.now / 9

/-- The first slot that begins at this time or later. -/
def State.nextSlot (s : State) : Nat := (s.now + 8) / 9

/-! ## Parts of the module with their values at reset -/

/-- A bank after module reset (R34: free, holding zeros). -/
def Bank.reset : Bank := { st := .free, mem := [], bad := [], weak := [], last := 0, ret := .active }

/-- A cluster after module reset (R267, R489, R493; L1 mode is log entry 6). -/
def Cluster.reset : Cluster :=
  { banks := [], gives := [], rings := [], fused := false, door := .opened, bsret := 0x00010040, clwd := 0x00000004,
    ceclus := 0, cecore := [], lastctx := [], walks := [], ptrs := [], copyTlb := [],
    tileTlb := [], pins := [] }

def Core.reset : Core := { issued := [], l1 := [], merge := [], tlb := [], tiles := [], comm := [] }

/-- A batch at team start (R324). -/
def Batch.free : Batch := { st := .free, code := 0, sub := 0, nerr := 0, ncopy := 0 }

def Sector.invalid : Sector :=
  { st := .invalid, bytes := [], poison := false, weak := false, prio := 1, used := 0, filled := 0 }

def Tile.reset : Tile :=
  { acc := [], row := [], col := [], tcfg := 0x00000088, iv := false, ovf := false, uf := false, ix := false }

/-- A context record after module reset: not defined (log entry 9). -/
def Ctx.reset : Ctx :=
  { v := false, busy := false, err := false, custom := false, owner := 0, ptroot := 0, splbase := 0, splcount := 0,
    peertab := 0, peercount := 0, fqbase := 0, fqlog := 6, mdef := 0, wdcfg := 0x0100, cmpretry := 2, phvc := 0,
    fqseq := 0, fqlost := 0 }

def State.cluster (s : State) (n : Nat) : Cluster := s.clusters.getD n Cluster.reset
def State.putCluster (s : State) (n : Nat) (c : Cluster) : State := { s with clusters := s.clusters.put n c }
def State.core (s : State) (n : Nat) : Core := s.cores.getD n Core.reset
def State.putCore (s : State) (n : Nat) (c : Core) : State := { s with cores := s.cores.put n c }
def State.ctx (s : State) (n : Nat) : Ctx := s.ctxs.getD n Ctx.reset
def State.putCtx (s : State) (n : Nat) (c : Ctx) : State := { s with ctxs := s.ctxs.put n c }
def State.link (s : State) (g : Nat) : Link := s.links.getD g Link.reset
def State.putLink (s : State) (g : Nat) (l : Link) : State := { s with links := s.links.put g l }
/-- The key of the core whose merge point and L1 portion 0 serve a core: a fused cluster has one merge point (R44, R233). -/
def State.mergeKey (s : State) (core : Nat) : Nat :=
  if core < 1792 ∧ (s.cluster (core / 8)).fused then core / 8 * 8 else core
/-- The merge point that serves a core. -/
def State.mergePoint (s : State) (core : Nat) : List Block := (s.core (s.mergeKey core)).merge
def Cluster.bank (c : Cluster) (b : Nat) : Bank := c.banks.getD b Bank.reset
def Core.tile (c : Core) (z : Nat) : Tile := c.tiles.getD z Tile.reset
def State.putTeam (s : State) (i : Nat) (t : Team) : State := { s with teams := s.teams.put i t }
def State.putOp (s : State) (o : Op) : State := { s with ops := s.ops.put o.id o }

def Team.group? (t : Team) (g : Nat) : Option Group := t.groups.find? (fun x => x.id == g)
def Team.putGroup (t : Team) (g : Group) : Team :=
  { t with groups := t.groups.map (fun x => if x.id = g.id then g else x) }

/-- Applies a function to one group of one team. -/
def State.onGroup (s : State) (t g : Nat) (f : Group → Group) : State :=
  match s.teams.find t with
  | some tm => s.putTeam t { tm with groups := tm.groups.map (fun x => if x.id = g then f x else x) }
  | none => s

/-- Applies a function to one team. -/
def State.onTeam (s : State) (t : Nat) (f : Team → Team) : State := { s with teams := s.teams.adjust t f }

/-- A function applied to every group of every team. -/
def State.allGroups (s : State) (f : Team → Group → Group) : State :=
  { s with teams := s.teams.map (fun e => (e.1, { e.2 with groups := e.2.groups.map (f e.2) })) }

/-- Sets bits of EVPEND in every group of context 0 on the command core of a die (R163, R472, R491). -/
def State.commandEvent (s : State) (die : Nat) (bit : Word) : State :=
  s.allGroups (fun t g => if t.command ∧ t.core = die then { g with evpend := g.evpend ||| bit } else g)

/-! ## Virtual-cache geometry (R287 to R290) -/

/-- The key of a physical sector's home under a VC. -/
def homeKey (vc pa : Nat) : Nat := vc * 2 ^ 34 + pa / 64 % 2 ^ 34

/-- Line size in bytes from the GEOM code. -/
def lineBytes (code : Nat) : Nat := if code = 0 then 128 else if code = 1 then 256 else 512

def Vc.hash (v : Vc) (pa : Nat) : Nat :=
  let l := pa / lineBytes v.lsize
  (l ^^^ (l / 2 ^ 13) ^^^ (l / 2 ^ 26)) % 2 ^ 32

/-- The geometry under which a line is homed: shares, their kind, associativity. A line that a resize has still to hand over is
homed as before the resize (R294). -/
def Vc.geometry (v : Vc) (pa : Nat) : List Nat × Nat × Nat :=
  match v.old with
  | some o => if v.moved.contains (pa / lineBytes v.lsize) then (o.shares, o.half, o.assoc) else (v.shares, v.half, v.assoc)
  | none => (v.shares, v.half, v.assoc)

/-- The share of a physical address (R290): slice × 24 + bank × 2 + upper half. -/
def Vc.share (v : Vc) (pa : Nat) : Nat := let g := v.geometry pa; g.1.getD (v.hash pa % max 1 g.1.length) 0

/-- The home slice of a physical address (R290). -/
def Vc.slice (v : Vc) (pa : Nat) : Nat := v.share pa / 24

/-- The set of a physical address within its share (R290). -/
def Vc.set (v : Vc) (pa : Nat) : Nat :=
  let g := v.geometry pa
  let b := if g.2.1 = 0 then 262144 else 131072
  v.hash pa / max 1 g.1.length % max 1 (b / (lineBytes v.lsize * (g.2.2 + 1)))

/-- The associativity − 1 of the set of a physical address. -/
def Vc.ways (v : Vc) (pa : Nat) : Nat := (v.geometry pa).2.2

/-- A share of a VC has not joined it yet (R297). -/
def Vc.clears (v : Vc) (sh : Nat) : Bool := v.clearing.any (fun c => c.1 == sh)

/-- Module-wide slice and bank of a share. -/
def shareBank (sh : Nat) : Nat := sh / 2

/-- The die whose link group an address uses under a VC (R460). -/
def State.homeDie (s : State) (vc pa : Nat) : Nat :=
  match s.vcs.find vc with
  | some v => v.slice pa / 16
  | none => 0

/-! ## The drawer (R452, R455, R477) -/

def Drawer.byte (d : Drawer) (pa : Nat) : Byte := if d.clear.contains (pa / 4096) then Memory.read d.mem pa else 0

/-- Clears the bytes of a 4 KiB block. -/
def dropBlock (m : List Host.Cell) (blk : Nat) : List Host.Cell := m.filter (fun c => c.1 / 4096 != blk)

/-- Inserts a number into a rising list. -/
def insertRising : List Nat → Nat → List Nat
  | [], k => [k]
  | x :: r, k => if k = x then x :: r else if k < x then k :: x :: r else x :: insertRising r k

/-- A write at the drawer: a marked block is first set to zero, and its mark cleared (R477). -/
def Drawer.write (d : Drawer) : List Host.Cell → Drawer
  | [] => d
  | (a, b) :: r =>
    let d := if d.clear.contains (a / 4096) then d
      else { d with mem := dropBlock d.mem (a / 4096), clear := insertRising d.clear (a / 4096) }
    Drawer.write { d with mem := Memory.write d.mem a b } r

/-- Marks a block in the zero map, with its poison marks cleared (R477, R312). -/
def Drawer.mark (d : Drawer) (blk : Nat) : Drawer :=
  { d with clear := d.clear.filter (· != blk), poison := d.poison.filter (fun k => k / 64 != blk),
           weak := d.weak.filter (fun k => k / 64 != blk) }

/-! ## What a home slice holds -/

/-- The newest byte of a write of the VC that the drawer has not performed yet (R291: taken from the write buffer). -/
def pendingByte (s : State) (vc pa : Nat) : Option Byte :=
  let ws := (s.links.flatMap (fun l => l.2.unacked ++ l.2.writes)).filter
    (fun w => w.vc == some vc && w.done == none)
  ws.foldl (fun acc w => match lastCell w.cells pa with | some b => some b | none => acc) none

/-- The byte below the home slice: written but not yet in the drawer, or the drawer's. -/
def belowByte (s : State) (vc pa : Nat) : Byte := (pendingByte s vc pa).getD (s.drawer.byte pa)

/-- The byte of a physical address as its home under a VC holds it. -/
def homeByte (s : State) (vc pa : Nat) : Byte :=
  match s.homes.find (homeKey vc pa) with
  | some sec =>
    match sec.st with
    | .invalid => belowByte s vc pa
    | .pending m => if m.getLsbD (pa % 64) then sec.bytes.getD (pa % 64) 0 else belowByte s vc pa
    | _ => sec.bytes.getD (pa % 64) 0
  | none => belowByte s vc pa

/-- n bytes from a physical address on, at their homes. -/
def homeBytes (s : State) (vc : Nat) : Nat → Nat → List Byte
  | 0, _ => []
  | n + 1, pa => homeByte s vc pa :: homeBytes s vc n (pa + 1)

/-- A 64-bit little-endian value at its home. -/
def homeNat (s : State) (vc n pa : Nat) : Nat := leVal (homeBytes s vc n pa)

/-- Whether a byte's sector is poisoned where it would be read (R285, R454). -/
def homePoison (s : State) (vc pa : Nat) : Bool :=
  match s.homes.find (homeKey vc pa) with
  | some sec =>
    match sec.st with
    | .invalid => s.drawer.poison.contains (pa / 64)
    | .pending _ => s.drawer.poison.contains (pa / 64)
    | _ => sec.poison
  | none => s.drawer.poison.contains (pa / 64)

/-- A read at a home corrects a single-bit error of the sector, and the slice counts it (R285). -/
def State.correct (s : State) (vc pa : Nat) : State :=
  match s.homes.find (homeKey vc pa), s.vcs.find vc with
  | some x, some v =>
    if !x.weak then s else
    let m := v.slice pa
    { s with homes := s.homes.put (homeKey vc pa) { x with weak := false },
             ceslice := s.ceslice.setD m (BitVec.ofNat 32 (min 0xFFFF ((s.ceslice.getD m 0).toNat + 1))) 0 }
  | _, _ => s

/-- The sector is present: a load can bind at once (R282). -/
def present (s : State) (vc pa : Nat) : Bool :=
  match s.homes.find (homeKey vc pa) with
  | some sec => match sec.st with | .invalid => false | .pending _ => false | _ => true
  | none => false

/-! ## Optical port queues (R462, R466, R472) -/

/-- Reads queued and not sent yet (R472); those that a retrain has sent back are not among them (R474). -/
def Link.waiting (l : Link) : Nat := (l.reads.filter (fun r => r.left == 0)).length

/-- Reads that leave the queue below the threshold arm the event again (R472). -/
def Link.rearm (l : Link) : Link := { l with armed := l.armed || decide (l.waiting < l.thr) }

/-- Adds a read to the queue of its class; a read of the same block for the same fill joins one that still waits. The
threshold of R472 is judged on the rise. -/
def queueRead (s : State) (g : Nat) (r : LinkRead) : State :=
  let l := s.link g
  let same (x : LinkRead) : Bool := x.who == r.who && x.cls == r.cls && x.block == r.block && x.left == 0
  if l.reads.any same then
    s.putLink g { l with reads := l.reads.map (fun (x : LinkRead) => if same x then { x with mask := x.mask ||| r.mask } else x) }
  else
    let l' := { l with reads := l.reads ++ [{ r with due := s.nextSlot }] }
    if l.armed ∧ l.thr ≠ 0 ∧ l'.waiting = l.thr then
      (s.putLink g { l' with armed := false }).commandEvent g 0x100
    else s.putLink g l'

/-- A read not sent yet. -/
def LinkRead.new (cls block mask : Nat) (who : Requester) : LinkRead :=
  { cls := cls, block := block, mask := mask, who := who, due := 0, bytes := [], poison := [], left := 0 }

/-- Adds a write to the queue of its class. -/
def queueWrite (s : State) (g cls : Nat) (cells : List Host.Cell) (vc : Option Nat) (poison : Bool)
    (waiter : Option Nat) : State :=
  let l := s.link g
  s.putLink g { l with writes := l.writes ++ [{ cls := cls, cells := cells, vc := vc, poison := poison,
                                                left := cells.length, due := s.nextSlot, done := none, waiter := waiter,
                                                begun := false }] }

/-- Queues a VC's write of cells to the drawer in its link class (R291). -/
def queueVcWrite (s : State) (vc : Nat) (cells : List Host.Cell) (poison : Bool) : State :=
  match cells, s.vcs.find vc with
  | (a, _) :: _, some v => queueWrite s (s.homeDie vc a) v.lclass cells (some vc) poison none
  | _, _ => s

/-! ## Placement of lines in a VC (R283) -/

/-- Line number of a home key under a VC. -/
def keyLine (v : Vc) (key : Nat) : Nat := key % 2 ^ 34 * 64 / lineBytes v.lsize

/-- Keys of the sectors of a VC that lie in the same set of the same share as an address, under the same geometry. -/
def setKeys (s : State) (vc : Nat) (v : Vc) (pa : Nat) : List Nat :=
  (s.homes.filter (fun e => e.1 / 2 ^ 34 == vc && e.2.st != .invalid &&
    v.geometry (e.1 % 2 ^ 34 * 64) == v.geometry pa &&
    v.share (e.1 % 2 ^ 34 * 64) == v.share pa && v.set (e.1 % 2 ^ 34 * 64) == v.set pa)).map (·.1)

/-- Distinct lines of a list of keys. -/
def linesOf (v : Vc) (ks : List Nat) : List Nat := (ks.map (keyLine v)).eraseDups

/-- A sector pins its line while it is pending or provisional, or a tile fetch unit holds it (R283, R380). -/
def sectorPinned (s : State) (k : Nat) : Bool :=
  s.clusters.any (fun c => c.2.pins.any (fun p => p.2.1 == k / 2 ^ 34 && p.2.2 == k % 2 ^ 34 / 4)) ||
    match s.homes.find k with
    | some x => (match x.st with | .pending _ => true | .prov _ _ => true | _ => false)
    | none => false

/-- A line is pinned while a sector of it is (R283). -/
def linePinned (s : State) (v : Vc) (ks : List Nat) (line : Nat) : Bool :=
  ks.any (fun k => keyLine v k == line && sectorPinned s k)

/-- The cells of a sector. -/
def sectorCells (key : Nat) (x : Sector) : List Host.Cell :=
  (List.range 64).map (fun i => (key % 2 ^ 34 * 64 + i, x.bytes.getD i 0))

/-- Drops a line: dirty sectors are queued for write-back, every sector becomes invalid (R282). -/
def evictLine (s : State) (vc : Nat) (v : Vc) (ks : List Nat) (line : Nat) : State :=
  (ks.filter (fun k => keyLine v k == line)).foldl (fun s k =>
    match s.homes.find k with
    | some x =>
      let s := if x.st = .dirty then queueVcWrite s vc (sectorCells k x) x.poison else s
      { s with homes := s.homes.del k }
    | none => s) s

/-- A line's rank for replacement: lowest priority first, then the replacement default (R283). -/
def lineRank (s : State) (v : Vc) (ks : List Nat) (line : Nat) : Nat × Nat :=
  let xs := (ks.filter (fun k => keyLine v k == line)).filterMap s.homes.find
  let newest := xs.foldl (fun a x => if a.used ≤ x.used then x else a) Sector.invalid
  let first := xs.foldl (fun a x => min a x.filled) (xs.foldl (fun a x => max a x.filled) 0)
  (newest.prio, if v.repl = 0 then newest.used else if v.repl = 1 then first else 0)

/-- Makes room for a line of an address: none when every way is pinned or its share is still clearing (R283, R297), so
that the access is served without allocation. Pseudo-random replacement takes a free value. -/
def makeRoom (s : State) (vc pa : Nat) : Option State :=
  match s.vcs.find vc with
  | none => none
  | some v =>
    if v.clears (v.share pa) then none else
    let ks := setKeys s vc v pa
    let ls := linesOf v ks
    if ls.contains (pa / lineBytes v.lsize) ∨ ls.length ≤ v.ways pa then some s else
    let cand := ls.filter (fun l => !linePinned s v ks l)
    let low := cand.foldl (fun a l => min a (lineRank s v ks l).1) 3
    let cand := cand.filter (fun l => (lineRank s v ks l).1 == low)
    if cand.isEmpty then none else
    if v.repl = 2 then
      let (n, s) := s.free
      some (evictLine s vc v ks (cand.getD (n % cand.length) 0))
    else
      let best := cand.foldl (fun a l => min a (lineRank s v ks l).2) (lineRank s v ks (cand.getD 0 0)).2
      some (evictLine s vc v ks ((cand.find? (fun l => (lineRank s v ks l).2 == best)).getD 0))

/-- Queues the fill of a sector in its VC's link class and marks it fill-pending (R282, R460). -/
def startFill (s : State) (vc pa : Nat) (prio : Nat) : State :=
  match s.vcs.find vc with
  | none => s
  | some v =>
    match makeRoom s vc pa with
    | none => s
    | some s =>
      let x := { Sector.invalid with st := .pending 0, prio := prio, used := s.clock, filled := s.clock }
      let s := { s with homes := s.homes.put (homeKey vc pa) x }
      queueRead s (s.homeDie vc pa) (LinkRead.new v.lclass (pa / 256) (2 ^ (pa / 64 % 4))
        (.fill (vc * 2 ^ 34 + pa / 256 * 4)))

/-- The priority a cache policy sets (R230, R283). -/
def policyPrio (cpol : Nat) : Nat := if cpol = 1 then 0 else if cpol = 2 then 2 else 1

/-- An access sets the priority and the last use of a present sector (R283). -/
def touchHome (s : State) (vc pa cpol : Nat) : State :=
  { s with homes := s.homes.adjust (homeKey vc pa) (fun x => { x with prio := policyPrio cpol, used := s.clock }) }

/-! ## Recovery marks at homes (R70, R412, R416, R71) -/

/-- Two teams are members of one running conversation (R70). -/
def sameConversation (s : State) (a b : Nat) : Bool :=
  match s.teams.find a, s.teams.find b with
  | some x, some y => x.levels.any (fun l => l.joined && l.conv != none &&
      y.levels.any (fun m => m.joined && m.conv == l.conv))
  | _, _ => false

/-- A team's access to a sector waits: another team, in no conversation with it, wrote it inside a level (R70). -/
def provBlocked (s : State) (team : Nat) (key : Nat) : Bool :=
  match s.homes.find key with
  | some x => match x.st with
    | .prov t _ => t != team && !sameConversation s t team
    | _ => false
  | none => false

/-- A level fails: the lowest level that has failed counts (R406, R407). A failure of a level at or above one whose
rollback is under way is absorbed. -/
def failLevel (s : State) (team : Nat) (f : Failing) : State :=
  s.onTeam team (fun t => match t.fail with
    | some g => if f.level < g.level then { t with fail := some f } else t
    | none => { t with fail := some f, failSince := t.resident + (if t.phase = .resident ∧ ¬ t.suspended then s.clock - t.placedAt else 0) })

/-- Bytes of the team's recovery-cache region that an entry takes (R412, R419). -/
def undoSize : Undo → Nat
  | .vreg .. => 32
  | .sreg .. => 16
  | .word .. => 16
  | .sector .. => 80
  | .tile .. => 36 * 1024 + 64

/-- Bytes of the region in use (R410, R412, R419). -/
def Team.regionUsed (t : Team) : Nat :=
  t.levels.foldl (fun n l => n + l.snaps.length * 1024 + 256 +
    l.entries.foldl (fun k u => k + undoSize u) 0 + l.log.foldl (fun k u => k + u.size) 0) 0 +
  (match t.forming with | some l => l.snaps.length * 1024 | none => 0)

/-- Bytes of the region a team may use: half of it for each copy of a core-pair team (R414, R432). -/
def Team.regionSize (t : Team) : Nat :=
  if t.copy = .only then 4096 * t.desc.rcsize else 2048 * t.desc.rcsize

/-- Adds an entry to the innermost level, or none when it does not fit (R414). -/
def Team.save (t : Team) (u : Undo) : Option Team :=
  if t.regionUsed + undoSize u ≤ t.regionSize then
    match t.levels.getLast? with
    | some l => some { t with levels := t.levels.dropLast ++ [{ l with entries := l.entries ++ [u] }] }
    | none => some t
  else none

/-- The innermost level has already saved an item that a predicate picks (R412). -/
def Team.hasSaved (t : Team) (p : Undo → Bool) : Bool :=
  match t.levels.getLast? with
  | some l => l.entries.any p
  | none => true

/-- Outcome of a write at a home slice. -/
inductive HomeResult where
  | done (s : State)
  | wait
  | overflow

/-- The state that a sector goes back to when its save is restored: one that waits for a fill has by then been completed. -/
def SectorState.settled (st : SectorState) (back : Bool) : SectorState :=
  match st with
  | .pending m => if m ≠ 0 && back then .dirty else .clean
  | st => st

/-- Saves a sector for the team's innermost level and makes it provisional (R412, R416); overflow when the region is full
or the set's provisional ways would be all of its ways (R284, R414). A sector that is not there takes its poison from the
drawer, and waits while its line finds no way. -/
def saveSector (s : State) (team vc pa : Nat) : HomeResult :=
  match s.teams.find team, s.vcs.find vc with
  | some t, some v =>
    if t.levels.isEmpty then .done s else
    let key := homeKey vc pa
    let old := s.homes.getD key Sector.invalid
    let lvl := t.levels.length
    let ks := setKeys s vc v pa
    let provs := (linesOf v (ks.filter (fun k => match s.homes.find k with
      | some x => (match x.st with | .prov _ _ => true | _ => false) | none => false)))
    let line := pa / lineBytes v.lsize
    if !provs.contains line && provs.length + 1 > v.ways pa then .overflow else
    match makeRoom s vc pa with
    | none => .wait
    | some s =>
    if t.hasSaved (fun u => match u with | .sector k _ _ => k == key | _ => false) then
      .done { s with homes := s.homes.put key { old with st := .prov team lvl } }
    else
      let full := (List.range 64).foldl (fun m i => Map.setD m i (homeByte s vc (pa / 64 * 64 + i)) 0) []
      let kept := { old with bytes := full, poison := homePoison s vc pa, st := old.st.settled (v.wpol == 0) }
      match t.save (.sector key kept 0) with
      | some t => .done ({ s with homes := s.homes.put key { kept with st := .prov team lvl } }.putTeam team t)
      | none => .overflow
  | _, _ => .done s

/-- Writes one byte at its home under the VC's write policy (R282, R291). A provisional sector stays provisional. -/
def homePut (s : State) (vc pa : Nat) (b : Byte) (cpol : Nat) : State :=
  match s.vcs.find vc with
  | none => s
  | some v =>
    let key := homeKey vc pa
    let old := s.homes.getD key Sector.invalid
    let upd (x : Sector) (st : SectorState) : State :=
      { s with homes := s.homes.put key { x with st := st, bytes := Map.setD x.bytes (pa % 64) b 0,
                                                  prio := policyPrio cpol, used := s.clock } }
    match old.st with
    | .prov t l => upd old (.prov t l)
    | .pending m =>
      let m' := m ||| BitVec.twoPow 64 (pa % 64)
      if m' = BitVec.allOnes 64 then upd old (if v.wpol = 0 then .dirty else .clean)
      else upd old (.pending m')
    | .invalid =>
      if v.wpol = 2 ∨ cpol = 3 then s else
      match makeRoom s vc pa with
      | none => s
      | some s' => { s' with homes := s'.homes.put key { Sector.invalid with
          st := .pending (BitVec.twoPow 64 (pa % 64)), bytes := Map.setD [] (pa % 64) b 0,
          prio := policyPrio cpol, used := s.clock, filled := s.clock } }
    | st => upd old (if v.wpol = 0 ∨ st = .dirty then .dirty else .clean)

/-- Sectors left fill-pending by a write ask for their fill (R236). -/
def fillPending (s : State) (vc : Nat) (pas : List Nat) : State :=
  (pas.map (fun a => a / 64)).eraseDups.foldl (fun s sec =>
    match s.homes.find (homeKey vc (sec * 64)), s.vcs.find vc with
    | some x, some v => match x.st with
      | .pending _ => queueRead s (s.homeDie vc (sec * 64)) (LinkRead.new v.lclass (sec / 4) (2 ^ (sec % 4))
          (.fill (vc * 2 ^ 34 + sec / 4 * 4)))
      | _ => s
    | _, _ => s) s

/-- A byte that found no place at its home goes to the drawer with the VC's writes (R283: served without allocation). -/
def unplaced (s : State) (vc : Nat) (c : Host.Cell) : Bool :=
  match s.homes.find (homeKey vc c.1) with
  | some x => x.st == .invalid
  | none => true

/-- A write at a home takes reservations of that line (R303) and fires page monitors of its sector (R245). -/
def wroteHome (s : State) (vc pa : Nat) : State :=
  let s := { s with monitors := s.monitors.map (fun (m : Monitor) => if m.sector = pa / 64 then { m with fired := true } else m) }
  match s.vcs.find vc with
  | some v => s.allGroups (fun (_ : Team) (g : Group) => { g with resv := g.resv.map (fun (r : Resv) =>
      if r.vc = vc ∧ r.line = pa / lineBytes v.lsize then { r with lost := true } else r) })
  | none => s

/-- A write of a whole sector that is there leaves no error in it (R285). -/
def mendWhole (s : State) (vc : Nat) (cells : List Host.Cell) : State :=
  ((cells.map (fun c => c.1 / 64)).eraseDups.filter (fun k =>
    (List.range 64).all (fun i => cells.any (fun c => c.1 == 64 * k + i)))).foldl (fun (s : State) k =>
      { s with homes := s.homes.adjust (homeKey vc (64 * k)) (fun (x : Sector) => { x with poison := false, weak := false }) }) s

/-- Cells put at their homes, with the part of them that goes to the drawer and the fills that they ask for (R236, R282,
R291). -/
def putCells (s : State) (vc : Nat) (cells : List Host.Cell) (cpol : Nat) : State :=
  let s := mendWhole (cells.foldl (fun s c => homePut s vc c.1 c.2 cpol) s) vc cells
  let through := match s.vcs.find vc with | some v => v.wpol != 0 | none => false
  let out := cells.filter (fun c => through || unplaced s vc c)
  let s := if out.isEmpty then s else queueVcWrite s vc out false
  fillPending s vc (cells.map (·.1))

/-- The byte of a sector by its home key. -/
def keyByte (s : State) (key i : Nat) : Byte := homeByte s (key / 2 ^ 34) (key % 2 ^ 34 * 64 + i)

/-- The recovery engine writes bytes of a conversation record at its home (R420). -/
def convWrite (s : State) (key off : Nat) (bs : List Byte) : State :=
  let vc := key / 2 ^ 34
  let pa := key % 2 ^ 34 * 64
  wroteHome (putCells s vc (cellsAt (pa + off) bs) 0) vc pa

/-- A conversation closes (R422): STATE 2, VMASK and FMASK 0, GEN advanced. -/
def convClose (s : State) (key : Nat) : State :=
  let gen := leVal ((List.range 4).map (fun i => keyByte s key (12 + i)))
  convWrite (convWrite (convWrite s key 2 [2]) key 4 [0, 0]) key 12 (bytesLE 4 (gen + 1))

/-- A level leaves its conversation. -/
def Level.leave (l : Level) : Level :=
  { l with conv := none, joined := false, formed := false, posted := false, reported := none }

/-- A team and, in core-pair mode, its other copy. -/
def State.pairOf (s : State) (t : Nat) : List Nat :=
  match s.teams.find t with
  | some x => t :: x.twin.toList
  | none => []

/-- CONVABORT (R423): the conversation at a record's sector ends, and the joined level of every member fails with kind 2. -/
def convAbort (s : State) (key : Nat) : State :=
  let mine := s.teams.filter (fun e => e.2.levels.any (fun l => l.conv == some key))
  if mine.isEmpty then s else
  mine.foldl (fun s e =>
    let i := e.2.levels.findIdx (fun l => l.conv == some key)
    (s.pairOf e.1).foldl (fun s k =>
      failLevel (s.onTeam k (fun t => { t with levels := t.levels.zipIdx.map (fun (l : Level × Nat) =>
        if l.2 = i then l.1.leave else l.1) })) k ⟨i + 1, 2, 0x1F, 0xFFF, false⟩) s) (convClose s key)

/-- A write at a home is seen by reservations and page monitors and, unless the recovery engine made it, ends a
conversation whose record it reaches (R423). -/
def onHomeWrite (s : State) (vc pa : Nat) (engine : Bool) : State :=
  let s := wroteHome s vc pa
  if engine then s else convAbort s (homeKey vc pa)

/-- Where the recovery-cache region of a team begins: a trailing copy uses the second half (R352, R414, R432). -/
def Team.regionBase (t : Team) : Nat :=
  t.desc.rcbase + 4096 * t.desc.rcsize * t.number + (if t.copy = .trailing then 2048 * t.desc.rcsize else 0)

/-- A write of a context reaches the recovery-cache regions of its teams that have a level open (R414). -/
def hitRegions (s : State) (ctx va n : Nat) : State :=
  { s with teams := s.teams.map (fun (e : Nat × Team) => if e.2.ctx = ctx ∧ e.2.levels ≠ [] ∧ va < e.2.regionBase + e.2.regionUsed ∧
      e.2.regionBase < va + n then (e.1, { e.2 with regionHit := true }) else e) }

/-- A write of cells at their homes by a team (0: none) inside level `lvl` of it, or by an engine. -/
def homeWrite (s : State) (team lvl : Nat) (vc : Nat) (cells : List Host.Cell) (cpol : Nat) (engine : Bool := false) :
    HomeResult :=
  if cells.any (fun c => provBlocked s team (homeKey vc c.1)) then .wait else
  let marked := if lvl = 0 then HomeResult.done s else
    (cells.map (fun c => c.1 / 64)).eraseDups.foldl (fun r sec => match r with
      | .done s => saveSector s team vc (sec * 64)
      | r => r) (.done s)
  match marked with
  | .done s =>
    let s := putCells s vc cells cpol
    let s := (cells.map (fun c => c.1 / 64)).eraseDups.foldl (fun s sec => onHomeWrite s vc (sec * 64) engine) s
    .done s
  | r => r

/-- An engine's write that no provisional sector holds back. -/
def engineWrite (s : State) (vc : Nat) (pa : Nat) (bs : List Byte) : State :=
  match homeWrite s 0 0 vc (cellsAt pa bs) 0 true with
  | .done s => s
  | _ => s

/-! ## Retention of slice banks (R286) -/

/-- The bank of the share of an address: slice × 12 + bank. -/
def bankOf (s : State) (vc pa : Nat) : Nat := match s.vcs.find vc with | some v => shareBank (v.share pa) | none => 0

/-- Whether a slice bank serves an access at once; an access that meets retention makes the bank leave it and waits. -/
def State.wakeSliceBank (s : State) (b : Nat) : Bool × State :=
  let set (r : Retention) : State := { s with sliceRet := s.sliceRet.setD b r .active }
  match s.sliceRet.getD b .active with
  | .active => (true, { s with sliceUse := s.sliceUse.setD b s.clock 0 })
  | .leaving _ => (false, s)
  | .entering since => (false, set (.leaving (since + 32768)))
  | .retained => (false, set (.leaving (s.clock + 16384)))

/-- Whether the home bank of an address serves an access at once. -/
def State.wakeSlice (s : State) (vc pa : Nat) : Bool × State := s.wakeSliceBank (bankOf s vc pa)

/-- Whether the home banks of several addresses of a VC serve accesses at once. -/
def State.wakeAll (s : State) (vc : Nat) (pas : List Nat) : Bool × State :=
  pas.foldl (fun x pa => let y := x.2.wakeSlice vc pa; (x.1 && y.1, y.2)) (true, s)

/-! ## Scratchpad banks (R267, R268) -/

/-- Changes a bank. -/
def State.onBank (s : State) (pool b : Nat) (f : Bank → Bank) : State :=
  let c := s.cluster pool
  s.putCluster pool { c with banks := c.banks.setD b (f (c.bank b)) Bank.reset }

/-- A read of n bytes of a bank corrects the single-bit errors of its words, and the cluster counts them (R268). -/
def State.correctBank (s : State) (pool b o n : Nat) : State :=
  let c := s.cluster pool
  let x := c.bank b
  let hit (w : Nat) : Bool := decide (o / 8 ≤ w) && decide (w ≤ (o + n - 1) / 8)
  let k := (x.weak.filter hit).length
  if k = 0 then s else
  s.putCluster pool { c with banks := c.banks.put b { x with weak := x.weak.filter (fun w => !hit w) },
                             ceclus := BitVec.ofNat 32 (min 0xFFFF (c.ceclus.toNat + k)) }

/-- Whether a bank serves an access at once; an access that meets retention makes the bank leave it and waits (R267). -/
def State.wakeBank (s : State) (pool b : Nat) : Bool × State :=
  match ((s.cluster pool).bank b).ret with
  | .active => (true, s.onBank pool b (fun x => { x with last := s.clock }))
  | .leaving _ => (false, s)
  | .entering since => (false, s.onBank pool b (fun x => { x with ret := .leaving (since + 4096) }))
  | .retained => (false, s.onBank pool b (fun x => { x with ret := .leaving (s.clock + 2048) }))

/-! ## Translation (R237 to R244) -/

/-- What an access needs of the leaf (R238, R239). -/
inductive Need where
  | load
  | store
  | exec
  | both
  | any
  deriving DecidableEq, Repr

/-- A translation: physical address, page size, the leaf's fields. -/
structure Leaf where
  pa : Nat
  size : Nat
  base : Nat
  vc : Nat
  lclass : Nat
  sealed : Bool
  perm : Nat
  at? : Nat
  level : Nat
  pte : Nat
  deriving DecidableEq, Repr

/-- Outcome of a walk (R239): PAGE names the physical address of the invalid entry. -/
inductive Walk where
  | ok (l : Leaf)
  | page (entry : Nat)
  | fault (code datum : Nat)
  deriving DecidableEq, Repr

/-- Bits 63:56 copy bit 55 (R30). -/
def canonical (va : DWord) : Bool := let h := va.toNat / 2 ^ 55; h == 0 || h == 2 ^ 9 - 1

/-- The five levels (R237): level, lowest index bit, index bits, alignment of the next table, page size of a leaf. -/
def levels : List (Nat × Nat × Nat × Nat × Nat) :=
  [(0, 48, 8, 4096, 0), (1, 39, 9, 4096, 0), (2, 30, 9, 4096, 2 ^ 30), (3, 21, 9, 256, 2 ^ 21), (4, 16, 5, 0, 2 ^ 16)]

/-- The physical address field of an entry (R238). -/
def pteAddr (e : Nat) : Nat := natBits e 8 40 * 256

/-- The leaf of an entry for an address (R238). -/
def leafOf (e va size entry level : Nat) : Leaf :=
  { pa := pteAddr e / size * size + va % size, size := size, base := va / size * size, vc := natBits e 56 8,
    lclass := natBits e 50 6, sealed := natBit e 7, perm := natBits e 4 3, at? := entry, level := level, pte := e }

/-- The checks of a leaf (R239): a context that is valid (R345), alignment, hole, VC, permission, seal. -/
def leafCheck (s : State) (ctx : Nat) (need : Need) (l : Leaf) : Walk :=
  if !(s.ctx ctx).v || (s.ctx ctx).busy then .fault 0x11 0 else
  if pteAddr l.pte % l.size ≠ 0 then .fault 0x11 0 else
  if 768 * 2 ^ 30 ≤ l.pa ∧ l.pa < 2 ^ 40 then .fault 0x11 0 else
  match s.vcs.find l.vc with
  | none => .fault 0x11 0
  | some v =>
    if ctx ≠ 0 ∧ v.ctx ≠ ctx then .fault 0x11 0 else
    let r := natBit l.perm 0
    let w := natBit l.perm 1
    let x := natBit l.perm 2
    match need with
    | .load => if r then .ok l else .fault 0x11 0
    | .exec => if x then .ok l else .fault 0x11 0
    | .store => if !w then .fault 0x11 0 else if l.sealed then .fault 0x12 0 else .ok l
    | .both => if r && w then .ok l else .fault 0x11 0
    | .any => .ok l

/-- Reads one entry at its home under the context's PHVC (R239, R28). -/
def pteRead (s : State) (phvc pa : Nat) : Nat := homeNat s phvc 8 pa

/-- The walk over the remaining levels from a table's physical address. -/
def walkFrom (s : State) (ctx phvc va : Nat) (need : Need) : List (Nat × Nat × Nat × Nat × Nat) → Nat → Walk
  | [], _ => .fault 0x11 0
  | (lv, lo, n, al, size) :: rest, table =>
    let entry := table + 8 * natBits va lo n
    let e := pteRead s phvc entry
    if !natBit e 0 then .page entry else
    if natBits e 2 2 ≠ 0 ∨ natBits e 48 2 ≠ 0 then .fault 0x11 0 else
    if natBit e 1 then
      if size = 0 then .fault 0x11 0 else leafCheck s ctx need (leafOf e va size entry lv)
    else
      if al = 0 then .fault 0x11 0 else
      if natBits e 50 14 ≠ 0 ∨ natBit e 7 ∨ pteAddr e % al ≠ 0 then .fault 0x11 0 else
      walkFrom s ctx phvc va need rest (pteAddr e)

/-- A walk of a context's tables (R237, R239, R345). -/
def walk (s : State) (ctx : Nat) (va : DWord) (need : Need) : Walk :=
  let c := s.ctx ctx
  if !c.v || c.busy then .fault 0x11 0 else
  if !canonical va then .fault 0x11 0 else
  if (s.vcs.find c.phvc).isNone then .fault 0x11 0x50 else
  walkFrom s ctx c.phvc va.toNat need levels c.ptroot

/-! ## Cached translations (R226, R240, R241) -/

/-- A cached translation covers an address of a context. -/
def Tlb.covers (e : Tlb) (ctx va : Nat) : Bool := e.ctx == ctx && decide (e.base ≤ va) && decide (va < e.base + e.size)

/-- The leaf that a cached translation gives for an address. -/
def Tlb.leafAt (e : Tlb) (va : DWord) : Leaf :=
  leafOf e.leaf va.toNat e.size 0 (if e.size = 2 ^ 16 then 4 else if e.size = 2 ^ 21 then 3 else 2)

/-- A translation as a cache keeps it. -/
def Leaf.asTlb (l : Leaf) (ctx : Nat) : Tlb := ⟨ctx, l.base, l.size, l.pte⟩

/-- The set of the core TLB that an entry falls in: one of 128, by the low bits of its page number (log entry 14). -/
def Tlb.set (e : Tlb) : Nat := e.base / max 1 e.size % 128

/-- Keeps a translation in a core TLB of 8 ways: of a full set the entry that was kept longest ago goes (log entry 14). -/
def keepTlb (ts : List Tlb) (e : Tlb) : List Tlb :=
  let rest := ts.filter (fun x => x.ctx != e.ctx || x.base != e.base || x.size != e.size)
  let peers := rest.filter (fun x => x.set == e.set)
  e :: (if peers.length < 8 then rest else rest.filter (fun x => peers.getLast? != some x))

/-- The cluster whose walkers serve a core; those of a command core are kept as cluster 224 + die (R13, R240). -/
def walkerOf (core : Nat) : Nat := if core < 1792 then core / 8 else 224 + (core - 1792)

/-- A walk reaches a valid entry with LEAF at a level that allows one (R250). -/
def leafReached (s : State) (phvc va : Nat) : List (Nat × Nat × Nat × Nat × Nat) → Nat → Bool
  | [], _ => false
  | (_, lo, n, al, size) :: rest, table =>
    let e := pteRead s phvc (table + 8 * natBits va lo n)
    if !natBit e 0 then false
    else if natBit e 1 then size != 0
    else if natBits e 2 2 ≠ 0 ∨ natBits e 48 2 ≠ 0 ∨ al = 0 ∨ natBits e 50 14 ≠ 0 ∨ natBit e 7 ∨ pteAddr e % max 1 al ≠ 0 then false
    else leafReached s phvc va rest (pteAddr e)

/-- The tables below a table that a walk passes through, for the pointer caches; an entry with V = 0 is never cached. -/
def pathPtrs (s : State) (ctx phvc va : Nat) : List (Nat × Nat × Nat × Nat × Nat) → Nat → List TablePtr
  | [], _ => []
  | (lv, lo, n, al, _) :: rest, table =>
    let e := pteRead s phvc (table + 8 * natBits va lo n)
    if !natBit e 0 ∨ natBit e 1 ∨ natBits e 2 2 ≠ 0 ∨ natBits e 48 2 ≠ 0 ∨ al = 0 ∨ natBits e 50 14 ≠ 0 ∨ natBit e 7 ∨
        pteAddr e % max 1 al ≠ 0 then []
    else ⟨ctx, lv + 1, va / 2 ^ lo * 2 ^ lo, 2 ^ lo, pteAddr e⟩ :: pathPtrs s ctx phvc va rest (pteAddr e)

/-- The entries that a walk from a table on reads. -/
def pathEntries (s : State) (phvc va : Nat) : List (Nat × Nat × Nat × Nat × Nat) → Nat → List Nat
  | [], _ => []
  | (_, lo, n, _, _) :: rest, table =>
    let entry := table + 8 * natBits va lo n
    let e := pteRead s phvc entry
    entry :: (if !natBit e 0 ∨ natBit e 1 then [] else pathEntries s phvc va rest (pteAddr e))

/-- Whether the tables on the way of a whole walk are at hand: a walk is an access of the slice banks that hold its entries, and
waits for those in retention (R286). -/
def State.wakeWalk (s : State) (ctx : Nat) (va : DWord) : Bool × State :=
  let c := s.ctx ctx
  if (s.vcs.find c.phvc).isNone then (true, s) else s.wakeAll c.phvc (pathEntries s c.phvc va.toNat levels c.ptroot)

/-- A pointer of the pointer caches leads towards an address of a context. -/
def TablePtr.covers (p : TablePtr) (ctx va : Nat) : Bool :=
  p.ctx == ctx && decide (p.base ≤ va) && decide (va < p.base + p.size)

/-- A walk by a cluster's walker (R239, R240): a free value says from which of the pointers that its caches hold it starts, if
any; the pointers that it reads are kept. Beside the outcome it says whether a leaf was reached (R250). None while a table lies
in a slice bank in retention (R286). -/
def clusterWalk (s : State) (cluster ctx : Nat) (va : DWord) (need : Need) : Option (Walk × Bool) × State :=
  let c := s.ctx ctx
  if !c.v || c.busy || !canonical va || (s.vcs.find c.phvc).isNone then (some (walk s ctx va need, false), s) else
  let have? := (s.cluster cluster).ptrs.filter (fun p => p.covers ctx va.toNat)
  let (n, s) := if have?.isEmpty then (0, s) else s.free
  let (lv, table) := match have?[n % (have?.length + 1)]? with | some p => (p.level, p.table) | none => (0, c.ptroot)
  let ls := levels.drop lv
  match s.wakeAll c.phvc (pathEntries s c.phvc va.toNat ls table) with
  | (false, s) => (none, s)
  | (true, s) =>
    let cl := s.cluster cluster
    let new := pathPtrs s ctx c.phvc va.toNat ls table
    let kept := cl.ptrs.filter (fun p => !new.any (fun q => q.ctx == p.ctx && q.level == p.level && q.base == p.base))
    (some (walkFrom s ctx c.phvc va.toNat need ls table, leafReached s c.phvc va.toNat ls table),
     s.putCluster cluster { cl with ptrs := new ++ kept })

/-- The entry of a core TLB for an address. Which entries a set still holds is not stated in full: a free value may have
replaced it (log entry 14). -/
def tlbHit (s : State) (core ctx : Nat) (va : DWord) : Option Tlb × State :=
  let c := s.core core
  match c.tlb.find? (fun e => e.covers ctx va.toNat) with
  | none => (none, s)
  | some e =>
    let (n, s) := s.free
    if n % 2 = 0 then (some e, s) else (none, s.putCore core { s.core core with tlb := c.tlb.filter (fun x => x != e) })

/-- A walk that ends well is kept in the core TLB. -/
def State.keepLeaf (s : State) (core ctx : Nat) (l : Leaf) : State :=
  s.putCore core { s.core core with tlb := keepTlb (s.core core).tlb (l.asTlb ctx) }

/-- A translation as a core makes it: from its TLB, or by a walk (R240, R241). It waits for nothing: what retention would hold
back here, the trap of a group, has its time later. -/
def translate (s : State) (core ctx : Nat) (va : DWord) (need : Need) : Walk × State :=
  match tlbHit s core ctx va with
  | (some e, s) => (leafCheck s ctx need (e.leafAt va), s)
  | (none, s) =>
    match clusterWalk s (walkerOf core) ctx va need with
    | (some (.ok l, _), s) => (.ok l, s.keepLeaf core ctx l)
    | (some (w, _), s) => (w, s)
    | (none, s) => (walk s ctx va need, s)

/-- Cached translations that a predicate picks leave every place of R240: core TLBs, last-page registers, the caches of the
copy engines and the tile fetch units; pointers that another picks leave the pointer caches. -/
def State.dropCached (s : State) (p : Tlb → Bool) (q : TablePtr → Bool) : State :=
  let out (ts : List Tlb) : List Tlb := ts.filter (fun e => !p e)
  { s with
    cores := s.cores.map (fun (c : Nat × Core) => (c.1, { c.2 with tlb := out c.2.tlb }))
    clusters := s.clusters.map (fun (c : Nat × Cluster) =>
      (c.1, { c.2 with copyTlb := out c.2.copyTlb, tileTlb := out c.2.tileTlb, ptrs := c.2.ptrs.filter (fun e => !q e) }))
    teams := s.teams.map (fun (t : Nat × Team) => (t.1, { t.2 with groups := t.2.groups.map (fun (g : Group) =>
      { g with lastPage := g.lastPage.filter (fun e => !p e.2) }) })) }

/-! ## Fault queues (R490, R491) -/

/-- The 32 bytes of a fault record (R185). -/
def Record.toBytes (r : Record) : List Byte :=
  bytesLE 1 r.code ++ bytesLE 1 r.kind ++
  bytesLE 1 ((if r.inrun then 1 else 0) + (if r.replay then 2 else 0) + (if r.sysmode then 4 else 0) +
    (if r.double then 8 else 0)) ++ [0] ++ bytesLE 2 r.group ++ bytesLE 2 r.num ++
  bytesLE 8 r.iaddr.toNat ++ bytesLE 8 r.lanes.toNat ++ bytesLE 8 r.faddr.toNat

/-- Posts a record to a context's fault queue (R491): source of R490, the team's handle, the die where it arose. -/
def post (s : State) (ctx src : Nat) (handle : Nat) (die : Nat) (r : Record) : State :=
  let c := s.ctx ctx
  if !c.v || c.busy then s else
  let n := c.fqseq + 1
  let c := { c with fqseq := n }
  let entry := c.fqbase + 64 * (n % 2 ^ c.fqlog)
  let lost := s.putCtx ctx { c with fqlost := min (c.fqlost + 1) 0xFFFFFFFF }
  if (s.vcs.find c.phvc).isNone then lost else
  if homeNat s c.phvc 8 (entry + 0x28) ≠ 0 then lost else
  let s := s.putCtx ctx c
  let s := engineWrite s c.phvc entry (r.toBytes ++ bytesLE 4 handle ++ bytesLE 1 ctx ++ bytesLE 1 src ++ [0, 0])
  let s := engineWrite s c.phvc (entry + 0x28) (bytesLE 8 n)
  s.commandEvent die 0x200

end Sys2Proof.Machine
end

