-- ==== Sys2Proof/Machine/Ops.lean ====
section
/-! DEFINITION. Named operations over teams, groups and registers: completion flags and pending ranges, long-latency
operations, register access with the recovery engine's first-write saves, taking a fault, trap entry and the return from
it, and how an issued word ends. -/

namespace Sys2Proof.Machine

/-! ## Units, masks, gangs -/

/-- Bit l of a lane mask. -/
def hasLane (m : Mask) (l : Nat) : Bool := m.getLsbD l

/-- The mask of one lane. -/
def laneBit (l : Nat) : Mask := BitVec.twoPow 64 l

/-- Lanes of a mask in ascending order (R10). -/
def lanesOf (m : Mask) : List Nat := (List.range 64).filter (hasLane m)

/-- The mask of a list of lanes. -/
def maskOf (ls : List Nat) : Mask := ls.foldl (fun m l => m ||| laneBit l) 0

/-- Lanes that programs see: W, or W/2 in a lane-pair group (R429). -/
def Group.lanes (g : Group) : Nat := if g.lanepair then g.width / 2 else g.width

/-- Visible lanes of one slice (R19, R429). -/
def Group.perSlice (g : Group) : Nat := if g.lanepair then 2 else 4

/-- Slice of a visible lane (R20, R429). -/
def Group.sliceOf (g : Group) (lane : Nat) : Nat := lane / g.perSlice

/-- All lanes of a slice that have not finished (R171, R175). -/
def Slice.live (sl : Slice) : Mask :=
  sl.stack.foldl (fun m e => m ||| e.m) (sl.a.mask ||| (if sl.dual then sl.b.mask else 0))

/-- Lanes of a group that have not finished. -/
def Group.unfinished (g : Group) : Mask := g.slices.foldl (fun m sl => m ||| sl.live) 0

/-- The unit of a slice: slot B when the flag is set. -/
def Slice.unit (sl : Slice) (b : Bool) : PathUnit := if b then sl.b else sl.a

/-- Replaces a unit of a slice. -/
def Slice.setUnit (sl : Slice) (b : Bool) (u : PathUnit) : Slice := if b then { sl with b := u } else { sl with a := u }

/-- A unit without lanes. -/
def PathUnit.empty : PathUnit := { pc := 0, via := 0, mask := 0, ret := [], st := .finished, gang := 0 }

/-- The live units of a group, lowest slice first, slot A before B. -/
def Group.units (g : Group) : List (Nat × Bool × PathUnit) :=
  g.slices.zipIdx.flatMap (fun x =>
    (if x.1.a.st = .finished then [] else [(x.2, false, x.1.a)]) ++
    (if x.1.dual && x.1.b.st != .finished then [(x.2, true, x.1.b)] else []))

/-- Applies a function to listed units of a group. -/
def Group.mapUnits (g : Group) (us : List (Nat × Bool)) (f : Nat → Bool → PathUnit → PathUnit) : Group :=
  { g with slices := g.slices.zipIdx.map (fun x =>
      let sl := if us.contains (x.2, false) then { x.1 with a := f x.2 false x.1.a } else x.1
      if us.contains (x.2, true) then { sl with b := f x.2 true sl.b } else sl) }

/-- Live units of a gang. -/
def Group.gangUnits (g : Group) (k : Nat) : List (Nat × Bool × PathUnit) := g.units.filter (fun u => u.2.2.gang == k)

def Group.gang? (g : Group) (k : Nat) : Option Gang := g.gangs.find? (fun x => x.id == k)

/-- Applies a function to every gang of a group, those that a system-mode shadow keeps among them (R189). -/
def Group.mapGangs (g : Group) (f : Gang → Gang) : Group :=
  { g with gangs := g.gangs.map f, shadow := g.shadow.map (fun (x : Shadow) => { x with gangs := x.gangs.map f }) }

/-- Applies a function to one gang of a group. -/
def Group.onGang (g : Group) (k : Nat) (f : Gang → Gang) : Group := g.mapGangs (fun x => if x.id = k then f x else x)

/-- Lanes of listed units. -/
def Group.unitLanes (g : Group) (us : List (Nat × Bool)) : Mask :=
  g.units.foldl (fun m u => if us.contains (u.1, u.2.1) then m ||| u.2.2.mask else m) 0

/-- Slices of listed units, each once. -/
def unitSlices (us : List (Nat × Bool)) : List Nat := (us.map (·.1)).eraseDups

/-- A gang that is inside no run and waits for nothing. -/
def Gang.new (id last : Nat) : Gang := { id := id, last := last, run := none, wait := .none, tried := none }

/-- GSTAT.PARTED (R160, R168). -/
def Group.parted (g : Group) : Bool := decide (1 < g.gangs.length)

/-- GSTAT.DUAL (R160, R166). -/
def Group.dual (g : Group) : Bool := g.slices.any (·.dual)

/-- A gang left with no unit ceases to exist (R168). -/
def Group.dropEmptyGangs (g : Group) : Group :=
  { g with gangs := g.gangs.filter (fun k => g.units.any (fun u => u.2.2.gang == k.id)) }

/-! ## The group of the word being issued -/

def State.curTeam? (s : State) (c : Cur) : Option Team := s.teams.find c.team
def State.group? (s : State) (t g : Nat) : Option Group := (s.teams.find t).bind (fun x => x.group? g)
def State.curGroup? (s : State) (c : Cur) : Option Group := s.group? c.team c.group

/-- The run that the issuing gang is in. -/
def Group.run? (g : Group) (k : Nat) : Option Run := (g.gang? k).bind (·.run)

/-- Changes the issuing group. -/
def State.onCur (s : State) (c : Cur) (f : Group → Group) : State := s.onGroup c.team c.group f

/-- Changes the run of the issuing gang. -/
def State.onRun (s : State) (c : Cur) (f : Run → Run) : State :=
  s.onCur c (fun g => g.onGang c.gang (fun k => { k with run := k.run.map f }))

/-- Sets what the issuing gang waits for. -/
def State.setWait (s : State) (c : Cur) (w : Wait) : State :=
  s.onCur c (fun g => g.onGang c.gang (fun k => { k with wait := w }))

/-- Die of a team's hardware (R7, R13). -/
def Team.die (t : Team) : Nat := if t.command then t.core else t.core / 224

/-- Cluster of a team, module-wide (R7). -/
def Team.cluster (t : Team) : Nat := t.core / 8

/-- The core whose cluster or private pool serves a team: command cores have a pool of their own, kept as cluster
224 + die (R13). -/
def Team.pool (t : Team) : Nat := if t.command then 224 + t.core else t.cluster

/-! ## Uniform registers, tags, special kinds of lane register -/

def RegFile.S (rf : RegFile) (n : Nat) : Word := rf.s.getD n 0
def RegFile.setS (rf : RegFile) (n : Nat) (w : Word) : RegFile := { rf with s := rf.s.setD n w 0 }
/-- The pair s(n):s(n+1), low word first (R157). -/
def RegFile.S64 (rf : RegFile) (n : Nat) : DWord := BitVec.ofNat 64 ((rf.S n).toNat + 2 ^ 32 * (rf.S (n + 1)).toNat)
def RegFile.setS64 (rf : RegFile) (n : Nat) (w : DWord) : RegFile :=
  (rf.setS n (w.setWidth 32)).setS (n + 1) ((w >>> 32).setWidth 32)

/-- The residue of a word (R12, R194). -/
def residue (w : Word) : BitVec 2 := BitVec.ofNat 2 (w.toNat % 3)

/-- An unlisted register word: zero with its residue (R34). -/
def VWord.zero : VWord := ⟨0, 0⟩
def RegFile.V (rf : RegFile) (r lane : Nat) : Word := (rf.v.getD (r * 64 + lane) VWord.zero).val
def RegFile.setV (rf : RegFile) (r lane : Nat) (w : Word) : RegFile :=
  { rf with v := rf.v.setD (r * 64 + lane) ⟨w, residue w⟩ VWord.zero }
/-- The word's residue is right (R194). -/
def RegFile.vOk (rf : RegFile) (r lane : Nat) : Bool :=
  let x := rf.v.getD (r * 64 + lane) VWord.zero
  x.res == residue x.val
def RegFile.X (rf : RegFile) (k lane : Nat) : Byte := rf.x.getD (k * 64 + lane) 0
def RegFile.setX (rf : RegFile) (k lane : Nat) (b : Byte) : RegFile :=
  { rf with x := rf.x.setD (k * 64 + lane) b 0, xbad := rf.xbad.filter (· != k * 64 + lane) }
/-- Predicates; q7 reads true (R8). -/
def RegFile.Q (rf : RegFile) (q lane : Nat) : Bool := if q = 7 then true else rf.q.getD (q * 64 + lane) false
/-- A write to q7 is discarded (R82). -/
def RegFile.setQ (rf : RegFile) (q lane : Nat) (b : Bool) : RegFile :=
  if q = 7 then rf else
    { rf with q := rf.q.setD (q * 64 + lane) b false, qbad := rf.qbad.filter (· != q * 64 + lane) }

/-- A register file right after allocation (R34). -/
def RegFile.reset : RegFile := { v := [], x := [], q := [], s := [], xbad := [], qbad := [] }

/-- Tag of a register for a slice (R120); INT32 on allocation. -/
def Group.tag (g : Group) (r sl : Nat) : Nat := g.tags.getD (r * 16 + sl) 0
def Group.setTag (g : Group) (r sl t : Nat) : Group := { g with tags := g.tags.setD (r * 16 + sl) t 0 }

/-- Applies a function to the register file and, in a lane-pair group, to the shadows' (R429, R430). -/
def Group.files (g : Group) (f : RegFile → RegFile) : Group := { g with rf := f g.rf, sh := g.sh.map f }

/-- Writes a uniform register, both copies (R430). -/
def Group.putS (g : Group) (n : Nat) (w : Word) : Group := g.files (fun r => r.setS n w)
/-- Writes words to consecutive uniform registers. -/
def Group.putSs (g : Group) (n : Nat) (ws : List Word) : Group :=
  g.files (fun r => (ws.zipIdx).foldl (fun r w => r.setS (n + w.2) w.1) r)

/-! ## Completion flags and pending registers (R86 to R90) -/

def Group.flagCount (g : Group) (f : Nat) : Nat := g.flags.getD f 0

def Group.flagInc (g : Group) (f : Nat) : Group := { g with flags := g.flags.setD f (g.flagCount f + 1) 0 }

/-- A run's own destinations are no longer pending once its flag is clear (R88). -/
def Run.released (r : Run) (f : Nat) : Run := if r.fa = f then { r with dests := [] } else r

/-- An operation's completion lowers its flag; a flag that clears releases what is pending for it (R88). -/
def Group.flagDec (g : Group) (f : Nat) : Group :=
  let n := g.flagCount f - 1
  let g := { g with flags := g.flags.setD f n 0 }
  if n = 0 then
    { g with pend := g.pend.filter (fun p => p.flag != f),
             loose := g.loose.filter (fun p => p.flag != f) }.mapGangs (fun k => { k with run := k.run.map (fun (r : Run) => r.released f) })
  else g

def PendRange.covers (p : PendRange) (scalar : Bool) (r : Nat) : Bool :=
  p.scalar == scalar && decide (p.first ≤ r) && decide (r < p.first + p.count)

/-- Gangs of a group, those that a system-mode shadow keeps among them. -/
def Group.allGangs (g : Group) : List Gang := g.gangs ++ (match g.shadow with | some x => x.gangs | none => [])

/-- Pending(reg) (R90): a range of an ended run, an operation of an abandoned run (R187), or one of a run in progress, be it
kept in a system-mode shadow (R94). -/
def Group.pending (g : Group) (scalar : Bool) (r : Nat) : Bool :=
  g.pend.any (fun p => p.covers scalar r) || g.loose.any (fun p => p.covers scalar r) ||
  g.allGangs.any (fun k => match k.run with
    | some run => run.dests.any (fun d => d.scalar == scalar && d.reg == r)
    | none => false)

/-- A run's ENDRUN ranges take effect when its flag is still set (R88, R92). -/
def Group.bindRanges (g : Group) (run : Run) : Group :=
  if g.flagCount run.fa = 0 then g else
    { g with pend := g.pend ++ run.ranges.filter (fun p => p.count != 0) }

/-- The registers that the operations of a run will write stay pending when the run is abandoned (R88, R187). -/
def Group.abandonRun (g : Group) (run : Run) : Group :=
  if g.flagCount run.fa = 0 then g else
    { g with loose := g.loose ++ run.dests.map (fun d => ⟨run.fa, d.scalar, d.reg, 1⟩) }

/-- A gang of the group sleeps: the whole group issues nothing (R180). -/
def Group.sleeping (g : Group) : Bool := g.gangs.any (fun k => match k.wait with | .sleep _ => true | _ => false)

/-- Slices that a REGANG mask names; zero names all (R176). -/
def Group.named (g : Group) (mask : Nat) : List Nat :=
  let sl := (List.range g.slices.length).filter (natBit mask)
  if sl.isEmpty then List.range g.slices.length else sl

/-- Every live unit of a slice has issued REGANG and left its run (R176); a slice whose lanes have all finished counts too. -/
def Group.gathered (g : Group) (sl : Nat) : Bool :=
  g.units.all (fun u => u.1 != sl || ((match u.2.2.st with | .regang _ _ => true | _ => false) &&
    (g.run? u.2.2.gang).isNone))

/-- A unit that waits at a REGANG sees slices gather. -/
def PathUnit.sees (u : PathUnit) (sls : List Nat) : PathUnit :=
  match u.st with
  | .regang n l => { u with st := .regang n (l.filter (fun k => !sls.contains k)) }
  | _ => u

/-- Slices that REGANG names have all gathered: their units join one gang, with the age of the oldest gang involved, and the
units that have waited for them go on (R176). -/
def Group.joinNamed (g : Group) (named : List Nat) : Group :=
  let waits (u : Nat × Bool × PathUnit) : Bool := (match u.2.2.st with | .regang _ _ => true | _ => false) &&
    (g.run? u.2.2.gang).isNone
  let us := (g.units.filter waits).filter (fun u => named.contains u.1)
  let done := (g.units.filter waits).filter (fun u => u.2.2.st == .regang named [])
  let id := g.gangCtr
  let old := (us.map (·.2.2.gang)).eraseDups
  let ages := (g.gangs.filter (fun k => old.contains k.id)).map (·.last)
  let g := if us.isEmpty then g else
    { g.mapUnits (us.map (fun x => (x.1, x.2.1))) (fun _ _ x => { x with gang := id }) with
      gangCtr := id + 1, gangs := g.gangs ++ [Gang.new id (ages.foldl min (ages.headD 0))] }
  (g.mapUnits (done.map (fun x => (x.1, x.2.1))) (fun _ _ x => { x with st := .ready })).dropEmptyGangs

/-- Every REGANG that is complete takes effect. -/
def Group.tryRegang (g : Group) : Group :=
  let ok := (List.range g.slices.length).filter g.gathered
  let g := { g with slices := g.slices.map (fun (sl : Slice) => { sl with a := sl.a.sees ok, b := sl.b.sees ok }) }
  let complete := (g.units.filterMap (fun u => match u.2.2.st with
    | .regang n [] => if (g.run? u.2.2.gang).isNone then some n else none
    | _ => none)).eraseDups
  complete.foldl Group.joinNamed g

/-- Every gang's age counter at zero (R104, R180). -/
def Group.young (g : Group) (now : Nat) : Group :=
  { g with gangs := g.gangs.map (fun (k : Gang) => { k with last := now }) }

/-- The gang leaves its run; a yield hint in it takes effect (R104). -/
def Group.leaveRun (g : Group) (k now : Nat) : Group :=
  match g.run? k with
  | some r =>
    let g := ((g.bindRanges r).onGang k (fun x => { x with run := none, wait := .none })).tryRegang
    if r.yield then g.young now else g
  | none => g

/-! ## Long-latency operations (R16, R86) -/

/-- A long-latency operation of the word being issued, attached to a flag. -/
def State.newOp (s : State) (c : Cur) (flag : Option Nat) (body : OpBody) : Nat × State :=
  let id := s.opCtr
  let lvl := match s.teams.find c.team with | some t => t.levels.length | none => 0
  let o : Op := { id := id, team := c.team, group := c.group, gang := c.gang, iaddr := c.addr, lanes := c.lanes,
                  flag := flag, level := lvl, body := body }
  let s := { s with opCtr := id + 1, ops := s.ops.put id o }
  let s := match flag with | some f => s.onCur c (fun g => g.flagInc f) | none => s
  (id, s)

/-- An operation that an engine holds for a team and that no flag observes. -/
def State.hiddenOp (s : State) (team : Nat) (body : OpBody) : State :=
  let o : Op := { id := s.opCtr, team := team, group := 0, gang := 0, iaddr := 0, lanes := 0, flag := none, level := 0,
                  body := body }
  { s with opCtr := s.opCtr + 1, ops := s.ops.put s.opCtr o }

/-- An operation that holds for a group and that no flag observes. -/
def State.groupOp (s : State) (team group : Nat) (body : OpBody) : State :=
  let o : Op := { id := s.opCtr, team := team, group := group, gang := 0, iaddr := 0, lanes := 0, flag := none, level := 0,
                  body := body }
  { s with opCtr := s.opCtr + 1, ops := s.ops.put s.opCtr o }

/-! ## Ordering of a group's older accesses (R47 to R52) -/

/-- Order codes that acquire, and that release (R48). -/
def acquires (order : Nat) : Bool := order == 1 || order == 3 || order == 4
def releases (order : Nat) : Bool := order == 2 || order == 3 || order == 4

/-- Lanes that are over: bound, faulted or dropped. -/
def LaneState.ended : LaneState → Bool
  | .bound => true
  | .dropped => true
  | .faulted _ _ => true
  | _ => false

/-- Lanes that wait on PAGE or LINKSTALL (R243). -/
def LaneState.soft : LaneState → Bool
  | .parked _ => true
  | .stalled => true
  | _ => false

/-- Some lane of an operation is not over. -/
def MemOp.open? (m : MemOp) : Bool := m.accs.any (fun a => !a.st.ended)

def MemKind.isAtomic : MemKind → Bool
  | .atom _ => true
  | .atomn _ => true
  | _ => false

def MemKind.isStore : MemKind → Bool
  | .store => true
  | .storeU => true
  | k => k.isAtomic

/-- Blocks of a group in the compare engine, oldest first. -/
def heldBlocks (t : Team) (g : Group) : List Block :=
  (t.cmp.held ++ t.cmp.seen).filterMap (fun e => if e.group == g.id then e.block else none)

/-- Some block of an operation is not performed yet. -/
def opBlocksOut (s : State) (op : Nat) : Bool :=
  let mine (b : Block) : Bool := b.op == op
  s.teams.any (fun t => t.2.groups.any (fun g => g.fifo.any mine || (heldBlocks t.2 g).any mine)) ||
  s.cores.any (fun c => c.2.merge.any mine || c.2.comm.any mine)

/-- An operation of a group, issued before a number, for which p holds. -/
def olderOp (s : State) (team group before : Nat) (p : Op → Bool) : Bool :=
  s.ops.any (fun o => o.2.team == team && o.2.group == group && decide (o.1 < before) && p o.2)

/-- Addresses that are translated (R237). -/
def Space.translated (sp : Space) : Bool := sp == .global || sp == .drawer

/-- The ranges that an operation other than a load, store or atomic has translated and still works on; those of SEAL, UNSEAL,
WOBSEAL, the last WOBREL and VCRESIZE.move are rewritten with their leaves, and count only where asked for. -/
def OpBody.pieces (b : OpBody) (all : Bool) : List Piece :=
  match b with
  | .cmlr ps => ps
  | .cmls _ _ ps => ps
  | .discard ps _ => ps
  | .flush ps _ => ps
  | .seal ps _ _ => if all then ps else []
  | .wobseal _ _ _ ps _ => if all then ps else []
  | .wobrel _ _ _ ps => if all then ps else []
  | .vcmove ps _ _ => if all then ps else []
  | _ => []

/-- An access issued before a number that a predicate picks by the context, start and size of the page through which it has been
translated is not performed yet (R251). -/
def pageBusy (s : State) (all : Bool) (before : Nat) (hit : Nat → Nat → Nat → Bool) : Bool :=
  let page (c va p : Nat) : Bool := hit c (va / max 1 p * max 1 p) (max 1 p)
  let blk (b : Block) : Bool := b.space.translated && decide (b.id < before) && page b.ctx b.va.toNat b.psize
  s.ops.any (fun o => decide (o.1 < before) && (match s.teams.find o.2.team with
    | none => false
    | some t => (match o.2.body with
      | .mem m => m.space.translated && m.accs.any (fun a => (match a.st with
          | .ready => true | .miss => true | .stalled => true | _ => false) && page t.ctx a.va.toNat a.psize)
      | b => (b.pieces all).any (fun p => page t.ctx p.va p.psize)))) ||
  s.teams.any (fun t => t.2.groups.any (fun g => g.fifo.any blk || (heldBlocks t.2 g).any blk)) ||
  s.cores.any (fun c => c.2.merge.any blk || c.2.comm.any blk)

/-- Pages of a context that overlap a virtual range. -/
def overlaps (ctx va len : Nat) (c base size : Nat) : Bool :=
  c == ctx && decide (base < va + len) && decide (va < base + size)

/-- An older acquire of the group has not been performed yet (R50, R52): an acquire access, a fence that acquires, CMLR or CMLS,
which acquire at pkg scope (R303, R304). -/
def acquiresOut (s : State) (team group before : Nat) : Bool :=
  olderOp s team group before (fun k => match k.body with
    | .mem n => acquires n.mods.order && (n.open? || (n.kind.isAtomic && opBlocksOut s k.id))
    | .fence order _ => acquires order
    | .cmlr _ => true
    | .cmls .. => true
    | _ => false)

/-- The scope as a team has it: team scope is core scope on one core and clus scope on a pair (R47). -/
def Team.scope (t : Team) (sc : Nat) : Nat := if sc = 1 then (if t.pair then 3 else 2) else sc

/-- An older load of the group is not performed yet; unpaired ones count only where every load does (R56). -/
def loadsOut (s : State) (team group before : Nat) (every : Bool := false) : Bool :=
  s.ops.any (fun o => o.2.team == team && o.2.group == group && decide (o.1 < before) &&
    match o.2.body with
    | .mem m => (match m.kind with
        | .store => false
        | .storeU => false
        | .atomn _ => false
        | .pref => false
        | .probe => false
        | _ => (every || m.mods.use != 1) && m.accs.any (fun a => match a.st with | .bound => false | .dropped => false | _ => true))
    | _ => false)

/-- Blocks older than a number that a release has to wait for: the group's own, and what it has observed in the merge point of its
core, by a barrier or by a load (cumulativity, R49); unpaired stores count only where every store does (R56). -/
def storesOut (s : State) (g : Group) (team before : Nat) (performed : Bool) (every : Bool := false) : Bool :=
  g.fifo.any (fun b => decide (b.id < before) && (every || b.mods.use != 1)) ||
  s.ops.any (fun o => o.2.team == team && o.2.group == g.id && decide (o.1 < before) &&
    match o.2.body with | .mdrain .. => true | _ => false) ||
  (performed && ((s.mergePoint g.core).any (fun b => (decide (b.id < before) && (every || b.mods.use != 1)) ||
      g.seen.any (fun x => x.1 == b.id && decide (x.2 < before))) ||
    (s.core (s.mergeKey g.core)).comm.any (fun b => b.team == team && b.group == g.id && decide (b.id < before))))

/-- Blocks older than a number wait in the compare engine; those of a trailing copy also while blocks of its leading
copy that have met their counterpart are on their way (R438). -/
def heldOut (s : State) (t : Team) (g : Group) (before : Nat) (every : Bool := false) : Bool :=
  (t.cmp.held ++ t.cmp.seen).any (fun e => e.group == g.id && (match e.block with
    | some b => decide (b.id < before) && (every || b.mods.use != 1)
    | none => false)) ||
  (t.copy == .trailing && (match t.twin.bind s.teams.find with
    | some l => (match l.group? g.id with | some h => !h.fifo.isEmpty | none => false) ||
        (s.mergePoint l.core).any (fun b => b.team == l.id && b.group == g.id)
    | none => false))

/-- A remote operation of the group has not been answered (R47 fab, R339). -/
def remoteOut (s : State) (team group : Nat) : Bool :=
  s.copies.any (fun c => c.2.team == team && c.2.group == group && decide (8 ≤ c.2.fn) && c.2.phase != .finished)

/-- The conditions of a release at a scope over everything of the group older than a number (R47, R49). -/
def releaseDone (s : State) (t : Team) (g : Group) (sc before : Nat) : Bool :=
  let k := t.scope sc
  !loadsOut s t.id g.id before &&
  (k == 0 || (!storesOut s g t.id before (decide (3 ≤ k)) && !heldOut s t g before)) &&
  (decide (k < 5) || !remoteOut s t.id g.id)

/-! ## Register columns (R21, R24, R183) -/

/-- A resident group holds a word of a column of a core-half. -/
def wordTaken (s : State) (core half x w : Nat) : Bool :=
  s.teams.any (fun e => e.2.phase == .resident && e.2.groups.any (fun g => g.core == core && g.half == half &&
    decide (g.col ≤ x) && decide (x < g.col + g.width / 4) && g.rows.contains w))

/-- Words that are free in each of n columns from one on. -/
def freeWords (s : State) (core half col n : Nat) : List Nat :=
  (List.range 512).filter (fun w => (List.range n).all (fun i => !wordTaken s core half (col + i) w))

/-- The words that a group takes to grow to n registers (R183): the lowest that are free in each of its columns. -/
def growWords (s : State) (g : Group) (n : Nat) : List Nat :=
  (freeWords s g.core g.half g.col (g.width / 4)).take (4 * (n - g.vregs))

/-- There are enough of them. -/
def growFits (s : State) (g : Group) (n : Nat) : Bool :=
  decide (n ≤ g.vregs) || (growWords s g n).length == 4 * (n - g.vregs)

/-! ## Tiles (R369, R379, R396) -/

/-- The halves of a team's array set (R368). -/
def Team.halves (t : Team) : List Nat := if t.pair then [0, 1] else [0]

/-- A half of a tile of a team. -/
def State.tileOf (s : State) (t : Team) (z h : Nat) : Tile := (s.core (t.core + h)).tile z

/-- Replaces a half of a tile of a team. -/
def State.putTile (s : State) (t : Team) (z h : Nat) (x : Tile) : State :=
  let c := s.core (t.core + h)
  s.putCore (t.core + h) { c with tiles := c.tiles.setD z x Tile.reset }

/-- An operation has still to act on a tile. -/
def OpBody.onTile (b : OpBody) (z : Nat) : Bool :=
  match b with
  | .matrix _ k .. => k == z
  | .mcfg k _ => k == z
  | .mzero k => k == z
  | .tokpass k _ => k == z
  | .tread k .. => k == z
  | .twrite k .. => k == z
  | .tchk k .. => k == z
  | .mdrain k .. => k == z
  | .mem m => m.space == .tile && m.accs.any (fun a => a.pa / 2 ^ 15 == z && match a.st with
      | .bound => false
      | .dropped => false
      | .faulted _ _ => false
      | _ => true)
  | _ => false

/-- A tile-space store of a team that is not performed yet. -/
def Block.onTile (b : Block) (team z before : Nat) : Bool :=
  b.team == team && b.space == .tile && (b.cells.headD (0, 0)).1 / 2 ^ 15 == z && decide (b.id < before)

/-- An operation on a tile that a team issued before a number has not been performed yet (R379). -/
def tileWaits (s : State) (t : Team) (z before : Nat) : Bool :=
  s.ops.any (fun o => o.2.team == t.id && decide (o.1 < before) && o.2.body.onTile z) ||
  t.groups.any (fun g => g.fifo.any (fun b => b.onTile t.id z before)) ||
  t.cmp.held.any (fun e => match e.block with | some b => b.onTile t.id z before | none => false) ||
  t.cmp.seen.any (fun e => match e.block with | some b => b.onTile t.id z before | none => false) ||
  s.cores.any (fun c => c.2.merge.any (fun b => b.onTile t.id z before))

/-- The innermost level has not saved a half of a tile yet. -/
def Team.tileUnsaved (t : Team) (z h : Nat) : Bool :=
  !t.levels.isEmpty && !t.hasSaved (fun u => match u with | .tile k n _ => k == h && n == z | _ => false)

/-- Saves every half of the listed tiles that the innermost level has not saved; none when the region is full (R414). -/
def saveTiles (s : State) (t : Team) (zs : List Nat) : Option Team :=
  (zs.flatMap (fun z => t.halves.map (fun h => (z, h)))).foldl (fun a x => a.bind (fun (t : Team) =>
    if t.tileUnsaved x.1 x.2 then t.save (.tile x.2 x.1 (s.tileOf t x.1 x.2)) else some t)) (some t)

/-- Completion of an operation: its flag falls (R86). -/
def State.completeOp (s : State) (id : Nat) : State :=
  match s.ops.find id with
  | none => s
  | some o =>
    let s := { s with ops := s.ops.del id }
    match o.flag with
    | some f => s.onGroup o.team o.group (fun g => g.flagDec f)
    | none => s

/-- Changes an outstanding operation. -/
def State.onOp (s : State) (id : Nat) (f : Op → Op) : State := { s with ops := s.ops.adjust id f }

/-- What an operation still has to do. -/
def State.setBody (s : State) (id : Nat) (b : OpBody) : State := s.onOp id (fun o => { o with body := b })

/-! ## First-write saves of the recovery engine (R412) -/

/-- Saves a uniform register of a group for the innermost level; none when the region is full (R414). -/
def Team.saveS (t : Team) (g : Group) (r : Nat) : Option Team :=
  if t.levels.isEmpty || t.hasSaved (fun u => match u with | .sreg h n _ _ => h == g.id && n == r | _ => false) then some t
  else t.save (.sreg g.id r (g.rf.S r) ((g.sh.map (·.S r)).getD 0))

/-- The lanes of a slice. -/
def Group.sliceLanes (g : Group) (sl : Nat) : List Nat := (List.range g.perSlice).map (fun i => sl * g.perSlice + i)

/-- Saves a vector register of one slice (R412). -/
def Team.saveV (t : Team) (g : Group) (sl r : Nat) : Option Team :=
  if t.levels.isEmpty ||
      t.hasSaved (fun u => match u with | .vreg h k n _ _ _ => h == g.id && k == sl && n == r | _ => false) then some t
  else
    let words (rf : RegFile) := (g.sliceLanes sl).map (fun l => (l, rf.v.getD (r * 64 + l) VWord.zero))
    t.save (.vreg g.id sl r (g.tag r sl) (words g.rf) ((g.sh.map words).getD []))

/-- Saves every listed uniform register and every listed vector register of the listed slices. -/
def Team.saveAll (t : Team) (g : Group) (ss : List Nat) (vs : List (Nat × Nat)) : Option Team :=
  let t := ss.foldl (fun a r => a.bind (fun t => t.saveS g r)) (some t)
  vs.foldl (fun a x => a.bind (fun t => t.saveV g x.1 x.2)) t

/-! ## Faults (R185 to R189, R406, R440) -/

/-- A fault as the word or engine that finds it names it. -/
structure FaultInfo where
  code : Nat
  datum : Nat := 0
  lanes : Mask := 0
  faddr : DWord := 0
  replay : Bool := false
  deriving DecidableEq, Repr

/-- Faults that an open level takes in place of a trap (R406). -/
def recoveryEligible (code : Nat) : Bool := [0x17, 0x21, 0x19, 0x1A, 0x1C, 0x05, 0x09].contains code

/-- The group becomes one gang of one unit per slice with every unfinished lane active, at an address (R187 step 3). Runs that
its gangs were inside are abandoned, unless a shadow keeps them (R189). -/
def Group.restart (g : Group) (pc via : DWord) (now : Nat) (kept : Bool) : Group :=
  let id := g.gangCtr
  let slices := g.slices.map (fun sl =>
    let m := sl.live
    { dual := false, b := PathUnit.empty, rj := 0, stack := [],
      a := { pc := pc, via := via, mask := m, ret := [], st := if m = 0 then .finished else .ready, gang := id } })
  let g := if kept then g else g.gangs.foldl (fun g k => match k.run with | some r => g.abandonRun r | none => g) g
  let last := g.gangs.foldl (fun a k => min a k.last) now
  { g with slices := slices, gangCtr := id + 1, gangs := [Gang.new id last] }

/-- The address of the trap handler (R164, R187). -/
def Team.handler (t : Team) : DWord := t.desc.entry + (t.trapvec.signExtend 64 <<< 2)

/-- Where a fault record goes (R164). -/
def Group.recordAddr (g : Group) : DWord :=
  BitVec.ofNat 64 (g.faultlo.toNat / 32 * 32 + 2 ^ 32 * g.faulthi.toNat)

/-- A compared event enters the compare engine (R436): the leading copy's into the buffer, the trailing copy's to meet it.
Its index is the number of events that the group has entered. -/
def Team.enterEvent (t : Team) (clock : Nat) (group kind : Nat) (iaddr : DWord) (lanes : Mask) (words : List Nat)
    (faddr : DWord) (block : Option Block) (copy : Option Nat) : Team :=
  let n := ((t.cmp.sent.find? (fun x => x.1 == group)).map (·.2)).getD 0
  let e : CmpEvent := { group := group, index := n, kind := kind, iaddr := iaddr, lanes := lanes, words := words,
                        faddr := faddr, block := block, copy := copy, since := clock }
  let sent := t.cmp.sent.filter (fun x => x.1 != group) ++ [(group, n + 1)]
  if t.copy = .leading then { t with cmp := { t.cmp with held := t.cmp.held ++ [e], sent := sent } }
  else { t with cmp := { t.cmp with seen := t.cmp.seen ++ [e], sent := sent } }

/-- Events that a group has entered. -/
def Team.eventsSent (t : Team) (group : Nat) : Nat := ((t.cmp.sent.find? (fun x => x.1 == group)).map (·.2)).getD 0

/-- A team that runs as two copies (R427). -/
def Team.paired (t : Team) : Bool := t.copy != .only

/-- Resident clocks of a team (R361): placed and not suspended. -/
def Team.residentClocks (t : Team) (clock : Nat) : Nat :=
  t.resident + (if t.phase = .resident ∧ ¬ t.suspended then clock - t.placedAt else 0)

/-- A team's groups start no run any more (R361, R362): its resident clocks stop, what its sleepers have
left is kept as a difference, and its reservations are lost (R303). -/
def Team.pause (t : Team) (clock : Nat) : Team :=
  if t.suspended then t else
    { t with resident := t.residentClocks clock, suspended := true, suspendedAt := clock,
             groups := t.groups.map (fun (g : Group) =>
               { g with resv := g.resv.map (fun (r : Resv) => { r with lost := true }),
                        gangs := g.gangs.map (fun (k : Gang) => match k.wait with
                          | .sleep due => { k with wait := .sleep (due - clock) }
                          | _ => k) }) }

/-- A team's groups issue again. -/
def Team.unpause (t : Team) (clock : Nat) : Team :=
  if !t.suspended then t else
    { t with suspended := false, placedAt := clock,
             groups := t.groups.map (fun (g : Group) =>
               { g with gangs := g.gangs.map (fun (k : Gang) => match k.wait with
                          | .sleep left => { k with wait := .sleep (clock + left) }
                          | _ => k) }) }

/-- Stores a fault record through the group's FIFO as a grp-scope write (R187 step 2), or as a compared event of a
core-pair team (R436); none when the store faults. -/
def storeRecord (s : State) (t : Team) (g : Group) (r : Record) : Option State :=
  let a := g.recordAddr
  match translate s g.core t.ctx a .store with
  | (.ok l, s) =>
    let b : Block :=
      { id := s.opCtr, op := s.opCtr, team := t.id, group := g.id, kind := .store, space := .global, lane := 0,
        ctx := t.ctx, vc := l.vc, lclass := l.lclass, device := decide (2 ^ 40 ≤ l.pa), bank := 0,
        cells := cellsAt l.pa r.toBytes, cmp := 0, mods := ⟨0, 0, .global, 0, 0, 0⟩, level := t.levels.length,
        iaddr := r.iaddr, gang := 0, lanes := r.lanes, va := a, psize := l.size, born := s.clock }
    let s := { s with opCtr := s.opCtr + 1 }
    some (if t.paired then s.onTeam t.id (fun t => t.enterEvent (t.residentClocks s.clock) g.id 6 r.iaddr r.lanes
        (r.toBytes.map (·.toNat)) a (some b) none)
      else s.onGroup t.id g.id (fun g => { g with fifo := g.fifo ++ [b] }))
  | _ => none

/-- Termination of a team begins: it issues nothing more, and the launch engine rolls back, waits and frees (R362, R424).
The operation that stands for it is finished by LONG_LATENCY_COMPLETION; register 512 names none. -/
def terminateTeam (s : State) (t : Nat) : State :=
  (s.pairOf t).foldl (fun s i =>
    if s.ops.any (fun o => match o.2.body with | .evict k _ true => k == i | _ => false) then s
    else (s.onTeam i (fun x => x.pause s.clock)).hiddenOp i (.evict i 512 true)) s

/-- Posts a team's record to its context's fault queue from the sequencer (R187, R491); of a core-pair team only the
leading copy posts (R434). -/
def postTeam (s : State) (t : Team) (src : Nat) (r : Record) : State :=
  if t.copy = .trailing then s else post s t.ctx src t.handle.toNat t.die r

/-- First register and first tag key of the temporaries. -/
def tempKey : Nat := 128 * 64
def tempTag : Nat := 128 * 16

/-- The system-mode shadow (R189): divergence and run state at the trap, with the temporaries (R94). -/
def Group.toShadow (g : Group) (gang : Nat) (iaddr : DWord) (lanes : Mask) : Shadow :=
  { slices := g.slices, gangs := g.gangs, gang := gang, iaddr := iaddr, lanes := lanes,
    temps := g.rf.v.filter (fun e => decide (tempKey ≤ e.1)), tempTags := g.tags.filter (fun e => decide (tempTag ≤ e.1)) }

/-- A gang that is dropped waited at a memory word: the lanes that no access has been made for are dropped, and what has been
issued goes on without the gang (R187 step 1). -/
def MemOp.abandon (m : MemOp) : MemOp :=
  { m with loose := true, accs := m.accs.map (fun (a : LaneAcc) => match a.st with
      | .parked _ => { a with st := .dropped }
      | .stalled => { a with st := .dropped }
      | .faulted _ _ => { a with st := .dropped }
      | _ => a) }

/-- Operations that gangs of a group wait at go on by themselves, and fetches that gangs wait at are over (R187 step 1). -/
def State.abandonOps (s : State) (g : Group) : State :=
  g.gangs.foldl (fun (s : State) k =>
    let go (s : State) (op : Nat) : State := match s.ops.find op with
      | some o => (match o.body with
        | .mem m => s.putOp { o with body := .mem m.abandon }
        | .fetch _ => { s with ops := s.ops.del op }
        | _ => s)
      | none => s
    let s := match k.run.bind (·.op) with | some op => go s op | none => s
    match k.wait with
    | .translate op => go s op
    | .replay op => go s op
    | .parked op => go s op
    | .timer op _ => go s op
    | _ => s) s

/-- A gang that an operation had parked goes on: at the operation's own word it translates again (R245), elsewhere, or at a
run's start, where it stands. -/
def Gang.unpark (k : Gang) (op : Nat) : Gang :=
  let waits : Bool := match k.wait with | .parked i => i == op | .timer i _ => i == op | _ => false
  if !waits then k else { k with wait := if k.run.isSome ∧ k.run.bind (·.op) ≠ some op then .woken else .replay op }

/-- The command-core level counts from the clock at which a TRIP of the die was set or its command core halted, and starts
again when neither holds (R494). -/
def State.watchCommand (s : State) (die : Nat) : State :=
  let on := s.mgmt.halted.contains die || s.clusters.any (fun c => decide (c.1 < 224) && c.1 / 28 == die && c.2.clwd.getLsbD 16)
  let cs := if on then (if (s.mgmt.ccount.find die).isSome then s.mgmt.ccount else s.mgmt.ccount.put die s.clock)
    else s.mgmt.ccount.del die
  { s with mgmt := { s.mgmt with ccount := cs } }

/-- Delivery of a record to a group (R187): trap entry where a vector, a record address and no running handler allow it;
otherwise the team ends and the record is posted. In system mode trap entry also keeps the shadow, and a fault while one
is held halts the command core (R189). -/
def deliver (s : State) (t g gang : Nat) (r : Record) : State :=
  match s.teams.find t, s.group? t g with
  | some tm, some gr =>
    if gr.sysmode ∧ gr.shadow.isSome then
      { s with mgmt := { s.mgmt with halted := insertRising s.mgmt.halted tm.core } }.watchCommand tm.core
    else
    let usable := tm.trapvec ≠ 0 ∧ ¬ gr.intrap ∧ gr.recordAddr ≠ 0
    let stored := if usable then storeRecord s tm gr r else none
    match stored with
    | some s =>
      let s := if gr.sysmode then s else s.abandonOps gr
      s.onGroup t g (fun x =>
        { x.restart tm.handler r.iaddr s.now x.sysmode with
          intrap := true, shadow := if x.sysmode then some (x.toShadow gang r.iaddr r.lanes) else x.shadow })
    | none =>
      let r := { r with double := gr.intrap || decide usable }
      let s := s.onGroup t g (fun x => x.onGang gang (fun k => { k with wait := .halted }))
      terminateTeam (postTeam s tm 0 r) t
  | _, _ => s

/-- The whole-team cause of a level's failure. -/
def wholeTeam : Nat := 0xFFF

/-- Every gang of a group stops where it stands: its level fails (R407 step 1). -/
def stopGroup (s : State) (t g : Nat) : State :=
  s.onGroup t g (fun g => { g with gangs := g.gangs.map (fun (k : Gang) => { k with wait := .members }) })

/-- Fails the innermost level of a team (R406). -/
def failInnermost (s : State) (t kind code group : Nat) : State :=
  match s.teams.find t with
  | some tm => failLevel s t ⟨tm.levels.length, kind, code, group, false⟩
  | none => s

/-- Saturating increment of a 16-bit count. -/
def sat16 (n : Nat) : Nat := min (n + 1) 0xFFFF

/-- A compared event that a mismatch discards is never performed, and its instruction counts as complete (R440). -/
def dropEvent (s : State) (e : CmpEvent) : State :=
  let s := match e.block with | some b => s.completeOp b.op | none => s
  match e.copy with
  | some k => { s.completeOp k with copies := s.copies.del k }
  | none => s

/-- CMPMISMATCH (R440 to R443): absorbed by a rollback under way; without a level the team ends; a retry while
CMPRETRY allows one; otherwise the innermost level fails. Held entries are dropped in both copies. -/
def mismatch (s : State) (t group datum : Nat) (r : Record) : State :=
  match s.teams.find t with
  | none => s
  | some tm =>
    let busy := tm.fail.isSome
    let lvl := tm.levels.getLast?
    let limit := match tm.groups with | g :: _ => g.cmpretry.toNat % 16 | [] => 0
    let retry := match lvl with | some l => !l.joined && decide (l.retry < limit) | none => false
    let s := (s.pairOf t).foldl (fun s i => match s.teams.find i with
      | some x => (x.cmp.held ++ x.cmp.seen).foldl dropEvent s
      | none => s) s
    let s := (s.pairOf t).foldl (fun s i => s.ops.foldl (fun (s : State) (o : Nat × Op) => match o.2.body with
      | .mdrain .. => if o.2.team = i then s.completeOp o.1 else s
      | _ => s) s) s
    let s := (s.pairOf t).foldl (fun s i => s.onTeam i (fun x =>
      let c := x.cmp
      let again := !busy && lvl.isSome && retry && x.copy == .trailing
      { x with started := x.started && !again, startAt := if again then s.clock + 256 else x.startAt,
               cmp := { c with held := [], seen := [], values := [], sent := [], mismatch := sat16 c.mismatch,
                               retries := if !busy && lvl.isSome && retry then sat16 c.retries else c.retries,
                               escal := if !busy && lvl.isSome && !retry then sat16 c.escal else c.escal,
                               lastGroup := group, lastDatum := datum } })) s
    if busy then s else
    match lvl with
    | none => terminateTeam (postTeam s tm 0 { r with code := 0x1A, num := datum }) t
    | some _ => (s.pairOf t).foldl (fun s i => match s.teams.find i with
        | some x => failLevel (x.groups.foldl (fun s g => stopGroup s i g.id) s) i
            ⟨x.levels.length, 2, 0x1A, group, retry⟩
        | none => s) s

/-- The record of a fault of the word being issued (R185). -/
def faultRecord (g : Group) (c : Cur) (inrun : Bool) (f : FaultInfo) : Record :=
  { code := f.code, kind := 0, inrun := inrun, replay := f.replay, sysmode := g.sysmode, double := false,
    group := g.id, num := f.datum, iaddr := c.addr, lanes := f.lanes, faddr := f.faddr }

/-- Takes a fault of the word being issued: an open level takes a recovery-eligible one (R406), any other is delivered. -/
def takeFault (s : State) (c : Cur) (inrun : Bool) (f : FaultInfo) : State :=
  match s.teams.find c.team, s.curGroup? c with
  | some t, some g =>
    let r := faultRecord g c inrun f
    if f.code = 0x1A then mismatch (stopGroup s c.team c.group) c.team g.id f.datum r
    else if recoveryEligible f.code ∧ ¬ t.levels.isEmpty then
      failInnermost (stopGroup s c.team c.group) c.team 2 f.code g.id
    else deliver s c.team c.group c.gang r
  | _, _ => s

/-- A fault that an engine finds after issue, for an operation of a group (R405, R194): delivered as at issue. -/
def takeLate (s : State) (o : Op) (f : FaultInfo) : State :=
  takeFault s { team := o.team, group := o.group, gang := o.gang, units := [], lanes := o.lanes, addr := o.iaddr,
                word := 0 } true f

/-- A fault that an engine kept for the group's next run start (R274, R394): an open level takes a recovery-eligible one,
any other is delivered. -/
def takeKept (s : State) (t : Team) (g : Group) (gang : Nat) (r : Record) : State :=
  if recoveryEligible r.code ∧ ¬ t.levels.isEmpty then failInnermost (stopGroup s t.id g.id) t.id 2 r.code g.id
  else deliver s t.id g.id gang r

/-- An engine keeps a fault for the group's next run start (R274, R394): FLAGS.INRUN is 0. -/
def State.keepLate (s : State) (o : Op) (f : FaultInfo) : State :=
  s.onGroup o.team o.group (fun g => { g with late := g.late ++
    [{ code := f.code, kind := 0, inrun := false, replay := f.replay, sysmode := g.sysmode, double := false,
       group := g.id, num := f.datum, iaddr := o.iaddr, lanes := o.lanes, faddr := f.faddr }] })

/-! ## The exactly-once log (R419) -/

/-- Numbers of the exactly-once instructions in the log. -/
def logAtom : Nat := 0
def logAtomn : Nat := 1
def logQkick : Nat := 2
def logLaunch : Nat := 3
def logSend : Nat := 4
def logRput : Nat := 5
def logRatom : Nat := 6

/-- Entries of a group in a level's log. -/
def Level.groupLog (l : Level) (group : Nat) : List LogEntry := l.log.filter (fun e => e.group == group)

/-- Whether a group's replay cursor is live in a level. -/
def Level.cursorOf (l : Level) (group : Nat) : Option Nat := (l.cursor.find? (fun c => c.1 == group)).map (·.2)

/-- The log entry that an instruction replays, and the team with the cursor moved on; a mismatch discards the cursor and
every later entry. -/
def Team.replayLog (t : Team) (group : Nat) (iaddr : DWord) (fn : Nat) : Option LogEntry × Team :=
  match t.levels.findIdx? (fun l => (l.cursorOf group).isSome) with
  | none => (none, t)
  | some i =>
    match t.levels[i]? with
    | none => (none, t)
    | some l =>
      let k := (l.cursorOf group).getD 0
      let es := l.groupLog group
      let rest := l.cursor.filter (fun c => c.1 != group)
      let put (x : Level) : Team := { t with levels := setAt t.levels i x }
      match es[k]? with
      | none => (none, put { l with cursor := rest })
      | some e =>
        if e.iaddr = iaddr ∧ e.fn = fn then
          let next := if k + 1 < es.length then rest ++ [(group, k + 1)] else rest
          (some e, put { l with cursor := next })
        else
          let kept := l.log.filter (fun (x : LogEntry) => x.group != group) ++ es.take k
          (none, put { l with cursor := rest, log := kept })

/-- Logs an exactly-once instruction for the innermost level; none when the region is full (R414). -/
def Team.logOp (t : Team) (e : LogEntry) : Option Team :=
  match t.levels.getLast? with
  | none => some t
  | some l =>
    if t.regionUsed + e.size ≤ t.regionSize then
      some { t with levels := t.levels.dropLast ++ [{ l with log := l.log ++ [e] }] }
    else none

/-- Adds a result to the oldest entry of an instruction that has none for the lane yet. -/
def fillLog (group : Nat) (iaddr : DWord) (fn lane old : Nat) : List LogEntry → List LogEntry
  | [] => []
  | e :: r =>
    if e.group = group ∧ e.iaddr = iaddr ∧ e.fn = fn ∧ (e.olds.find? (fun x => x.1 == lane)).isNone then
      { e with olds := e.olds ++ [(lane, old)] } :: r
    else e :: fillLog group iaddr fn lane old r

/-- The result of an exactly-once operation is written into its entry, the oldest of its group without that result. -/
def Team.logResult (t : Team) (group : Nat) (iaddr : DWord) (fn lane old : Nat) : Team :=
  let without (e : LogEntry) : Bool :=
    e.group == group && e.iaddr == iaddr && e.fn == fn && (e.olds.find? (fun x => x.1 == lane)).isNone
  match t.levels.findIdx? (fun (l : Level) => l.log.any without) with
  | none => t
  | some i => { t with levels := t.levels.zipIdx.map (fun (l : Level × Nat) =>
      if l.2 = i then { l.1 with log := fillLog group iaddr fn lane old l.1.log } else l.1) }

/-- A gang goes on behind the word that it has been standing at: hints are consumed (R99). -/
def Run.skip (r : Run) : Run :=
  { r with off := r.off + 1, imm := none, hopnd := none, mpfx := none, replay := none, op := none }

/-- Return from a trap in system mode (R189): the shadow comes back, temporaries among it, and INTRAP clears. With skip the
trapped gang goes on after the recorded word: its run behind it, or, trapped at a run's start, its units behind the word they
stand at when that is the recorded one. Without it the word replays for the recorded lanes. None when no shadow is saved. -/
def Group.eret (g : Group) (skip : Bool) : Option Group :=
  match g.shadow with
  | none => none
  | some sh =>
    let gangs := sh.gangs.map (fun (k : Gang) => if k.id = sh.gang then
      { k with wait := .none, tried := none,
               run := k.run.map (fun (r : Run) => if skip then r.skip else { r with replay := some sh.lanes, op := none }) } else k)
    let atStart := (sh.gangs.find? (fun k => k.id == sh.gang)).any (fun k => k.run.isNone)
    let step (u : PathUnit) : PathUnit :=
      if skip && atStart && u.gang == sh.gang && u.pc == sh.iaddr && u.mask &&& sh.lanes != 0 then
        { u with pc := u.pc + 4, via := u.pc } else u
    some { g with slices := sh.slices.map (fun (sl : Slice) => { sl with a := step sl.a, b := step sl.b }), gangs := gangs,
                  shadow := none, intrap := false,
                  rf := { g.rf with v := g.rf.v.filter (fun e => decide (e.1 < tempKey)) ++ sh.temps },
                  tags := g.tags.filter (fun e => decide (e.1 < tempTag)) ++ sh.tempTags }

/-! ## How an issued word ends -/

/-- Outcome of a word's own effect: done; done as a hint, which keeps the hints attached (R99); done without an issue slot, as
CLAUSE and ENDRUN are (R83); retried because it stalls, blocks or parks; a taken branch that has set its units' PCs; a fault
beside what the word has done. -/
inductive Eff where
  | ok (s : State)
  | hint (s : State)
  | free (s : State)
  | stay (s : State)
  | jump (s : State)
  | fault (f : FaultInfo) (s : State)

/-- The state an outcome carries. -/
def Eff.state : Eff → State
  | .ok s => s
  | .hint s => s
  | .free s => s
  | .stay s => s
  | .jump s => s
  | .fault _ s => s

/-- The word is over: the run goes on at the next offset, hints are consumed (R99). -/
def Run.advance (r : Run) (keep : Bool) : Run :=
  if keep then { r with off := r.off + 1, replay := none, op := none } else r.skip

/-- Clocks for which an issued word holds the columns of its units (R193). -/
def holdClocks (w : Word) : Nat :=
  let m := natBits w.toNat 26 6
  if m = 0x23 ∨ (m = 0x22 ∧ natBits w.toNat 20 6 ≤ 7) ∨ (m = 0x1F ∧ natBits w.toNat 18 1 = 0 ∧ natBits w.toNat 22 4 = 8) then 8
  else if m = 0x24 then 4 * (natBits w.toNat 24 2 + 1) else 4

/-- The gang has issued: its age and its group's no-issue counter start again (R23, R192), and the columns of the issuing units
are held (R22, R193). -/
def Group.issued (g : Group) (c : Cur) (now : Nat) : Group :=
  let free := now / 25 + holdClocks c.word
  { g.onGang c.gang (fun x => { x with last := now }) with
    idle := 0, busy := (unitSlices c.units).foldl (fun (m : Map Nat) i => m.put i (max free (m.getD i 0))) g.busy }

/-- The word of the issuing gang takes the issue slot of its core-half (R23, R83). -/
def State.takeSlot (s : State) (c : Cur) : State :=
  match s.curGroup? c with
  | some g =>
    let k := s.core g.core
    (s.onCur c (fun g => g.issued c s.now)).putCore g.core { k with issued := k.issued.put g.half (s.clock + 1) }
  | none => s

/-- What the issuing gang waits for. -/
def State.waitOf (s : State) (c : Cur) : Wait :=
  match (s.curGroup? c).bind (fun g => g.gang? c.gang) with
  | some k => k.wait
  | none => .none

/-- A word takes its issue slot once, when it first gets past issue; a gang that has waited at it goes on without one. -/
def State.slotOnce (s : State) (s0 : State) (c : Cur) : State := if s0.waitOf c = .none then s.takeSlot c else s

/-- The word stays: when its gang now waits at it, it has issued (R94); otherwise it has stalled at issue, and the scheduler
looks elsewhere on this clock (R85). -/
def stayed (s0 s : State) (c : Cur) : State :=
  if s0.waitOf c = .none ∧ s.waitOf c ≠ .none then s.takeSlot c
  else s.onCur c (fun g => g.onGang c.gang (fun k => { k with tried := some s0.clock }))

/-- At most 16 pending ranges: a run that would bind more waits at its end (R88, R92). -/
def Group.rangeRoom (g : Group) (k : Nat) : Bool :=
  match g.run? k with
  | some r => decide (((g.bindRanges r).pend).length ≤ 16)
  | none => true

/-- The gang goes on behind its word. -/
def Group.wordDone (g : Group) (k : Nat) (keep : Bool) : Group :=
  g.onGang k (fun x => { x with wait := .none, run := x.run.map (fun (r : Run) => r.advance keep) })

/-- Ends the issue of a word; s0 is the state before it. -/
def settle (s0 : State) (c : Cur) (inrun : Bool) (e : Eff) : State :=
  let s := match e with
    | .ok s => (s.slotOnce s0 c).onCur c (fun g => g.wordDone c.gang false)
    | .hint s => (s.slotOnce s0 c).onCur c (fun g => g.wordDone c.gang true)
    | .free s => s
    | .stay s => stayed s0 s c
    | .jump s =>
      match s0.curGroup? c with
      | some g0 => if g0.rangeRoom c.gang then
          (s.slotOnce s0 c).onCur c (fun g => (g.leaveRun c.gang s.now).dropEmptyGangs) else stayed s0 s0 c
      | none => s0
    | .fault f s => takeFault (if inrun then s.slotOnce s0 c else s) c inrun f
  { s with cur := none }

/-- The blocked word of a gang is over: its run goes on behind it when no other run of its group is issuing (R85, R94). -/
def State.finishWord (s : State) (t g k : Nat) : State :=
  s.onGroup t g (fun x => x.onGang k (fun y => { y with wait := .woken, run := y.run.map (fun (r : Run) => r.advance false) }))

end Sys2Proof.Machine
end

