-- ==== Sys2Proof/Machine/Operands.lean ====
section
/-! DEFINITION. Operand codes and the checks of an issued word: privilege, role, operands, run form and run hazard, in
the order of R76, and the frame in which every instruction word's own effect runs. -/

namespace Sys2Proof.Machine

/-! ## What a word uses -/

/-- Which roles may issue a word, when the launch assigns roles (R17). -/
inductive RoleClass where
  | all
  | vector
  | copyVector
  | copyOnly
  | matrixOnly
  | matrixVector
  deriving DecidableEq, Repr

/-- Whether a word takes an attached HOPND (R101): not at all, without reading or checking it (R130), as it stands, or
necessarily. -/
inductive HopUse where
  | refuse
  | ignores
  | takes
  | needs
  deriving DecidableEq, Repr

/-- What a word names, as far as R76 judges it before the word's own faults: vector source and destination codes, ranges
of v registers (first code, count) read and written, uniform registers (first, count) read and written, any other
OPERAND condition that the word itself shows, hints it takes, the flag it attaches to (FA: some true, FB: some false),
whether a lane-pair group compares what it
reads (R431), and whether the word is itself a hint, to which nothing attaches (R99). -/
structure Uses where
  priv : Bool := false
  role : RoleClass := .all
  vr : List Nat := []
  vw : List Nat := []
  vrs : List (Nat × Nat) := []
  vws : List (Nat × Nat) := []
  sr : List (Nat × Nat) := []
  sw : List (Nat × Nat) := []
  bad : Bool := false
  hopnd : HopUse := .refuse
  mpfx : Bool := false
  long : Option Bool := none
  pair : Bool := false
  hint : Bool := false
  deriving DecidableEq, Repr

/-- The word reads the HOPND attached to it. -/
def HopUse.reads : HopUse → Bool
  | .takes => true
  | .needs => true
  | _ => false

def RoleClass.allows (k : RoleClass) (g : Group) : Bool :=
  if !g.checked then true else
  match k with
  | .all => true
  | .vector => g.role == .vector
  | .copyVector => g.role == .copy || g.role == .vector
  | .copyOnly => g.role == .copy
  | .matrixOnly => g.role == .matrix
  | .matrixVector => g.role == .matrix || g.role == .vector

/-! ## Operand codes (R79) -/

/-- A code that names a register: v, t or v[x]. -/
def isRegCode (c : Nat) : Bool := decide (c ≤ 0x8B)

/-- A register code lies within the group's allocation; t and v[x] always do. -/
def Group.regOk (g : Group) (c : Nat) : Bool :=
  decide (c < g.vregs) || (decide (0x80 ≤ c) && decide (c ≤ 0x8B))

/-- A source field accepts the code: a register, the pending immediate when one is attached, or a broadcast of an
allocated uniform register. -/
def Group.srcOk (g : Group) (run : Run) (c : Nat) : Bool :=
  g.regOk c || (c == 0x8F && run.imm.isSome) || (decide (0xC0 ≤ c) && decide (c - 0xC0 < g.sregs))

/-- A code that a HOPND may hold: a register or a broadcast of the allocation, or the pending immediate, which an HIMM may
still follow (R79, R99, R100). -/
def Group.hopOk (g : Group) (c : Nat) : Bool :=
  g.regOk c || c == 0x8F || (decide (0xC0 ≤ c) && decide (c - 0xC0 < g.sregs))

/-- A range of v registers lies within the allocation. -/
def Group.rangeOk (g : Group) (r : Nat × Nat) : Bool := decide (r.1 + r.2 ≤ g.vregs)

/-- A range of uniform registers lies within the allocation. -/
def Group.sOk (g : Group) (r : Nat × Nat) : Bool := decide (r.1 + r.2 ≤ g.sregs)

/-- Registers of a code that some lanes of listed slices reach: v[x] reaches the window's registers that index
registers of the lanes name (R79). -/
def Group.codeRegs (g : Group) (lanes : List Nat) (c : Nat) : List Nat :=
  if c < 0x88 then [c] else
  if c ≤ 0x8B then
    (lanes.filterMap (fun l =>
      let x := (g.rf.X (c - 0x88) l).toNat
      if x < g.winlen ∧ g.winbase + x < g.vregs then some (g.winbase + x) else none)).eraseDups
  else []

/-- Numbers of a range. -/
def rangeNums (r : Nat × Nat) : List Nat := (List.range r.2).map (r.1 + ·)

/-- Vector registers a word writes. -/
def Uses.vWrites (u : Uses) (g : Group) (lanes : List Nat) : List Nat :=
  u.vw.flatMap (g.codeRegs lanes) ++ u.vws.flatMap rangeNums

/-- Vector registers a word reads. -/
def Uses.vReads (u : Uses) (g : Group) (run : Run) (lanes : List Nat) : List Nat :=
  (u.vr ++ (match run.hopnd with | some h => if u.hopnd.reads then [h.toNat] else [] | none => [])).flatMap
    (g.codeRegs lanes) ++ u.vrs.flatMap rangeNums

/-! ## The checks of R76 -/

/-- OPERAND, judged from the word, its hints, the run and the allocation (R76 step 4). -/
def Uses.operandBad (u : Uses) (g : Group) (run : Run) : Bool :=
  if u.hint then u.bad else
  u.bad ||
  (match run.hopnd with
   | some h => u.hopnd == .refuse || (u.hopnd.reads && !g.srcOk run h.toNat)
   | none => u.hopnd == .needs) ||
  (run.mpfx.isSome && !u.mpfx) ||
  !u.vr.all (g.srcOk run) ||
  !u.vw.all g.regOk ||
  (u.long.isSome && u.vw.any (fun c => decide (0x80 ≤ c) && decide (c ≤ 0x87))) ||
  !u.vrs.all g.rangeOk || !u.vws.all g.rangeOk || !u.sr.all g.sOk || !u.sw.all g.sOk

/-- RUNFORM reasons 6 and 7 of a long-latency operation (R86, R89). -/
def Uses.formBad (u : Uses) (g : Group) (run : Run) (lanes : List Nat) : Option Nat :=
  if u.long ≠ some true then none else
  if run.fa = 15 then some 6 else
  let vIn (r : Nat) := run.ranges.any (fun p => p.covers false r)
  let sIn (r : Nat) := run.ranges.any (fun p => p.covers true r)
  if (u.vWrites g lanes).all vIn && (u.sw.flatMap rangeNums).all sIn then none else some 7

/-- RUNHAZARD: a pending register, or a temporary not written in this run (R90, R91). -/
def Uses.hazard (u : Uses) (g : Group) (run : Run) (lanes : List Nat) : Bool :=
  if u.hint then false else
  let vr := u.vReads g run lanes
  let vw := u.vWrites g lanes
  (vr ++ vw).any (g.pending false) ||
  ((u.sr ++ u.sw).flatMap rangeNums).any (g.pending true) ||
  u.vr.any (fun c => decide (0xC0 ≤ c) && g.pending true (c - 0xC0)) ||
  (match run.hopnd with | some h => u.hopnd.reads && decide (0xC0 ≤ h.toNat) && g.pending true (h.toNat - 0xC0) | none => false) ||
  vr.any (fun r => decide (0x80 ≤ r) && decide (r ≤ 0x87) && !run.temps.getLsbD (r - 0x80))

/-- The datum of a RUNFORM fault: reason and offset of the word from its CLAUSE (R96, R185). -/
def formDatum (reason off : Nat) : Nat := reason + 256 * (off % 256)

/-- The first check of R76, steps 2 to 6, that the word fails. -/
def checkWord (u : Uses) (c : Cur) (g : Group) (run : Run) : Option FaultInfo :=
  let lanes := lanesOf c.lanes
  if u.priv && !g.sysmode then some { code := 0x02, lanes := c.lanes } else
  if !u.role.allows g then some { code := 0x0E, lanes := c.lanes } else
  if u.operandBad g run then some { code := 0x03, lanes := c.lanes } else
  match u.formBad g run lanes with
  | some r => some { code := 0x04, datum := formDatum r run.off, lanes := c.lanes }
  | none => if u.hazard g run lanes then some { code := 0x0B, lanes := c.lanes } else none

/-! ## Values of operands -/

/-- The register that a code names in a lane; none outside the index window or the allocation (R79, R216). -/
def Group.regAt (g : Group) (rf : RegFile) (c lane : Nat) : Option Nat :=
  if c < 0x88 then some c else
  let x := (rf.X (c - 0x88) lane).toNat
  if x < g.winlen ∧ g.winbase + x < g.vregs then some (g.winbase + x) else none

/-- The 32-bit value of a source operand in a lane; none outside the index window. -/
def Group.srcVal (g : Group) (run : Run) (rf : RegFile) (c lane : Nat) : Option Word :=
  if c = 0x8F then some (run.imm.getD 0) else
  if 0xC0 ≤ c then some (rf.S (c - 0xC0)) else
  (g.regAt rf c lane).map (fun r => rf.V r lane)

/-- The residue of the register that a source reads is right in a lane (R194). -/
def Group.srcClean (g : Group) (rf : RegFile) (c lane : Nat) : Bool :=
  if isRegCode c then
    (match g.regAt rf c lane with | some r => rf.vOk r lane | none => true) &&
    (decide (c < 0x88) || !rf.xbad.contains ((c - 0x88) * 64 + lane))
  else true

/-- Lane-pair: a source differs between a visible lane and its shadow (R431). -/
def Group.pairDiff (g : Group) (run : Run) (u : Uses) (lanes : List Nat) : Option FaultInfo :=
  match g.sh with
  | none => none
  | some sh =>
    if !u.pair then none else
    let bad := lanes.filter (fun l => u.vr.any (fun c => g.srcVal run g.rf c l != g.srcVal run sh c l) ||
      (u.vrs.flatMap rangeNums).any (fun r => g.rf.V r l != sh.V r l) ||
      (match run.hopnd with | some h => g.srcVal run g.rf h.toNat l != g.srcVal run sh h.toNat l | none => false))
    if (u.sr.flatMap rangeNums).any (fun r => g.rf.S r != sh.S r) then
      some { code := 0x1A, datum := 6, lanes := maskOf lanes }
    else if bad.isEmpty then none else some { code := 0x1A, datum := 1, lanes := maskOf bad }

/-! ## The frame of an instruction word -/

/-- A long-latency operation of a word: attached to FA when it writes registers, to FB otherwise, to no flag when that
is 15 (R86). -/
def State.longOp (s : State) (c : Cur) (run : Run) (fa : Bool) (body : OpBody) : Nat × State :=
  let f := if fa then run.fa else run.fb
  s.newOp c (if f = 15 then none else some f) body

/-- What the word wrote is kept: first-write saves of the level (R412) taken from the group before the word, marks of
temporaries written (R91), and destinations of a long-latency operation (R88). -/
def keepWrites (u : Uses) (c : Cur) (g : Group) (s : State) : Option State :=
  let lanes := lanesOf c.lanes
  let vs := (unitSlices c.units).flatMap (fun sl =>
    (u.vWrites g (lanes.filter (fun l => g.sliceOf l == sl))).map (fun r => (sl, r)))
  let ss := u.sw.flatMap rangeNums
  let temps := u.vw.foldl (fun (m : BitVec 8) w =>
    if 0x80 ≤ w ∧ w ≤ 0x87 then m ||| BitVec.twoPow 8 (w - 0x80) else m) 0
  let dests := if u.long = some true then
    (u.vWrites g lanes).map (fun r => Dest.mk 0 false r) ++ ss.map (fun r => Dest.mk 0 true r) else []
  let s := s.onRun c (fun r => { r with temps := r.temps ||| temps, dests := r.dests ++ dests })
  match s.teams.find c.team with
  | none => some s
  | some t =>
    match t.saveAll g ss vs with
    | some t => some (s.putTeam c.team t)
    | none => none

/-- An outcome with what the word wrote kept; a save that does not fit raises RBOVERFLOW and nothing is written (R414). -/
def keep (u : Uses) (c : Cur) (g : Group) (s0 : State) (e : Eff) : Eff :=
  let full : Eff := .fault { code := 0x1C, datum := 2, lanes := c.lanes } s0
  match e with
  | .ok s => match keepWrites u c g s with | some s => .ok s | none => full
  | .hint s => .hint s
  | .free s => .free s
  | .stay s => .stay s
  | .jump s => match keepWrites u c g s with | some s => .jump s | none => full
  | .fault f s => match keepWrites u c g s with | some s => .fault f s | none => full

/-- A run begins at a word that is neither CLAUSE nor BRK: RUNFORM reason 5, named at the word that led there, with the
reached address (R93). -/
def badStart (c : Cur) (g : Group) (s : State) : State :=
  let via := match g.units.filter (fun u => c.units.contains (u.1, u.2.1)) with | u :: _ => u.2.2.via | [] => c.addr
  settle s { c with addr := via } false (.fault { code := 0x04, datum := 5, lanes := c.lanes, faddr := c.addr } s)

/-- The flag counter of a long-latency word is full: it stalls (R86). -/
def flagFull (u : Uses) (g : Group) (run : Run) : Bool :=
  match u.long with
  | none => false
  | some fa => let f := if fa then run.fa else run.fb
    f != 15 && decide (63 ≤ g.flagCount f)

/-- Issue of a word of a run: the checks of R76, then the word's own effect. What the word uses may depend on the hints
attached to it and on the group. A word that its gang has been waiting at goes on without checks (R94). -/
def issueD (uses : Cur → Group → Run → Uses) (own : Cur → Group → Run → State → Eff) (s : State) :
    Host.Outcome State Fault Refusal :=
  match s.cur with
  | none => .fault .noIssuer
  | some c =>
    match s.curGroup? c with
    | none => .fault .noIssuer
    | some g =>
      match g.gang? c.gang with
      | none => .fault .noIssuer
      | some k =>
        match k.run with
        | none => .next (badStart c g s)
        | some run =>
          let u := uses c g run
          if k.wait ≠ .none ∨ run.op.isSome then .next (settle s c true (keep u c g s (own c g run s))) else
          match checkWord u c g run with
          | some f => .next (settle s c true (.fault f s))
          | none =>
            match g.pairDiff run u (lanesOf c.lanes) with
            | some f => .next (settle s c true (.fault f s))
            | none =>
              if flagFull u g run then .next (settle s c true (.stay s))
              else .next (settle s c true (keep u c g s (own c g run s)))

/-- Issue of a word whose uses its fields alone give. -/
def issue (u : Uses) (own : Cur → Group → Run → State → Eff) (s : State) : Host.Outcome State Fault Refusal :=
  issueD (fun _ _ _ => u) own s

/-- A word that only changes the group's register files, both copies of a lane-pair group (R430). -/
def issueFiles (u : Uses) (f : RegFile → RegFile) (s : State) : Host.Outcome State Fault Refusal :=
  issue u (fun c _ _ s => .ok (s.onCur c (fun g => g.files f))) s

/-- Issue of a word that stands at a run's start or end, CLAUSE, ENDRUN or BRK: no check but its own. -/
def issueFree (own : Cur → Group → Option Run → State → Eff) (s : State) : Host.Outcome State Fault Refusal :=
  match s.cur with
  | none => .fault .noIssuer
  | some c =>
    match s.curGroup? c with
    | none => .fault .noIssuer
    | some g =>
      match g.gang? c.gang with
      | none => .fault .noIssuer
      | some k => .next (settle s c k.run.isSome (own c g k.run s))

end Sys2Proof.Machine
end

