-- ==== Sys2Proof/WellFormed.lean ====
section
/-! DEFINITION. Which instruction words hold only assigned field values: a word with a reserved field value raises
ILLEGAL (R76, R106). The check names each field that has reserved values; an operand that a field or the instruction
does not accept is no matter of this file (OPERAND, step 4 of R76). -/

namespace Sys2Proof

/-- FA and FB of CLAUSE: 0-11, or 15 for none; 12-14 are reserved (R78, R84). -/
def goodFlag (f : BitVec 4) : Bool := decide (f.toNat < 12) || decide (f.toNat = 15)

/-- The constructor is an instruction word (a row of the opcode table with bits). -/
def Instr.isWord : Instr → Bool
  | .longLatencyCompletion => false
  | .loadReply => false
  | .storeBlockMerge => false
  | .storeAcknowledge => false
  | .commutativeFlush => false
  | .translationWalk => false
  | .pageMonitorWake => false
  | .walkRetryTimer => false
  | .sectorFillReturn => false
  | .lineHandover => false
  | .shareClearingDone => false
  | .sliceRetentionEntry => false
  | .sliceRetentionExitDone => false
  | .cmlrReservationTimeout => false
  | .bankZeroingDone => false
  | .bankRetentionEntry => false
  | .bankRetentionExitDone => false
  | .giveLand => false
  | .syncWordRaise => false
  | .ringMessageDelivery => false
  | .sendRefusal => false
  | .copyTransfer => false
  | .copyFinish => false
  | .gftPut => false
  | .gftGetRequest => false
  | .gftGetReply => false
  | .gftAtomicRequest => false
  | .gftAtomicReply => false
  | .gftAcknowledgement => false
  | .gftRefusal => false
  | .gftRetransmit => false
  | .remoteOperationTimeout => false
  | .managementFrame => false
  | .kickWrite => false
  | .contextDefine => false
  | .contextDestroy => false
  | .contextDestructionDone => false
  | .contextRecordWrite => false
  | .queueDefine => false
  | .queueUndefine => false
  | .queueEntryWrite => false
  | .nopRecord => false
  | .launchRecord => false
  | .waitRecord => false
  | .loadRecord => false
  | .commandRecordComplete => false
  | .teamPlacement => false
  | .groupRetire => false
  | .teamRetire => false
  | .growDeadlockEviction => false
  | .sleepExpiry => false
  | .groupWatchdogExpiry => false
  | .clusterWatchdogFire => false
  | .commandCoreWatchdogExpiry => false
  | .suspensionLimitExpiry => false
  | .ringClusterWaitTimeout => false
  | .barrierComplete => false
  | .barpGenerationComplete => false
  | .tokenHandover => false
  | .matrixAccumulation => false
  | .levelRollback => false
  | .cycleLimitExpiry => false
  | .conversationFormation => false
  | .conversationCommit => false
  | .conversationJointFailure => false
  | .trailingCopyStart => false
  | .compareMatch => false
  | .compareWaitTimeout => false
  | .injectionPortWrite => false
  | .readBundleSlot => false
  | .writeSlot => false
  | .maintenanceSlot => false
  | .zeroMapBackgroundClear => false
  | .readReplySlot => false
  | .acknowledgementSlot => false
  | .superframeBoundary => false
  | .laneLossOfLock => false
  | .slotCheckFailure => false
  | .linkstallTimeout => false
  | .linkdown => false
  | .linkLive => false
  | .clsresWrite => false
  | .registerWrite => false
  | .moduleReset => false
  | .attestationRequest => false
  | .foxglovePackageLoad => false
  | .inFieldScan => false
  | .thermalThrottle => false
  | .thermalShutdown => false
  | .thermalPowerRemoval => false
  | .reservedWord => false
  | .storageBitError => false
  | .keyEpochInstall => false
  | .thermalThrottleRelease => false
  | _ => true

/-- No field of the instruction holds a reserved value (R76 step 1, R78, R82, R84, R100 to R106, R119, R158, R176, R298). -/
def Instr.wellFormed : Instr → Bool
  | .clause _ a b l => goodFlag a && goodFlag b && decide (1 ≤ l.toNat) && decide (l.toNat ≤ 24)
  | .mpfx o s p c u n => decide (o.toNat ≤ 4) && decide (s.toNat ≤ 5) && decide (p.toNat ≤ 5) && decide (c.toNat ≤ 5) && decide (u.toNat ≤ 5) && decide (n.toNat ≤ 2)
  | .rdsr _ n => decide (n.toNat ≤ 0x1D)
  | .wrsr n _ => decide (n.toNat ≤ 0x1D)
  | .brs c _ _ => decide (c.toNat ≤ 6)
  | .barp _ b => decide (b ≠ 0)
  | .vcmp c _ _ _ => decide (c.toNat < 8)
  | .vcmpa c _ _ _ => decide (c.toNat < 8)
  | .vcmpo c _ _ _ => decide (c.toNat < 8)
  | .vcvt t _ _ _ _ => decide (t.toNat ≤ 9)
  | .vretag t _ _ => decide (t.toNat ≤ 9)
  | .vzip n _ _ => decide (n ≠ 0)
  | .vunzip n _ _ => decide (n ≠ 0)
  | .ld t _ _ _ _ => decide (t.toNat ≤ 9)
  | .st t _ _ _ _ => decide (t.toNat ≤ 9)
  | .lds t _ _ _ _ => decide (t.toNat ≤ 9)
  | .sts t _ _ _ _ => decide (t.toNat ≤ 9)
  | .pref t _ _ => decide (t.toNat ≤ 1)
  | .atom o w _ _ _ => decide (o.toNat ≤ 10) && decide (2 ≤ w.toNat)
  | .atomn o w _ _ _ => decide (o.toNat ≤ 10) && decide (2 ≤ w.toNat)
  | .roleq _ r => decide (r ≠ 3)
  | .regang a m => decide (m = 1) || decide (a = 0)
  | _ => true

abbrev WellFormed (i : Instr) : Prop := i.wellFormed = true

end Sys2Proof
end

