-- ==== Sys2Proof/Decode.lean ====
section
/-! DEFINITION. Words and bytes to instructions and back (R75 to R78, R105, R106): decoding is total and refuses every
unassigned encoding by name; the encoder is written from the same tables. -/

namespace Sys2Proof

/-- Why a word is no instruction (R106). -/
inductive DecodeError where
  | tooShort
  | reservedMajor
  | reservedMinor
  | reservedFunction
  | zeroField
  | reservedValue
  deriving DecidableEq, Repr

/-- Bits lo to lo+n-1 of a word. -/
def fld (w lo n : Nat) : BitVec n := BitVec.ofNat n (w / 2 ^ lo)

/-- Bits lo to lo+n-1 of a word as a number. -/
def bitsAt (w lo n : Nat) : Nat := w / 2 ^ lo % 2 ^ n

/-- The instruction, if every zero field (low bit, width) holds zero (R78). -/
def zeroIn (w : Nat) (zs : List (Nat × Nat)) (i : Instr) : Except DecodeError Instr :=
  if zs.all (fun z => bitsAt w z.1 z.2 == 0) then .ok i else .error .zeroField

/-- Major 0x01 (R105). -/
def decodeMajor01 (w : Nat) : Except DecodeError Instr := zeroIn w [(0, 1)] (.clause (fld w 14 12) (fld w 10 4) (fld w 6 4) (fld w 1 5))

/-- Major 0x02 (R105). -/
def decodeMajor02 (w : Nat) : Except DecodeError Instr := zeroIn w [] (.endrun (fld w 25 1) (fld w 17 8) (fld w 13 4) (fld w 12 1) (fld w 4 8) (fld w 0 4))

/-- Major 0x03 (R105). -/
def decodeMajor03 (w : Nat) : Except DecodeError Instr := zeroIn w [(16, 8)] (.himm (fld w 24 2) (fld w 0 16))

/-- Major 0x04 (R105). -/
def decodeMajor04 (w : Nat) : Except DecodeError Instr := zeroIn w [(0, 16), (24, 2)] (.hopnd (fld w 16 8))

/-- Major 0x05 (R105). -/
def decodeMajor05 (w : Nat) : Except DecodeError Instr := zeroIn w [(0, 9)] (.mpfx (fld w 23 3) (fld w 20 3) (fld w 17 3) (fld w 14 3) (fld w 11 3) (fld w 9 2))

/-- Major 0x06 (R105). -/
def decodeMajor06 (w : Nat) : Except DecodeError Instr :=
  match bitsAt w 20 6 with
  | 0 => zeroIn w [(0, 20)] .nop
  | 1 => zeroIn w [(0, 20)] .hschedYield
  | 2 => zeroIn w [(0, 20)] .hschedPref
  | _ => .error .reservedFunction

/-- Major 0x08 (R105). -/
def decodeMajor08 (w : Nat) : Except DecodeError Instr :=
  match bitsAt w 24 2 with
  | 0 => zeroIn w [] (.sadd (fld w 16 8) (fld w 8 8) (fld w 0 8))
  | 1 => zeroIn w [] (.ssub (fld w 16 8) (fld w 8 8) (fld w 0 8))
  | 2 => zeroIn w [] (.smul (fld w 16 8) (fld w 8 8) (fld w 0 8))
  | _ => zeroIn w [] (.smulh (fld w 16 8) (fld w 8 8) (fld w 0 8))

/-- Major 0x09 (R105). -/
def decodeMajor09 (w : Nat) : Except DecodeError Instr :=
  match bitsAt w 24 2 with
  | 0 => zeroIn w [] (.sand (fld w 16 8) (fld w 8 8) (fld w 0 8))
  | 1 => zeroIn w [] (.sor (fld w 16 8) (fld w 8 8) (fld w 0 8))
  | 2 => zeroIn w [] (.sxor (fld w 16 8) (fld w 8 8) (fld w 0 8))
  | _ => zeroIn w [] (.sandn (fld w 16 8) (fld w 8 8) (fld w 0 8))

/-- Major 0x0A (R105). -/
def decodeMajor0A (w : Nat) : Except DecodeError Instr :=
  match bitsAt w 24 2 with
  | 0 => zeroIn w [] (.sshl (fld w 16 8) (fld w 8 8) (fld w 0 8))
  | 1 => zeroIn w [] (.sshr (fld w 16 8) (fld w 8 8) (fld w 0 8))
  | 2 => zeroIn w [] (.ssar (fld w 16 8) (fld w 8 8) (fld w 0 8))
  | _ => zeroIn w [] (.srot (fld w 16 8) (fld w 8 8) (fld w 0 8))

/-- Major 0x0B (R105). -/
def decodeMajor0B (w : Nat) : Except DecodeError Instr :=
  match bitsAt w 24 2 with
  | 0 => zeroIn w [] (.smin (fld w 16 8) (fld w 8 8) (fld w 0 8))
  | 1 => zeroIn w [] (.smax (fld w 16 8) (fld w 8 8) (fld w 0 8))
  | 2 => zeroIn w [] (.sminu (fld w 16 8) (fld w 8 8) (fld w 0 8))
  | _ => zeroIn w [] (.smaxu (fld w 16 8) (fld w 8 8) (fld w 0 8))

/-- Major 0x0C (R105). -/
def decodeMajor0C (w : Nat) : Except DecodeError Instr :=
  match bitsAt w 24 2 with
  | 0 => zeroIn w [] (.sseq (fld w 16 8) (fld w 8 8) (fld w 0 8))
  | 1 => zeroIn w [] (.ssne (fld w 16 8) (fld w 8 8) (fld w 0 8))
  | 2 => zeroIn w [] (.sslt (fld w 16 8) (fld w 8 8) (fld w 0 8))
  | _ => zeroIn w [] (.ssltu (fld w 16 8) (fld w 8 8) (fld w 0 8))

/-- Major 0x0D (R105). -/
def decodeMajor0D (w : Nat) : Except DecodeError Instr :=
  match bitsAt w 24 2 with
  | 0 => zeroIn w [] (.ssle (fld w 16 8) (fld w 8 8) (fld w 0 8))
  | 1 => zeroIn w [] (.ssleu (fld w 16 8) (fld w 8 8) (fld w 0 8))
  | 2 => zeroIn w [] (.ssel (fld w 16 8) (fld w 8 8) (fld w 0 8))
  | _ => zeroIn w [] (.smov (fld w 16 8) (fld w 8 8) (fld w 0 8))

/-- Major 0x0E (R105). -/
def decodeMajor0E (w : Nat) : Except DecodeError Instr :=
  match bitsAt w 24 2 with
  | 0 => zeroIn w [] (.sli (fld w 16 8) (fld w 0 16))
  | 1 => zeroIn w [] (.sliu (fld w 16 8) (fld w 0 16))
  | 2 => zeroIn w [] (.slih (fld w 16 8) (fld w 0 16))
  | _ => zeroIn w [] (.saddi (fld w 16 8) (fld w 0 16))

/-- Major 0x0F (R105). -/
def decodeMajor0F (w : Nat) : Except DecodeError Instr :=
  match bitsAt w 20 6 with
  | 0 => zeroIn w [(0, 4)] (.spopc (fld w 12 8) (fld w 4 8))
  | 1 => zeroIn w [(0, 4)] (.sclz (fld w 12 8) (fld w 4 8))
  | 2 => zeroIn w [(0, 4)] (.sbrev (fld w 12 8) (fld w 4 8))
  | 3 => zeroIn w [(1, 3)] (.sbfe (fld w 12 8) (fld w 4 8) (fld w 0 1))
  | 4 => zeroIn w [(0, 4)] (.sbfi (fld w 12 8) (fld w 4 8))
  | 5 => zeroIn w [(0, 4)] (.smovh (fld w 12 8) (fld w 4 8))
  | 6 => zeroIn w [(0, 4)] (.smovl (fld w 12 8) (fld w 4 8))
  | 7 => zeroIn w [(0, 4)] (.sadd64 (fld w 12 8) (fld w 4 8))
  | 8 => zeroIn w [(0, 4)] (.ssub64 (fld w 12 8) (fld w 4 8))
  | 9 => zeroIn w [(0, 4)] (.sshl64 (fld w 12 8) (fld w 4 8))
  | 10 => zeroIn w [(1, 3)] (.sshr64 (fld w 12 8) (fld w 4 8) (fld w 0 1))
  | 11 => zeroIn w [(1, 3)] (.smulw (fld w 12 8) (fld w 4 8) (fld w 0 1))
  | 12 => zeroIn w [(0, 4)] (.rdsr (fld w 12 8) (fld w 4 8))
  | 13 => zeroIn w [(0, 4)] (.wrsr (fld w 12 8) (fld w 4 8))
  | _ => .error .reservedFunction

/-- Major 0x10 (R105). -/
def decodeMajor10 (w : Nat) : Except DecodeError Instr := zeroIn w [] (.brs (fld w 22 4) (fld w 14 8) (fld w 0 14))

/-- Major 0x11 (R105). -/
def decodeMajor11 (w : Nat) : Except DecodeError Instr := zeroIn w [] (.dbr (fld w 23 3) (fld w 22 1) (fld w 11 11) (fld w 0 11))

/-- Major 0x12 (R105). -/
def decodeMajor12 (w : Nat) : Except DecodeError Instr := zeroIn w [] (.call (fld w 0 26))

/-- Major 0x13 (R105). -/
def decodeMajor13 (w : Nat) : Except DecodeError Instr := zeroIn w [] (.loop (fld w 18 8) (fld w 0 18))

/-- Major 0x14 (R105). -/
def decodeMajor14 (w : Nat) : Except DecodeError Instr :=
  match bitsAt w 20 6 with
  | 0 => zeroIn w [(0, 20)] .ret
  | 1 => zeroIn w [(0, 12)] (.brx (fld w 12 8))
  | 2 => zeroIn w [(0, 20)] .exit
  | 3 => zeroIn w [(1, 11)] (.regang (fld w 12 8) (fld w 0 1))
  | 4 => zeroIn w [(0, 20)] .bar
  | 5 => zeroIn w [(4, 8)] (.barp (fld w 12 8) (fld w 0 4))
  | 6 => zeroIn w [(0, 20)] .yield
  | 7 => zeroIn w [(0, 4), (12, 8)] (.sleep (fld w 4 8))
  | 8 => zeroIn w [(0, 4)] (.waitev (fld w 12 8) (fld w 4 8))
  | 9 => zeroIn w [(0, 4)] (.sigev (fld w 12 8) (fld w 4 8))
  | 10 => zeroIn w [(12, 8)] (.trap (fld w 0 12))
  | 11 => zeroIn w [] (.syscall (fld w 12 8) (fld w 0 12))
  | 12 => zeroIn w [(0, 4), (12, 8)] (.grow (fld w 4 8))
  | 13 => zeroIn w [(0, 4), (12, 8)] (.shrink (fld w 4 8))
  | 14 => zeroIn w [(4, 16)] (.setpart (fld w 0 4))
  | 15 => zeroIn w [(3, 9)] (.elect (fld w 12 8) (fld w 0 3))
  | 16 => zeroIn w [(1, 19)] (.eret (fld w 0 1))
  | 17 => zeroIn w [(0, 20)] .halt
  | 18 => zeroIn w [(0, 12)] (.errinj (fld w 12 8))
  | _ => .error .reservedFunction

/-- Major 0x18 (R105). -/
def decodeMajor18 (w : Nat) : Except DecodeError Instr :=
  match bitsAt w 24 2 with
  | 0 => zeroIn w [] (.vadd (fld w 16 8) (fld w 8 8) (fld w 0 8))
  | 1 => zeroIn w [] (.vsub (fld w 16 8) (fld w 8 8) (fld w 0 8))
  | 2 => zeroIn w [] (.vmul (fld w 16 8) (fld w 8 8) (fld w 0 8))
  | _ => zeroIn w [] (.vma (fld w 16 8) (fld w 8 8) (fld w 0 8))

/-- Major 0x19 (R105). -/
def decodeMajor19 (w : Nat) : Except DecodeError Instr :=
  match bitsAt w 24 2 with
  | 0 => zeroIn w [] (.vmin (fld w 16 8) (fld w 8 8) (fld w 0 8))
  | 1 => zeroIn w [] (.vmax (fld w 16 8) (fld w 8 8) (fld w 0 8))
  | 2 => zeroIn w [] (.vmulh (fld w 16 8) (fld w 8 8) (fld w 0 8))
  | _ => zeroIn w [] (.vmad (fld w 16 8) (fld w 8 8) (fld w 0 8))

/-- Major 0x1A (R105). -/
def decodeMajor1A (w : Nat) : Except DecodeError Instr :=
  match bitsAt w 24 2 with
  | 0 => zeroIn w [] (.vand (fld w 16 8) (fld w 8 8) (fld w 0 8))
  | 1 => zeroIn w [] (.vor (fld w 16 8) (fld w 8 8) (fld w 0 8))
  | 2 => zeroIn w [] (.vxor (fld w 16 8) (fld w 8 8) (fld w 0 8))
  | _ => zeroIn w [] (.vandn (fld w 16 8) (fld w 8 8) (fld w 0 8))

/-- Major 0x1B (R105). -/
def decodeMajor1B (w : Nat) : Except DecodeError Instr := zeroIn w [] (.vsel (fld w 24 2) (fld w 16 8) (fld w 8 8) (fld w 0 8))

/-- Major 0x1C (R105). -/
def decodeMajor1C (w : Nat) : Except DecodeError Instr :=
  match bitsAt w 24 2 with
  | 0 => zeroIn w [] (.vshl (fld w 16 8) (fld w 8 8) (fld w 0 8))
  | 1 => zeroIn w [] (.vshr (fld w 16 8) (fld w 8 8) (fld w 0 8))
  | 2 => zeroIn w [] (.vbfe (fld w 16 8) (fld w 8 8) (fld w 0 8))
  | _ => zeroIn w [] (.vbfi (fld w 16 8) (fld w 8 8) (fld w 0 8))

/-- Major 0x1D (R105). -/
def decodeMajor1D (w : Nat) : Except DecodeError Instr :=
  match bitsAt w 24 2 with
  | 0 => zeroIn w [] (.vsadd (fld w 16 8) (fld w 8 8) (fld w 0 8))
  | 1 => zeroIn w [] (.vssub (fld w 16 8) (fld w 8 8) (fld w 0 8))
  | 2 => zeroIn w [] (.vdot2 (fld w 16 8) (fld w 8 8) (fld w 0 8))
  | _ => zeroIn w [] (.vdot4 (fld w 16 8) (fld w 8 8) (fld w 0 8))

/-- Major 0x1E (R105). -/
def decodeMajor1E (w : Nat) : Except DecodeError Instr :=
  match bitsAt w 24 2 with
  | 0 => zeroIn w [] (.vcmp (fld w 19 5) (fld w 16 3) (fld w 8 8) (fld w 0 8))
  | 1 => zeroIn w [] (.vcmpa (fld w 19 5) (fld w 16 3) (fld w 8 8) (fld w 0 8))
  | 2 => zeroIn w [] (.vcmpo (fld w 19 5) (fld w 16 3) (fld w 8 8) (fld w 0 8))
  | _ => .error .reservedMinor

/-- Major 0x1F (R105). -/
def decodeMajor1F (w : Nat) : Except DecodeError Instr :=
  if bitsAt w 18 1 = 0 then zeroIn w [(16, 2)] (.vcvt (fld w 22 4) (fld w 20 2) (fld w 19 1) (fld w 8 8) (fld w 0 8))
  else zeroIn w [(16, 2), (19, 3)] (.vretag (fld w 22 4) (fld w 8 8) (fld w 0 8))

/-- Major 0x20 (R105). -/
def decodeMajor20 (w : Nat) : Except DecodeError Instr :=
  match bitsAt w 20 6 with
  | 0 => zeroIn w [(0, 4)] (.vmov (fld w 12 8) (fld w 4 8))
  | 1 => zeroIn w [(0, 3)] (.vmovs (fld w 12 8) (fld w 3 9))
  | 2 => zeroIn w [] (.vli (fld w 12 8) (fld w 0 12))
  | 3 => zeroIn w [(0, 12)] (.vlane (fld w 12 8))
  | 4 => zeroIn w [(0, 12)] (.vtid (fld w 12 8))
  | 5 => zeroIn w [(0, 12)] (.vslice (fld w 12 8))
  | 6 => zeroIn w [(0, 12)] (.vactive (fld w 12 8))
  | _ => .error .reservedFunction

/-- Major 0x21 (R105). -/
def decodeMajor21 (w : Nat) : Except DecodeError Instr :=
  match bitsAt w 24 2 with
  | 0 => zeroIn w [] (.pand (fld w 16 8) (fld w 8 8) (fld w 0 8))
  | 1 => zeroIn w [] (.por (fld w 16 8) (fld w 8 8) (fld w 0 8))
  | 2 => zeroIn w [] (.pxor (fld w 16 8) (fld w 8 8) (fld w 0 8))
  | _ => zeroIn w [] (.pandn (fld w 16 8) (fld w 8 8) (fld w 0 8))

/-- Major 0x22 (R105). -/
def decodeMajor22 (w : Nat) : Except DecodeError Instr :=
  match bitsAt w 20 6 with
  | 0 => zeroIn w [(0, 4)] (.vrcp (fld w 12 8) (fld w 4 8))
  | 1 => zeroIn w [(0, 4)] (.vrsq (fld w 12 8) (fld w 4 8))
  | 2 => zeroIn w [(0, 4)] (.vsqrt (fld w 12 8) (fld w 4 8))
  | 3 => zeroIn w [(0, 4)] (.vexp2 (fld w 12 8) (fld w 4 8))
  | 4 => zeroIn w [(0, 4)] (.vlog2 (fld w 12 8) (fld w 4 8))
  | 5 => zeroIn w [(0, 4)] (.vsin (fld w 12 8) (fld w 4 8))
  | 6 => zeroIn w [(0, 4)] (.vcos (fld w 12 8) (fld w 4 8))
  | 7 => zeroIn w [(0, 4)] (.vtanh (fld w 12 8) (fld w 4 8))
  | 8 => zeroIn w [(0, 4)] (.vfrac (fld w 12 8) (fld w 4 8))
  | 9 => zeroIn w [(2, 2)] (.vround (fld w 12 8) (fld w 4 8) (fld w 0 2))
  | 10 => zeroIn w [(0, 4)] (.vclass (fld w 12 8) (fld w 4 8))
  | 11 => zeroIn w [(0, 4)] (.vabs (fld w 12 8) (fld w 4 8))
  | 12 => zeroIn w [(0, 4)] (.vneg (fld w 12 8) (fld w 4 8))
  | 13 => zeroIn w [(0, 4)] (.vnot (fld w 12 8) (fld w 4 8))
  | 14 => zeroIn w [(0, 4)] (.vclz (fld w 12 8) (fld w 4 8))
  | 15 => zeroIn w [(0, 4)] (.vpopc (fld w 12 8) (fld w 4 8))
  | 16 => zeroIn w [(0, 4)] (.vbrev (fld w 12 8) (fld w 4 8))
  | _ => .error .reservedFunction

/-- Major 0x23 (R105). -/
def decodeMajor23 (w : Nat) : Except DecodeError Instr :=
  match bitsAt w 20 6 with
  | 0 => zeroIn w [(0, 4)] (.vshfl (fld w 12 8) (fld w 4 8))
  | 1 => zeroIn w [(0, 4)] (.vshflu (fld w 12 8) (fld w 4 8))
  | 2 => zeroIn w [(0, 4)] (.vshfld (fld w 12 8) (fld w 4 8))
  | 3 => zeroIn w [(0, 4)] (.vshflx (fld w 12 8) (fld w 4 8))
  | 4 => zeroIn w [(0, 4)] (.vbcast (fld w 12 8) (fld w 4 8))
  | 5 => zeroIn w [(0, 4)] (.vvoteany (fld w 12 8) (fld w 4 8))
  | 6 => zeroIn w [(0, 4)] (.vvoteall (fld w 12 8) (fld w 4 8))
  | 7 => zeroIn w [(0, 4)] (.vballot (fld w 12 8) (fld w 4 8))
  | 8 => zeroIn w [(0, 1)] (.vredadd (fld w 12 8) (fld w 4 8) (fld w 2 2) (fld w 1 1))
  | 9 => zeroIn w [(0, 1)] (.vredmin (fld w 12 8) (fld w 4 8) (fld w 2 2) (fld w 1 1))
  | 10 => zeroIn w [(0, 1)] (.vredmax (fld w 12 8) (fld w 4 8) (fld w 2 2) (fld w 1 1))
  | 11 => zeroIn w [(0, 1)] (.vredand (fld w 12 8) (fld w 4 8) (fld w 2 2) (fld w 1 1))
  | 12 => zeroIn w [(0, 1)] (.vredor (fld w 12 8) (fld w 4 8) (fld w 2 2) (fld w 1 1))
  | 13 => zeroIn w [(0, 1)] (.vredxor (fld w 12 8) (fld w 4 8) (fld w 2 2) (fld w 1 1))
  | 14 => zeroIn w [(1, 1)] (.vscanadd (fld w 12 8) (fld w 4 8) (fld w 2 2) (fld w 0 1))
  | 15 => zeroIn w [(1, 1)] (.vscanmin (fld w 12 8) (fld w 4 8) (fld w 2 2) (fld w 0 1))
  | 16 => zeroIn w [(1, 1)] (.vscanmax (fld w 12 8) (fld w 4 8) (fld w 2 2) (fld w 0 1))
  | _ => .error .reservedFunction

/-- Major 0x24 (R105). -/
def decodeMajor24 (w : Nat) : Except DecodeError Instr :=
  if bitsAt w 23 1 = 0 then zeroIn w [(16, 7)] (.vzip (fld w 24 2) (fld w 8 8) (fld w 0 8))
  else zeroIn w [(16, 7)] (.vunzip (fld w 24 2) (fld w 8 8) (fld w 0 8))

/-- Major 0x25 (R105). -/
def decodeMajor25 (w : Nat) : Except DecodeError Instr :=
  match bitsAt w 20 6 with
  | 0 => zeroIn w [(0, 4), (14, 6)] (.xset (fld w 12 2) (fld w 4 8))
  | 1 => zeroIn w [(0, 4), (14, 6)] (.xadd (fld w 12 2) (fld w 4 8))
  | 2 => zeroIn w [(0, 4)] (.xwin (fld w 12 8) (fld w 4 8))
  | 3 => zeroIn w [] (.vrand (fld w 12 8) (fld w 4 8) (fld w 0 4))
  | 4 => zeroIn w [] (.vrandu (fld w 12 8) (fld w 4 8) (fld w 0 4))
  | _ => .error .reservedFunction

/-- Major 0x28 (R105). -/
def decodeMajor28 (w : Nat) : Except DecodeError Instr := zeroIn w [] (.ld (fld w 22 4) (fld w 20 2) (fld w 12 8) (fld w 4 8) (fld w 0 4))

/-- Major 0x29 (R105). -/
def decodeMajor29 (w : Nat) : Except DecodeError Instr := zeroIn w [] (.st (fld w 22 4) (fld w 20 2) (fld w 12 8) (fld w 4 8) (fld w 0 4))

/-- Major 0x2A (R105). -/
def decodeMajor2A (w : Nat) : Except DecodeError Instr := zeroIn w [] (.lds (fld w 22 4) (fld w 20 2) (fld w 12 8) (fld w 4 8) (fld w 0 4))

/-- Major 0x2B (R105). -/
def decodeMajor2B (w : Nat) : Except DecodeError Instr := zeroIn w [] (.sts (fld w 22 4) (fld w 20 2) (fld w 12 8) (fld w 4 8) (fld w 0 4))

/-- Major 0x2C (R105). -/
def decodeMajor2C (w : Nat) : Except DecodeError Instr :=
  match bitsAt w 20 6 with
  | 0 => zeroIn w [(0, 7)] (.ldu (fld w 11 9) (fld w 7 4))
  | 1 => zeroIn w [(0, 7)] (.stu (fld w 11 9) (fld w 7 4))
  | 2 => zeroIn w [(0, 7)] (.ldsu (fld w 11 9) (fld w 7 4))
  | 3 => zeroIn w [(0, 7)] (.stsu (fld w 11 9) (fld w 7 4))
  | 4 => zeroIn w [(12, 6)] (.pref (fld w 18 2) (fld w 4 8) (fld w 0 4))
  | 5 => zeroIn w [(0, 20)] .fence
  | 6 => zeroIn w [(0, 20)] .invl1
  | 7 => zeroIn w [] (.probe (fld w 12 8) (fld w 4 8) (fld w 0 4))
  | 8 => zeroIn w [(0, 4)] (.invpg (fld w 12 8) (fld w 4 8))
  | _ => .error .reservedFunction

/-- Major 0x30 (R105). -/
def decodeMajor30 (w : Nat) : Except DecodeError Instr := zeroIn w [] (.atom (fld w 22 4) (fld w 20 2) (fld w 12 8) (fld w 4 8) (fld w 0 4))

/-- Major 0x31 (R105). -/
def decodeMajor31 (w : Nat) : Except DecodeError Instr := zeroIn w [] (.atomn (fld w 22 4) (fld w 20 2) (fld w 12 8) (fld w 4 8) (fld w 0 4))

/-- Major 0x32 (R105). -/
def decodeMajor32 (w : Nat) : Except DecodeError Instr :=
  match bitsAt w 20 6 with
  | 0 => zeroIn w [(2, 2), (12, 8)] (.cmlr (fld w 4 8) (fld w 0 2))
  | 1 => zeroIn w [(2, 2)] (.cmls (fld w 12 8) (fld w 4 8) (fld w 0 2))
  | 2 => zeroIn w [(0, 4)] (.seal (fld w 12 8) (fld w 4 8))
  | 3 => zeroIn w [(0, 4)] (.unseal (fld w 12 8) (fld w 4 8))
  | 4 => zeroIn w [(0, 4)] (.wobseal (fld w 12 8) (fld w 4 8))
  | 5 => zeroIn w [(0, 4), (12, 8)] (.wobrel (fld w 4 8))
  | 6 => zeroIn w [(0, 4)] (.discard (fld w 12 8) (fld w 4 8))
  | 7 => zeroIn w [(0, 4)] (.flush (fld w 12 8) (fld w 4 8))
  | 8 => zeroIn w [(0, 4)] (.vcquery (fld w 12 8) (fld w 4 8))
  | 9 => zeroIn w [(0, 12)] (.vcdef (fld w 12 8))
  | 10 =>
    if bitsAt w 0 1 = 0 then zeroIn w [(1, 11)] (.vcresize (fld w 12 8))
    else zeroIn w [(1, 11)] (.vcresizeMove (fld w 12 8))
  | _ => .error .reservedFunction

/-- Major 0x34 (R105). -/
def decodeMajor34 (w : Nat) : Except DecodeError Instr :=
  match bitsAt w 20 6 with
  | 0 => zeroIn w [(4, 8)] (.btake (fld w 12 8) (fld w 0 4))
  | 1 => zeroIn w [(4, 16)] (.bfree (fld w 0 4))
  | 2 => zeroIn w [(4, 5)] (.bgive (fld w 12 8) (fld w 9 3) (fld w 0 4))
  | 3 => zeroIn w [] (.bopen (fld w 12 8) (fld w 4 8) (fld w 0 4))
  | 4 => zeroIn w [(5, 15)] (.bdrain (fld w 4 1) (fld w 0 4))
  | 5 => zeroIn w [(5, 7)] (.bquery (fld w 12 8) (fld w 4 1) (fld w 0 4))
  | 6 => zeroIn w [(0, 4)] (.swinit (fld w 12 8) (fld w 4 8))
  | 7 => zeroIn w [(0, 4)] (.swadd (fld w 12 8) (fld w 4 8))
  | 8 => zeroIn w [(0, 4)] (.swwait (fld w 12 8) (fld w 4 8))
  | 9 => zeroIn w [(0, 4)] (.swread (fld w 12 8) (fld w 4 8))
  | 10 => zeroIn w [(0, 4)] (.ringdef (fld w 12 8) (fld w 4 8))
  | 11 => zeroIn w [(0, 4)] (.send (fld w 12 8) (fld w 4 8))
  | 12 => zeroIn w [(0, 4)] (.ringack (fld w 12 8) (fld w 4 8))
  | 13 => zeroIn w [(0, 4)] (.ringwait (fld w 12 8) (fld w 4 8))
  | _ => .error .reservedFunction

/-- Major 0x36 (R105). -/
def decodeMajor36 (w : Nat) : Except DecodeError Instr :=
  match bitsAt w 20 6 with
  | 0 => zeroIn w [(0, 4), (12, 8)] (.copy (fld w 4 8))
  | 1 => zeroIn w [(0, 4), (12, 8)] (.copy2d (fld w 4 8))
  | 2 => zeroIn w [(0, 4), (12, 8)] (.cgath (fld w 4 8))
  | 3 => zeroIn w [(0, 4), (12, 8)] (.cscat (fld w 4 8))
  | 4 => zeroIn w [(0, 4), (12, 8)] (.cfill (fld w 4 8))
  | 5 => zeroIn w [(4, 16)] (.cseal (fld w 0 4))
  | 6 => zeroIn w [(5, 7)] (.cwait (fld w 12 8) (fld w 4 1) (fld w 0 4))
  | 7 => zeroIn w [(4, 8)] (.cstat (fld w 12 8) (fld w 0 4))
  | 8 => zeroIn w [(0, 4), (12, 8)] (.rput (fld w 4 8))
  | 9 => zeroIn w [(0, 4), (12, 8)] (.rget (fld w 4 8))
  | 10 => zeroIn w [(0, 4)] (.ratom (fld w 12 8) (fld w 4 8))
  | 11 => zeroIn w [(0, 4)] (.wexport (fld w 12 8) (fld w 4 8))
  | 12 => zeroIn w [(0, 4), (12, 8)] (.wrevoke (fld w 4 8))
  | _ => .error .reservedFunction

/-- Major 0x38 (R105). -/
def decodeMajor38 (w : Nat) : Except DecodeError Instr :=
  match bitsAt w 20 6 with
  | 0 => zeroIn w [(0, 4), (12, 8)] (.qkick (fld w 4 8))
  | 1 => zeroIn w [(0, 4)] (.launch (fld w 12 8) (fld w 4 8))
  | 2 => zeroIn w [(0, 4), (12, 8)] (.qwait (fld w 4 8))
  | 3 => zeroIn w [(0, 4), (14, 6)] (.stageinit (fld w 12 2) (fld w 4 8))
  | 4 => zeroIn w [(3, 9), (14, 6)] (.stagearv (fld w 12 2) (fld w 0 3))
  | 5 => zeroIn w [(4, 8), (14, 6)] (.stagewt (fld w 12 2) (fld w 3 1) (fld w 0 3))
  | 6 => zeroIn w [(2, 10)] (.roleq (fld w 12 8) (fld w 0 2))
  | 7 =>
    match bitsAt w 0 4 with
    | 0 => .ok (.preemptSuspend (fld w 12 8) (fld w 4 8))
    | 1 => .ok (.preemptResume (fld w 12 8) (fld w 4 8))
    | 2 => .ok (.preemptEvict (fld w 12 8) (fld w 4 8))
    | 3 => .ok (.preemptTerminate (fld w 12 8) (fld w 4 8))
    | 4 => .ok (.preemptSysresume (fld w 12 8) (fld w 4 8))
    | 5 => .ok (.preemptCldrain (fld w 12 8) (fld w 4 8))
    | 6 => .ok (.preemptClopen (fld w 12 8) (fld w 4 8))
    | 7 => .ok (.preemptCloff (fld w 12 8) (fld w 4 8))
    | _ => .error .reservedValue
  | 8 => zeroIn w [(0, 4)] (.ctxsave (fld w 12 8) (fld w 4 8))
  | 9 => zeroIn w [(0, 4)] (.ctxload (fld w 12 8) (fld w 4 8))
  | _ => .error .reservedFunction

/-- Major 0x39 (R105). -/
def decodeMajor39 (w : Nat) : Except DecodeError Instr :=
  match bitsAt w 20 6 with
  | 0 => zeroIn w [(0, 10)] (.mcfg (fld w 18 2) (fld w 10 8))
  | 1 => zeroIn w [(1, 1)] (.mmp (fld w 18 2) (fld w 10 8) (fld w 2 8) (fld w 0 1))
  | 2 => zeroIn w [(1, 1)] (.mmpb (fld w 18 2) (fld w 10 8) (fld w 2 8) (fld w 0 1))
  | 3 => zeroIn w [(1, 1)] (.mmpg (fld w 18 2) (fld w 10 8) (fld w 2 8) (fld w 0 1))
  | 4 => zeroIn w [(0, 18)] (.mzero (fld w 18 2))
  | 5 => zeroIn w [(0, 10)] (.tokpass (fld w 18 2) (fld w 10 8))
  | 6 => zeroIn w [(0, 18)] (.tokwait (fld w 18 2))
  | 7 => zeroIn w [(1, 1)] (.tread (fld w 18 2) (fld w 10 8) (fld w 2 8) (fld w 0 1))
  | 8 => zeroIn w [(1, 1)] (.twrite (fld w 18 2) (fld w 10 8) (fld w 2 8) (fld w 0 1))
  | 9 => zeroIn w [(1, 1), (4, 6)] (.tchk (fld w 18 2) (fld w 10 8) (fld w 3 1) (fld w 2 1) (fld w 0 1))
  | 10 => zeroIn w [(1, 9)] (.mdrain (fld w 18 2) (fld w 10 8) (fld w 0 1))
  | _ => .error .reservedFunction

/-- Major 0x3A (R105). -/
def decodeMajor3A (w : Nat) : Except DecodeError Instr :=
  match bitsAt w 20 6 with
  | 0 => zeroIn w [] (.ensure (fld w 12 8) (fld w 0 12))
  | 1 => zeroIn w [(12, 8)] (.elseby (fld w 0 12))
  | 2 => zeroIn w [(0, 20)] .elseerr
  | 3 => zeroIn w [(3, 17)] (.verdict (fld w 0 3))
  | 4 => zeroIn w [(0, 4), (12, 8)] (.convjoin (fld w 4 8))
  | 5 => zeroIn w [(0, 12)] (.rbstat (fld w 12 8))
  | 6 => zeroIn w [(8, 12)] (.rbfail (fld w 0 8))
  | 7 => zeroIn w [(0, 12)] (.cmpstat (fld w 12 8))
  | 8 => zeroIn w [(3, 1), (5, 7)] (.cmppoint (fld w 12 8) (fld w 4 1) (fld w 0 3))
  | _ => .error .reservedFunction

/-- Major 0x3B (R105). -/
def decodeMajor3B (w : Nat) : Except DecodeError Instr :=
  match bitsAt w 20 6 with
  | 0 => zeroIn w [(3, 1), (12, 8)] (.lnkpark (fld w 4 8) (fld w 0 3))
  | 1 => zeroIn w [(3, 1), (12, 8)] (.lnkwake (fld w 4 8) (fld w 0 3))
  | 2 => zeroIn w [(3, 9)] (.lnkstat (fld w 12 8) (fld w 0 3))
  | 3 => zeroIn w [(3, 1), (12, 8)] (.slotld (fld w 4 8) (fld w 0 3))
  | 4 => zeroIn w [(3, 17)] (.slotsw (fld w 0 3))
  | 5 => zeroIn w [(3, 1), (12, 8)] (.lnkthr (fld w 4 8) (fld w 0 3))
  | 6 => zeroIn w [(3, 17)] (.lnkretrain (fld w 0 3))
  | _ => .error .reservedFunction

/-- Major 0x3F (R105). -/
def decodeMajor3F (w : Nat) : Except DecodeError Instr :=
  if w = 0xFFFFFFFF then .ok .brk else .error .reservedValue

/-- The raw reading of a word: formats, zero fields, functions (R78, R105). -/
def decodeRaw (w : Nat) : Except DecodeError Instr :=
  match bitsAt w 26 6 with
  | 1 => decodeMajor01 w
  | 2 => decodeMajor02 w
  | 3 => decodeMajor03 w
  | 4 => decodeMajor04 w
  | 5 => decodeMajor05 w
  | 6 => decodeMajor06 w
  | 8 => decodeMajor08 w
  | 9 => decodeMajor09 w
  | 10 => decodeMajor0A w
  | 11 => decodeMajor0B w
  | 12 => decodeMajor0C w
  | 13 => decodeMajor0D w
  | 14 => decodeMajor0E w
  | 15 => decodeMajor0F w
  | 16 => decodeMajor10 w
  | 17 => decodeMajor11 w
  | 18 => decodeMajor12 w
  | 19 => decodeMajor13 w
  | 20 => decodeMajor14 w
  | 24 => decodeMajor18 w
  | 25 => decodeMajor19 w
  | 26 => decodeMajor1A w
  | 27 => decodeMajor1B w
  | 28 => decodeMajor1C w
  | 29 => decodeMajor1D w
  | 30 => decodeMajor1E w
  | 31 => decodeMajor1F w
  | 32 => decodeMajor20 w
  | 33 => decodeMajor21 w
  | 34 => decodeMajor22 w
  | 35 => decodeMajor23 w
  | 36 => decodeMajor24 w
  | 37 => decodeMajor25 w
  | 40 => decodeMajor28 w
  | 41 => decodeMajor29 w
  | 42 => decodeMajor2A w
  | 43 => decodeMajor2B w
  | 44 => decodeMajor2C w
  | 48 => decodeMajor30 w
  | 49 => decodeMajor31 w
  | 50 => decodeMajor32 w
  | 52 => decodeMajor34 w
  | 54 => decodeMajor36 w
  | 56 => decodeMajor38 w
  | 57 => decodeMajor39 w
  | 58 => decodeMajor3A w
  | 59 => decodeMajor3B w
  | 63 => decodeMajor3F w
  | _ => .error .reservedMajor

/-- A 32-bit word as an instruction: total, refusing by name every word that R106 calls unassigned. -/
def decodeWord (w : Nat) : Except DecodeError Instr :=
  match decodeRaw w with
  | .error e => .error e
  | .ok i => if i.wellFormed then .ok i else .error .reservedValue

/-- Little-endian value of a list of bytes (R4). -/
def leNat : List (BitVec 8) → Nat
  | [] => 0
  | b :: bs => b.toNat + 256 * leNat bs

/-- The n low bytes of a number, lowest first (R4). -/
def leBytes : Nat → Nat → List (BitVec 8)
  | 0, _ => []
  | n + 1, v => BitVec.ofNat 8 v :: leBytes n (v / 256)

/-- An instruction from bytes in memory order: one little-endian word of four bytes (R75). -/
def decode : List (BitVec 8) → Except DecodeError (Instr × List (BitVec 8))
  | b0 :: b1 :: b2 :: b3 :: rest =>
    match decodeWord (leNat [b0, b1, b2, b3]) with
    | .ok i => .ok (i, rest)
    | .error e => .error e
  | _ => .error .tooShort

/-- A word from its fixed bits and its fields (value, low bit). -/
def asm (fixed : Nat) (fs : List (Nat × Nat)) : Nat := fs.foldl (fun w f => w + f.1 * 2 ^ f.2) fixed

/-- The word of an instruction; 0, the reserved all-zero word, for a step that has no word. -/
def encodeWord : Instr → Nat
  | .clause w a b l => asm 0x04000000 [(w.toNat, 14), (a.toNat, 10), (b.toNat, 6), (l.toNat, 1)]
  | .endrun c f n k g m => asm 0x08000000 [(c.toNat, 25), (f.toNat, 17), (n.toNat, 13), (k.toNat, 12), (g.toNat, 4), (m.toNat, 0)]
  | .himm p v => asm 0x0C000000 [(p.toNat, 24), (v.toNat, 0)]
  | .hopnd o => asm 0x10000000 [(o.toNat, 16)]
  | .mpfx o s p c u n => asm 0x14000000 [(o.toNat, 23), (s.toNat, 20), (p.toNat, 17), (c.toNat, 14), (u.toNat, 11), (n.toNat, 9)]
  | .nop => asm 0x18000000 []
  | .hschedYield => asm 0x18100000 []
  | .hschedPref => asm 0x18200000 []
  | .sadd d a b => asm 0x20000000 [(d.toNat, 16), (a.toNat, 8), (b.toNat, 0)]
  | .ssub d a b => asm 0x21000000 [(d.toNat, 16), (a.toNat, 8), (b.toNat, 0)]
  | .smul d a b => asm 0x22000000 [(d.toNat, 16), (a.toNat, 8), (b.toNat, 0)]
  | .smulh d a b => asm 0x23000000 [(d.toNat, 16), (a.toNat, 8), (b.toNat, 0)]
  | .sand d a b => asm 0x24000000 [(d.toNat, 16), (a.toNat, 8), (b.toNat, 0)]
  | .sor d a b => asm 0x25000000 [(d.toNat, 16), (a.toNat, 8), (b.toNat, 0)]
  | .sxor d a b => asm 0x26000000 [(d.toNat, 16), (a.toNat, 8), (b.toNat, 0)]
  | .sandn d a b => asm 0x27000000 [(d.toNat, 16), (a.toNat, 8), (b.toNat, 0)]
  | .sshl d a b => asm 0x28000000 [(d.toNat, 16), (a.toNat, 8), (b.toNat, 0)]
  | .sshr d a b => asm 0x29000000 [(d.toNat, 16), (a.toNat, 8), (b.toNat, 0)]
  | .ssar d a b => asm 0x2A000000 [(d.toNat, 16), (a.toNat, 8), (b.toNat, 0)]
  | .srot d a b => asm 0x2B000000 [(d.toNat, 16), (a.toNat, 8), (b.toNat, 0)]
  | .smin d a b => asm 0x2C000000 [(d.toNat, 16), (a.toNat, 8), (b.toNat, 0)]
  | .smax d a b => asm 0x2D000000 [(d.toNat, 16), (a.toNat, 8), (b.toNat, 0)]
  | .sminu d a b => asm 0x2E000000 [(d.toNat, 16), (a.toNat, 8), (b.toNat, 0)]
  | .smaxu d a b => asm 0x2F000000 [(d.toNat, 16), (a.toNat, 8), (b.toNat, 0)]
  | .sseq d a b => asm 0x30000000 [(d.toNat, 16), (a.toNat, 8), (b.toNat, 0)]
  | .ssne d a b => asm 0x31000000 [(d.toNat, 16), (a.toNat, 8), (b.toNat, 0)]
  | .sslt d a b => asm 0x32000000 [(d.toNat, 16), (a.toNat, 8), (b.toNat, 0)]
  | .ssltu d a b => asm 0x33000000 [(d.toNat, 16), (a.toNat, 8), (b.toNat, 0)]
  | .ssle d a b => asm 0x34000000 [(d.toNat, 16), (a.toNat, 8), (b.toNat, 0)]
  | .ssleu d a b => asm 0x35000000 [(d.toNat, 16), (a.toNat, 8), (b.toNat, 0)]
  | .ssel d a b => asm 0x36000000 [(d.toNat, 16), (a.toNat, 8), (b.toNat, 0)]
  | .smov d a b => asm 0x37000000 [(d.toNat, 16), (a.toNat, 8), (b.toNat, 0)]
  | .sli d i => asm 0x38000000 [(d.toNat, 16), (i.toNat, 0)]
  | .sliu d i => asm 0x39000000 [(d.toNat, 16), (i.toNat, 0)]
  | .slih d i => asm 0x3A000000 [(d.toNat, 16), (i.toNat, 0)]
  | .saddi d i => asm 0x3B000000 [(d.toNat, 16), (i.toNat, 0)]
  | .spopc d a => asm 0x3C000000 [(d.toNat, 12), (a.toNat, 4)]
  | .sclz d a => asm 0x3C100000 [(d.toNat, 12), (a.toNat, 4)]
  | .sbrev d a => asm 0x3C200000 [(d.toNat, 12), (a.toNat, 4)]
  | .sbfe d a s => asm 0x3C300000 [(d.toNat, 12), (a.toNat, 4), (s.toNat, 0)]
  | .sbfi d a => asm 0x3C400000 [(d.toNat, 12), (a.toNat, 4)]
  | .smovh h a => asm 0x3C500000 [(h.toNat, 12), (a.toNat, 4)]
  | .smovl d h => asm 0x3C600000 [(d.toNat, 12), (h.toNat, 4)]
  | .sadd64 d a => asm 0x3C700000 [(d.toNat, 12), (a.toNat, 4)]
  | .ssub64 d a => asm 0x3C800000 [(d.toNat, 12), (a.toNat, 4)]
  | .sshl64 d a => asm 0x3C900000 [(d.toNat, 12), (a.toNat, 4)]
  | .sshr64 d a x => asm 0x3CA00000 [(d.toNat, 12), (a.toNat, 4), (x.toNat, 0)]
  | .smulw d a s => asm 0x3CB00000 [(d.toNat, 12), (a.toNat, 4), (s.toNat, 0)]
  | .rdsr d n => asm 0x3CC00000 [(d.toNat, 12), (n.toNat, 4)]
  | .wrsr n a => asm 0x3CD00000 [(n.toNat, 12), (a.toNat, 4)]
  | .brs c s o => asm 0x40000000 [(c.toNat, 22), (s.toNat, 14), (o.toNat, 0)]
  | .dbr q n t j => asm 0x44000000 [(q.toNat, 23), (n.toNat, 22), (t.toNat, 11), (j.toNat, 0)]
  | .call o => asm 0x48000000 [(o.toNat, 0)]
  | .loop s o => asm 0x4C000000 [(s.toNat, 18), (o.toNat, 0)]
  | .ret => asm 0x50000000 []
  | .brx a => asm 0x50100000 [(a.toNat, 12)]
  | .exit => asm 0x50200000 []
  | .regang a m => asm 0x50300000 [(a.toNat, 12), (m.toNat, 0)]
  | .bar => asm 0x50400000 []
  | .barp a b => asm 0x50500000 [(a.toNat, 12), (b.toNat, 0)]
  | .yield => asm 0x50600000 []
  | .sleep a => asm 0x50700000 [(a.toNat, 4)]
  | .waitev d a => asm 0x50800000 [(d.toNat, 12), (a.toNat, 4)]
  | .sigev a b => asm 0x50900000 [(a.toNat, 12), (b.toNat, 4)]
  | .trap n => asm 0x50A00000 [(n.toNat, 0)]
  | .syscall a n => asm 0x50B00000 [(a.toNat, 12), (n.toNat, 0)]
  | .grow a => asm 0x50C00000 [(a.toNat, 4)]
  | .shrink a => asm 0x50D00000 [(a.toNat, 4)]
  | .setpart p => asm 0x50E00000 [(p.toNat, 0)]
  | .elect d q => asm 0x50F00000 [(d.toNat, 12), (q.toNat, 0)]
  | .eret s => asm 0x51000000 [(s.toNat, 0)]
  | .halt => asm 0x51100000 []
  | .errinj a => asm 0x51200000 [(a.toNat, 12)]
  | .vadd d a b => asm 0x60000000 [(d.toNat, 16), (a.toNat, 8), (b.toNat, 0)]
  | .vsub d a b => asm 0x61000000 [(d.toNat, 16), (a.toNat, 8), (b.toNat, 0)]
  | .vmul d a b => asm 0x62000000 [(d.toNat, 16), (a.toNat, 8), (b.toNat, 0)]
  | .vma d a b => asm 0x63000000 [(d.toNat, 16), (a.toNat, 8), (b.toNat, 0)]
  | .vmin d a b => asm 0x64000000 [(d.toNat, 16), (a.toNat, 8), (b.toNat, 0)]
  | .vmax d a b => asm 0x65000000 [(d.toNat, 16), (a.toNat, 8), (b.toNat, 0)]
  | .vmulh d a b => asm 0x66000000 [(d.toNat, 16), (a.toNat, 8), (b.toNat, 0)]
  | .vmad d a b => asm 0x67000000 [(d.toNat, 16), (a.toNat, 8), (b.toNat, 0)]
  | .vand d a b => asm 0x68000000 [(d.toNat, 16), (a.toNat, 8), (b.toNat, 0)]
  | .vor d a b => asm 0x69000000 [(d.toNat, 16), (a.toNat, 8), (b.toNat, 0)]
  | .vxor d a b => asm 0x6A000000 [(d.toNat, 16), (a.toNat, 8), (b.toNat, 0)]
  | .vandn d a b => asm 0x6B000000 [(d.toNat, 16), (a.toNat, 8), (b.toNat, 0)]
  | .vsel n d a b => asm 0x6C000000 [(n.toNat, 24), (d.toNat, 16), (a.toNat, 8), (b.toNat, 0)]
  | .vshl d a b => asm 0x70000000 [(d.toNat, 16), (a.toNat, 8), (b.toNat, 0)]
  | .vshr d a b => asm 0x71000000 [(d.toNat, 16), (a.toNat, 8), (b.toNat, 0)]
  | .vbfe d a b => asm 0x72000000 [(d.toNat, 16), (a.toNat, 8), (b.toNat, 0)]
  | .vbfi d a b => asm 0x73000000 [(d.toNat, 16), (a.toNat, 8), (b.toNat, 0)]
  | .vsadd d a b => asm 0x74000000 [(d.toNat, 16), (a.toNat, 8), (b.toNat, 0)]
  | .vssub d a b => asm 0x75000000 [(d.toNat, 16), (a.toNat, 8), (b.toNat, 0)]
  | .vdot2 d a b => asm 0x76000000 [(d.toNat, 16), (a.toNat, 8), (b.toNat, 0)]
  | .vdot4 d a b => asm 0x77000000 [(d.toNat, 16), (a.toNat, 8), (b.toNat, 0)]
  | .vcmp c q a b => asm 0x78000000 [(c.toNat, 19), (q.toNat, 16), (a.toNat, 8), (b.toNat, 0)]
  | .vcmpa c q a b => asm 0x79000000 [(c.toNat, 19), (q.toNat, 16), (a.toNat, 8), (b.toNat, 0)]
  | .vcmpo c q a b => asm 0x7A000000 [(c.toNat, 19), (q.toNat, 16), (a.toNat, 8), (b.toNat, 0)]
  | .vcvt t r s d a => asm 0x7C000000 [(t.toNat, 22), (r.toNat, 20), (s.toNat, 19), (d.toNat, 8), (a.toNat, 0)]
  | .vretag t d a => asm 0x7C040000 [(t.toNat, 22), (d.toNat, 8), (a.toNat, 0)]
  | .vmov d a => asm 0x80000000 [(d.toNat, 12), (a.toNat, 4)]
  | .vmovs d n => asm 0x80100000 [(d.toNat, 12), (n.toNat, 3)]
  | .vli d i => asm 0x80200000 [(d.toNat, 12), (i.toNat, 0)]
  | .vlane d => asm 0x80300000 [(d.toNat, 12)]
  | .vtid d => asm 0x80400000 [(d.toNat, 12)]
  | .vslice d => asm 0x80500000 [(d.toNat, 12)]
  | .vactive d => asm 0x80600000 [(d.toNat, 12)]
  | .pand d a b => asm 0x84000000 [(d.toNat, 16), (a.toNat, 8), (b.toNat, 0)]
  | .por d a b => asm 0x85000000 [(d.toNat, 16), (a.toNat, 8), (b.toNat, 0)]
  | .pxor d a b => asm 0x86000000 [(d.toNat, 16), (a.toNat, 8), (b.toNat, 0)]
  | .pandn d a b => asm 0x87000000 [(d.toNat, 16), (a.toNat, 8), (b.toNat, 0)]
  | .vrcp d a => asm 0x88000000 [(d.toNat, 12), (a.toNat, 4)]
  | .vrsq d a => asm 0x88100000 [(d.toNat, 12), (a.toNat, 4)]
  | .vsqrt d a => asm 0x88200000 [(d.toNat, 12), (a.toNat, 4)]
  | .vexp2 d a => asm 0x88300000 [(d.toNat, 12), (a.toNat, 4)]
  | .vlog2 d a => asm 0x88400000 [(d.toNat, 12), (a.toNat, 4)]
  | .vsin d a => asm 0x88500000 [(d.toNat, 12), (a.toNat, 4)]
  | .vcos d a => asm 0x88600000 [(d.toNat, 12), (a.toNat, 4)]
  | .vtanh d a => asm 0x88700000 [(d.toNat, 12), (a.toNat, 4)]
  | .vfrac d a => asm 0x88800000 [(d.toNat, 12), (a.toNat, 4)]
  | .vround d a r => asm 0x88900000 [(d.toNat, 12), (a.toNat, 4), (r.toNat, 0)]
  | .vclass d a => asm 0x88A00000 [(d.toNat, 12), (a.toNat, 4)]
  | .vabs d a => asm 0x88B00000 [(d.toNat, 12), (a.toNat, 4)]
  | .vneg d a => asm 0x88C00000 [(d.toNat, 12), (a.toNat, 4)]
  | .vnot d a => asm 0x88D00000 [(d.toNat, 12), (a.toNat, 4)]
  | .vclz d a => asm 0x88E00000 [(d.toNat, 12), (a.toNat, 4)]
  | .vpopc d a => asm 0x88F00000 [(d.toNat, 12), (a.toNat, 4)]
  | .vbrev d a => asm 0x89000000 [(d.toNat, 12), (a.toNat, 4)]
  | .vshfl d a => asm 0x8C000000 [(d.toNat, 12), (a.toNat, 4)]
  | .vshflu d a => asm 0x8C100000 [(d.toNat, 12), (a.toNat, 4)]
  | .vshfld d a => asm 0x8C200000 [(d.toNat, 12), (a.toNat, 4)]
  | .vshflx d a => asm 0x8C300000 [(d.toNat, 12), (a.toNat, 4)]
  | .vbcast d a => asm 0x8C400000 [(d.toNat, 12), (a.toNat, 4)]
  | .vvoteany d a => asm 0x8C500000 [(d.toNat, 12), (a.toNat, 4)]
  | .vvoteall d a => asm 0x8C600000 [(d.toNat, 12), (a.toNat, 4)]
  | .vballot d a => asm 0x8C700000 [(d.toNat, 12), (a.toNat, 4)]
  | .vredadd d a q u => asm 0x8C800000 [(d.toNat, 12), (a.toNat, 4), (q.toNat, 2), (u.toNat, 1)]
  | .vredmin d a q u => asm 0x8C900000 [(d.toNat, 12), (a.toNat, 4), (q.toNat, 2), (u.toNat, 1)]
  | .vredmax d a q u => asm 0x8CA00000 [(d.toNat, 12), (a.toNat, 4), (q.toNat, 2), (u.toNat, 1)]
  | .vredand d a q u => asm 0x8CB00000 [(d.toNat, 12), (a.toNat, 4), (q.toNat, 2), (u.toNat, 1)]
  | .vredor d a q u => asm 0x8CC00000 [(d.toNat, 12), (a.toNat, 4), (q.toNat, 2), (u.toNat, 1)]
  | .vredxor d a q u => asm 0x8CD00000 [(d.toNat, 12), (a.toNat, 4), (q.toNat, 2), (u.toNat, 1)]
  | .vscanadd d a q e => asm 0x8CE00000 [(d.toNat, 12), (a.toNat, 4), (q.toNat, 2), (e.toNat, 0)]
  | .vscanmin d a q e => asm 0x8CF00000 [(d.toNat, 12), (a.toNat, 4), (q.toNat, 2), (e.toNat, 0)]
  | .vscanmax d a q e => asm 0x8D000000 [(d.toNat, 12), (a.toNat, 4), (q.toNat, 2), (e.toNat, 0)]
  | .vzip n d a => asm 0x90000000 [(n.toNat, 24), (d.toNat, 8), (a.toNat, 0)]
  | .vunzip n d a => asm 0x90800000 [(n.toNat, 24), (d.toNat, 8), (a.toNat, 0)]
  | .xset k a => asm 0x94000000 [(k.toNat, 12), (a.toNat, 4)]
  | .xadd k i => asm 0x94100000 [(k.toNat, 12), (i.toNat, 4)]
  | .xwin b l => asm 0x94200000 [(b.toNat, 12), (l.toNat, 4)]
  | .vrand d a k => asm 0x94300000 [(d.toNat, 12), (a.toNat, 4), (k.toNat, 0)]
  | .vrandu d a k => asm 0x94400000 [(d.toNat, 12), (a.toNat, 4), (k.toNat, 0)]
  | .ld t w d a p => asm 0xA0000000 [(t.toNat, 22), (w.toNat, 20), (d.toNat, 12), (a.toNat, 4), (p.toNat, 0)]
  | .st t w d a p => asm 0xA4000000 [(t.toNat, 22), (w.toNat, 20), (d.toNat, 12), (a.toNat, 4), (p.toNat, 0)]
  | .lds t w d a p => asm 0xA8000000 [(t.toNat, 22), (w.toNat, 20), (d.toNat, 12), (a.toNat, 4), (p.toNat, 0)]
  | .sts t w d a p => asm 0xAC000000 [(t.toNat, 22), (w.toNat, 20), (d.toNat, 12), (a.toNat, 4), (p.toNat, 0)]
  | .ldu d p => asm 0xB0000000 [(d.toNat, 11), (p.toNat, 7)]
  | .stu d p => asm 0xB0100000 [(d.toNat, 11), (p.toNat, 7)]
  | .ldsu d p => asm 0xB0200000 [(d.toNat, 11), (p.toNat, 7)]
  | .stsu d p => asm 0xB0300000 [(d.toNat, 11), (p.toNat, 7)]
  | .pref t a p => asm 0xB0400000 [(t.toNat, 18), (a.toNat, 4), (p.toNat, 0)]
  | .fence => asm 0xB0500000 []
  | .invl1 => asm 0xB0600000 []
  | .probe d a p => asm 0xB0700000 [(d.toNat, 12), (a.toNat, 4), (p.toNat, 0)]
  | .invpg a b => asm 0xB0800000 [(a.toNat, 12), (b.toNat, 4)]
  | .atom o w d a p => asm 0xC0000000 [(o.toNat, 22), (w.toNat, 20), (d.toNat, 12), (a.toNat, 4), (p.toNat, 0)]
  | .atomn o w d a p => asm 0xC4000000 [(o.toNat, 22), (w.toNat, 20), (d.toNat, 12), (a.toNat, 4), (p.toNat, 0)]
  | .cmlr a n => asm 0xC8000000 [(a.toNat, 4), (n.toNat, 0)]
  | .cmls d a n => asm 0xC8100000 [(d.toNat, 12), (a.toNat, 4), (n.toNat, 0)]
  | .seal a b => asm 0xC8200000 [(a.toNat, 12), (b.toNat, 4)]
  | .unseal a b => asm 0xC8300000 [(a.toNat, 12), (b.toNat, 4)]
  | .wobseal d a => asm 0xC8400000 [(d.toNat, 12), (a.toNat, 4)]
  | .wobrel a => asm 0xC8500000 [(a.toNat, 4)]
  | .discard a b => asm 0xC8600000 [(a.toNat, 12), (b.toNat, 4)]
  | .flush a b => asm 0xC8700000 [(a.toNat, 12), (b.toNat, 4)]
  | .vcquery d a => asm 0xC8800000 [(d.toNat, 12), (a.toNat, 4)]
  | .vcdef a => asm 0xC8900000 [(a.toNat, 12)]
  | .vcresize a => asm 0xC8A00000 [(a.toNat, 12)]
  | .vcresizeMove a => asm 0xC8A00001 [(a.toNat, 12)]
  | .btake d s => asm 0xD0000000 [(d.toNat, 12), (s.toNat, 0)]
  | .bfree s => asm 0xD0100000 [(s.toNat, 0)]
  | .bgive p c s => asm 0xD0200000 [(p.toNat, 12), (c.toNat, 9), (s.toNat, 0)]
  | .bopen d p s => asm 0xD0300000 [(d.toNat, 12), (p.toNat, 4), (s.toNat, 0)]
  | .bdrain l s => asm 0xD0400000 [(l.toNat, 4), (s.toNat, 0)]
  | .bquery d o s => asm 0xD0500000 [(d.toNat, 12), (o.toNat, 4), (s.toNat, 0)]
  | .swinit x a => asm 0xD0600000 [(x.toNat, 12), (a.toNat, 4)]
  | .swadd x a => asm 0xD0700000 [(x.toNat, 12), (a.toNat, 4)]
  | .swwait d x => asm 0xD0800000 [(d.toNat, 12), (x.toNat, 4)]
  | .swread d x => asm 0xD0900000 [(d.toNat, 12), (x.toNat, 4)]
  | .ringdef d a => asm 0xD0A00000 [(d.toNat, 12), (a.toNat, 4)]
  | .send r a => asm 0xD0B00000 [(r.toNat, 12), (a.toNat, 4)]
  | .ringack r a => asm 0xD0C00000 [(r.toNat, 12), (a.toNat, 4)]
  | .ringwait d r => asm 0xD0D00000 [(d.toNat, 12), (r.toNat, 4)]
  | .copy a => asm 0xD8000000 [(a.toNat, 4)]
  | .copy2d a => asm 0xD8100000 [(a.toNat, 4)]
  | .cgath a => asm 0xD8200000 [(a.toNat, 4)]
  | .cscat a => asm 0xD8300000 [(a.toNat, 4)]
  | .cfill a => asm 0xD8400000 [(a.toNat, 4)]
  | .cseal b => asm 0xD8500000 [(b.toNat, 0)]
  | .cwait d c b => asm 0xD8600000 [(d.toNat, 12), (c.toNat, 4), (b.toNat, 0)]
  | .cstat d b => asm 0xD8700000 [(d.toNat, 12), (b.toNat, 0)]
  | .rput a => asm 0xD8800000 [(a.toNat, 4)]
  | .rget a => asm 0xD8900000 [(a.toNat, 4)]
  | .ratom d a => asm 0xD8A00000 [(d.toNat, 12), (a.toNat, 4)]
  | .wexport d a => asm 0xD8B00000 [(d.toNat, 12), (a.toNat, 4)]
  | .wrevoke a => asm 0xD8C00000 [(a.toNat, 4)]
  | .qkick a => asm 0xE0000000 [(a.toNat, 4)]
  | .launch d a => asm 0xE0100000 [(d.toNat, 12), (a.toNat, 4)]
  | .qwait a => asm 0xE0200000 [(a.toNat, 4)]
  | .stageinit r a => asm 0xE0300000 [(r.toNat, 12), (a.toNat, 4)]
  | .stagearv r k => asm 0xE0400000 [(r.toNat, 12), (k.toNat, 0)]
  | .stagewt r h k => asm 0xE0500000 [(r.toNat, 12), (h.toNat, 3), (k.toNat, 0)]
  | .roleq d r => asm 0xE0600000 [(d.toNat, 12), (r.toNat, 0)]
  | .preemptSuspend d a => asm 0xE0700000 [(d.toNat, 12), (a.toNat, 4)]
  | .preemptResume d a => asm 0xE0700001 [(d.toNat, 12), (a.toNat, 4)]
  | .preemptEvict d a => asm 0xE0700002 [(d.toNat, 12), (a.toNat, 4)]
  | .preemptTerminate d a => asm 0xE0700003 [(d.toNat, 12), (a.toNat, 4)]
  | .preemptSysresume d a => asm 0xE0700004 [(d.toNat, 12), (a.toNat, 4)]
  | .preemptCldrain d a => asm 0xE0700005 [(d.toNat, 12), (a.toNat, 4)]
  | .preemptClopen d a => asm 0xE0700006 [(d.toNat, 12), (a.toNat, 4)]
  | .preemptCloff d a => asm 0xE0700007 [(d.toNat, 12), (a.toNat, 4)]
  | .ctxsave d a => asm 0xE0800000 [(d.toNat, 12), (a.toNat, 4)]
  | .ctxload d a => asm 0xE0900000 [(d.toNat, 12), (a.toNat, 4)]
  | .mcfg n a => asm 0xE4000000 [(n.toNat, 18), (a.toNat, 10)]
  | .mmp n a b s => asm 0xE4100000 [(n.toNat, 18), (a.toNat, 10), (b.toNat, 2), (s.toNat, 0)]
  | .mmpb n a b s => asm 0xE4200000 [(n.toNat, 18), (a.toNat, 10), (b.toNat, 2), (s.toNat, 0)]
  | .mmpg n a b s => asm 0xE4300000 [(n.toNat, 18), (a.toNat, 10), (b.toNat, 2), (s.toNat, 0)]
  | .mzero n => asm 0xE4400000 [(n.toNat, 18)]
  | .tokpass n g => asm 0xE4500000 [(n.toNat, 18), (g.toNat, 10)]
  | .tokwait n => asm 0xE4600000 [(n.toNat, 18)]
  | .tread n d r h => asm 0xE4700000 [(n.toNat, 18), (d.toNat, 10), (r.toNat, 2), (h.toNat, 0)]
  | .twrite n a r h => asm 0xE4800000 [(n.toNat, 18), (a.toNat, 10), (r.toNat, 2), (h.toNat, 0)]
  | .tchk n d c f h => asm 0xE4900000 [(n.toNat, 18), (d.toNat, 10), (c.toNat, 3), (f.toNat, 2), (h.toNat, 0)]
  | .mdrain n a h => asm 0xE4A00000 [(n.toNat, 18), (a.toNat, 10), (h.toNat, 0)]
  | .ensure l e => asm 0xE8000000 [(l.toNat, 12), (e.toNat, 0)]
  | .elseby o => asm 0xE8100000 [(o.toNat, 0)]
  | .elseerr => asm 0xE8200000 []
  | .verdict q => asm 0xE8300000 [(q.toNat, 0)]
  | .convjoin a => asm 0xE8400000 [(a.toNat, 4)]
  | .rbstat d => asm 0xE8500000 [(d.toNat, 12)]
  | .rbfail c => asm 0xE8600000 [(c.toNat, 0)]
  | .cmpstat d => asm 0xE8700000 [(d.toNat, 12)]
  | .cmppoint a s n => asm 0xE8800000 [(a.toNat, 12), (s.toNat, 4), (n.toNat, 0)]
  | .lnkpark a g => asm 0xEC000000 [(a.toNat, 4), (g.toNat, 0)]
  | .lnkwake a g => asm 0xEC100000 [(a.toNat, 4), (g.toNat, 0)]
  | .lnkstat d g => asm 0xEC200000 [(d.toNat, 12), (g.toNat, 0)]
  | .slotld a g => asm 0xEC300000 [(a.toNat, 4), (g.toNat, 0)]
  | .slotsw g => asm 0xEC400000 [(g.toNat, 0)]
  | .lnkthr a g => asm 0xEC500000 [(a.toNat, 4), (g.toNat, 0)]
  | .lnkretrain g => asm 0xEC600000 [(g.toNat, 0)]
  | .brk => asm 0xFFFFFFFF []
  | _ => 0

/-- The bytes of an instruction in memory order. -/
def encode (i : Instr) : List (BitVec 8) := leBytes 4 (encodeWord i)

/-- The instruction that the decoder reads from the table's numbering of bits: the word's four bytes in memory order. -/
def decodeTableWord (nbits w : Nat) : Option Instr :=
  match decode (leBytes 4 (w % 2 ^ nbits)) with
  | .ok (i, _) => some i
  | .error _ => none

end Sys2Proof
end

