-- ==== Sys2Proof/Machine/Standards.lean ====
section
/-! DEFINITION. The published standards that the manual names, written from those standards (log entry 10): SHAKE256 (FIPS
202), AES-256 and GMAC (FIPS 197, NIST SP 800-38D), and the verification of an XMSS-SHAKE256_20_256 signature (RFC 8391, NIST
SP 800-208). -/

namespace Sys2Proof.Machine

/-! ## Bytes -/

/-- Number of a list of bytes, the first lowest. -/
def numLE : List Nat → Nat
  | [] => 0
  | b :: r => b + 256 * numLE r

/-- n bytes of a number, the lowest first. -/
def natLE (n x : Nat) : List Nat := (List.range n).map (fun i => x / 256 ^ i % 256)

/-- n bytes of a number, the highest first. -/
def natBE (n x : Nat) : List Nat := (natLE n x).reverse

/-- Number of a list of bytes, the first highest. -/
def numBE (bs : List Nat) : Nat := numLE bs.reverse

/-! ## SHAKE256 (FIPS 202) -/

/-- Round constants of Keccak-f[1600]. -/
def keccakConsts : List Nat :=
  [0x1, 0x8082, 0x800000000000808A, 0x8000000080008000, 0x808B, 0x80000001,
   0x8000000080008081, 0x8000000000008009, 0x8A, 0x88, 0x80008009, 0x8000000A,
   0x8000808B, 0x800000000000008B, 0x8000000000008089, 0x8000000000008003, 0x8000000000008002, 0x8000000000000080,
   0x800A, 0x800000008000000A, 0x8000000080008081, 0x8000000000008080, 0x80000001, 0x8000000080008008]

/-- Rotation of lane x + 5 y. -/
def keccakRot : List Nat :=
  [0, 1, 62, 28, 27, 36, 44, 6, 55, 20, 3, 10, 43, 25, 39, 41, 45, 15, 21, 8, 18, 2, 61, 56, 14]

/-- Rotation of a 64-bit lane to the left. -/
def rot64 (x n : Nat) : Nat := x * 2 ^ n % 2 ^ 64 + x / 2 ^ (64 - n)

/-- One round on the 25 lanes. -/
def keccakRound (a : List Nat) (rc : Nat) : List Nat :=
  let at? (i : Nat) : Nat := a.getD i 0
  let c := (List.range 5).map (fun x => at? x ^^^ at? (x + 5) ^^^ at? (x + 10) ^^^ at? (x + 15) ^^^ at? (x + 20))
  let d := (List.range 5).map (fun x => c.getD ((x + 4) % 5) 0 ^^^ rot64 (c.getD ((x + 1) % 5) 0) 1)
  let b := (List.range 25).map (fun i =>
    let src := (i % 5 + 3 * (i / 5)) % 5 + 5 * (i % 5)
    rot64 (at? src ^^^ d.getD (src % 5) 0) (keccakRot.getD src 0))
  let e := (List.range 25).map (fun i =>
    let y := 5 * (i / 5)
    b.getD i 0 ^^^ ((2 ^ 64 - 1 - b.getD (y + (i + 1) % 5) 0) &&& b.getD (y + (i + 2) % 5) 0))
  e.set 0 (e.headD 0 ^^^ rc)

/-- The permutation. -/
def keccak (a : List Nat) : List Nat := keccakConsts.foldl keccakRound a

/-- Absorbs a block of 136 bytes. -/
def absorb (a : List Nat) (block : List Nat) : List Nat :=
  keccak (a.zipIdx.map (fun x => x.1 ^^^ numLE ((block.drop (8 * x.2)).take 8)))

/-- Cuts a list into n blocks of k. -/
def cutBlocks (k : Nat) : Nat → List Nat → List (List Nat)
  | 0, _ => []
  | n + 1, l => l.take k :: cutBlocks k n (l.drop k)

/-- The message with SHAKE's padding, whole blocks of 136 bytes. -/
def shakePad (m : List Nat) : List Nat :=
  let z := 136 - (m.length + 1) % 136
  let z := if z = 136 then 0 else z
  let p := m ++ [0x1F] ++ List.replicate z 0
  p.set (p.length - 1) (p.getD (p.length - 1) 0 ^^^ 0x80)

/-- SHAKE256 with 256-bit output over byte values. -/
def shakeNat (m : List Nat) : List Nat :=
  let p := shakePad m
  ((cutBlocks 136 (p.length / 136) p).foldl absorb (List.replicate 25 0)).take 4 |>.flatMap (natLE 8)

/-- SHAKE256 with 256-bit output (R110, R499). -/
def shake256 (bs : List Byte) : List Byte := (shakeNat (bs.map (·.toNat))).map (BitVec.ofNat 8)

/-! ## AES-256 and GMAC (R334) -/

/-- The S-box, entry i in bits 8i to 8i + 7. -/
def sboxBits : Nat :=
  0x16bb54b00f2d99416842e6bf0d89a18cdf2855cee9871e9b948ed9691198f8e19e1dc186b95735610ef6034866b53e708a8bbd4b1f74dde8c6b4a61c2e2578ba08ae7a65eaf4566ca94ed58d6d37c8e779e4959162acd3c25c2406490a3a32e0db0b5ede14b8ee4688902a22dc4f816073195d643d7ea7c41744975fec130ccdd2f3ff1021dab6bcf5389d928f40a351a89f3c507f02f94585334d43fbaaefd0cf584c4a39becb6a5bb1fc20ed00d153842fe329b3d63b52a05a6e1b1a2c830975b227ebe28012079a059618c323c7041531d871f1e5a534ccf73f362693fdb7c072a49cafa2d4adf04759fa7dc982ca76abd7fe2b670130c56f6bf27b777c63

/-- SubBytes of one byte. -/
def sub8 (x : Nat) : Nat := sboxBits / 2 ^ (8 * (x % 256)) % 256

/-- Doubling in the field of AES. -/
def xtime (x : Nat) : Nat := if x < 128 then 2 * x else (2 * x - 256) ^^^ 0x1B

/-- The key schedule from the last eight words back to the first, for a number of further words, word i the next. -/
def expandKey : Nat → Nat → List (List Nat) → List (List Nat)
  | 0, _, ws => ws.reverse
  | n + 1, i, ws =>
    let prev := ws.headD []
    let t := if i % 8 = 0 then
        let r := (prev.drop 1 ++ prev.take 1).map sub8
        r.set 0 (r.headD 0 ^^^ 2 ^ (i / 8 - 1))
      else if i % 8 = 4 then prev.map sub8 else prev
    expandKey n (i + 1) (List.zipWith (· ^^^ ·) (ws.getD 7 []) t :: ws)

/-- The 15 round keys of a 32-byte key, 16 bytes each. -/
def roundKeys (key : List Nat) : List (List Nat) :=
  cutBlocks 16 15 (expandKey 52 8 (cutBlocks 4 8 key).reverse).flatten

/-- SubBytes and ShiftRows of a state in column order. -/
def subShift (s : List Nat) : List Nat := (List.range 16).map (fun i => sub8 (s.getD ((i + 4 * (i % 4)) % 16) 0))

/-- MixColumns. -/
def mixColumns (s : List Nat) : List Nat :=
  (List.range 16).map (fun i =>
    let at? (k : Nat) : Nat := s.getD (4 * (i / 4) + (i + k) % 4) 0
    xtime (at? 0) ^^^ (xtime (at? 1) ^^^ at? 1) ^^^ at? 2 ^^^ at? 3)

/-- AES-256 of one block. -/
def aes256 (key block : List Nat) : List Nat :=
  let ks := roundKeys key
  let add (s k : List Nat) : List Nat := List.zipWith (· ^^^ ·) s k
  let mid := ((ks.drop 1).take 13).foldl (fun s k => add (mixColumns (subShift s)) k) (add block (ks.headD []))
  add (subShift mid) (ks.getD 14 [])

/-- Product in the field of GHASH, bit 127 the first: from the bits left, the multiplier, the running multiple and the sum. -/
def ghashMul : Nat → Nat → Nat → Nat → Nat
  | 0, _, _, z => z
  | n + 1, x, v, z =>
    ghashMul n x (if v % 2 = 1 then v / 2 ^^^ (0xE1 * 2 ^ 120) else v / 2) (if x / 2 ^ n % 2 = 1 then z ^^^ v else z)

/-- GHASH of whole blocks under a hash key. -/
def ghash (h : Nat) (blocks : List (List Nat)) : Nat := blocks.foldl (fun y b => ghashMul 128 (y ^^^ numBE b) h 0) 0

/-- GMAC with a 96-bit IV over bytes: the 16 bytes of the tag. -/
def gmacTag (key iv m : List Nat) : List Nat :=
  let n := (m.length + 15) / 16
  let padded := m ++ List.replicate (16 * n - m.length) 0
  let h := numBE (aes256 key (List.replicate 16 0))
  let s := ghash h (cutBlocks 16 n padded ++ [natBE 8 (8 * m.length) ++ natBE 8 0])
  List.zipWith (· ^^^ ·) (natBE 16 s) (aes256 key (iv ++ [0, 0, 0, 1]))

/-- AES-GMAC truncated to 64 bits (R334): key, SENDER, SEQ, header and data. The IV holds SENDER and SEQ in the byte order of the
header, and the tag's first byte is its lowest (log entry 10). -/
def gmac (key : List Byte) (sender seq : Nat) (m : List Byte) : DWord :=
  BitVec.ofNat 64 (numLE ((gmacTag (key.map (·.toNat)) (natLE 4 sender ++ natLE 8 seq) (m.map (·.toNat))).take 8))

/-! ## XMSS-SHAKE256_20_256 (R498) -/

/-- A keyed hash: 1 H, 0 F, 2 H_msg, 3 PRF. -/
def xmssHash (k : Nat) (key m : List Nat) : List Nat := shakeNat (natBE 32 k ++ key ++ m)

/-- An address: layer and tree 0, then the five words that a type uses. -/
def xmssAdrs (ty a b c km : Nat) : List Nat := natBE 12 0 ++ natBE 4 ty ++ natBE 4 a ++ natBE 4 b ++ natBE 4 c ++ natBE 4 km

def xorBytes (x y : List Nat) : List Nat := List.zipWith (· ^^^ ·) x y

/-- Two nodes into one under the public seed, at an address. -/
def randHash (seed l r : List Nat) (adrs : Nat → List Nat) : List Nat :=
  let prf (k : Nat) : List Nat := xmssHash 3 seed (adrs k)
  xmssHash 1 (prf 0) (xorBytes l (prf 1) ++ xorBytes r (prf 2))

/-- A chain of n steps from step j. -/
def otsChain (seed : List Nat) (leaf i : Nat) : Nat → Nat → List Nat → List Nat
  | 0, _, x => x
  | n + 1, j, x =>
    let prf (k : Nat) : List Nat := xmssHash 3 seed (xmssAdrs 0 leaf i j k)
    otsChain seed leaf i n (j + 1) (xmssHash 0 (prf 0) (xorBytes x (prf 1)))

/-- The 67 digits of base 16 that a one-time signature signs: those of the digest, then of their checksum. -/
def otsDigits (digest : List Nat) : List Nat :=
  let ds := digest.flatMap (fun b => [b / 16, b % 16])
  let c := ds.foldl (fun acc d => acc + (15 - d)) 0
  ds ++ [c / 256 % 16, c / 16 % 16, c % 16]

/-- The leaf of a one-time public key: its L-tree, from a number of levels. -/
def lTree (seed : List Nat) (leaf : Nat) : Nat → Nat → List (List Nat) → List Nat
  | 0, _, ns => ns.headD []
  | n + 1, h, ns =>
    let pairs := (List.range (ns.length / 2)).map (fun i =>
      randHash seed (ns.getD (2 * i) []) (ns.getD (2 * i + 1) []) (xmssAdrs 1 leaf h i))
    lTree seed leaf n (h + 1) (if ns.length % 2 = 1 then pairs ++ [ns.getLastD []] else pairs)

/-- The root from a leaf's node and its authentication path. -/
def authRoot (seed : List Nat) (leaf : Nat) : Nat → List (List Nat) → List Nat → List Nat
  | _, [], node => node
  | h, a :: rest, node =>
    let adrs := xmssAdrs 2 0 h (leaf / 2 ^ (h + 1))
    authRoot seed leaf (h + 1) rest
      (if leaf / 2 ^ h % 2 = 0 then randHash seed node a adrs else randHash seed a node adrs)

/-- The root that a signature of 2,820 bytes over a message leads to: leaf index, randomness, 67 chains, 20 nodes. -/
def xmssRootOf (root seed msg sig : List Nat) : List Nat :=
  let leaf := numBE (sig.take 4)
  let digest := xmssHash 2 ((sig.drop 4).take 32 ++ root ++ natBE 32 leaf) msg
  let chains := cutBlocks 32 67 (sig.drop 36)
  let pk := ((otsDigits digest).zip chains).zipIdx.map (fun x => otsChain seed leaf x.2 (15 - x.1.1) x.1.1 x.1.2)
  authRoot seed leaf 0 (cutBlocks 32 20 (sig.drop 2180)) (lTree seed leaf 7 0 pk)

/-- An image's signature verifies under the fused public key (R498). -/
def xmssVerify (image signature : List Byte) : Bool :=
  let root := (List.range 32).map (fun i => (Config.authorityRoot i).toNat)
  let seed := (List.range 32).map (fun i => (Config.authoritySeed i).toNat)
  let sig := signature.map (·.toNat)
  decide (sig.length = 2820) && decide (numBE (sig.take 4) < 2 ^ 20) &&
  xmssRootOf root seed (image.map (·.toNat)) sig == root

end Sys2Proof.Machine
end

