-- ==== Sys2Proof/Machine/Flags.lean ====
section
/-! DEFINITION. Number formats and flags (R119 to R151): elements of a tagged word, exact binary arithmetic with one
rounding, the five exception flags and their counters, conversions, approximations and the encoding of a BPN block. -/

namespace Sys2Proof.Machine

/-! ## Tags and elements (R119) -/

/-- Element width of a tag. -/
def tagWidth (t : Nat) : Nat :=
  if t = 3 ∨ t = 4 ∨ t = 5 then 16 else if t = 6 ∨ t = 7 then 8 else 32
/-- Elements in a word of a tag. -/
def tagCount (t : Nat) : Nat := 32 / tagWidth t
def intTag (t : Nat) : Bool := [0, 1, 5, 6, 7].contains t
def signedTag (t : Nat) : Bool := [0, 5, 6].contains t
def floatTag (t : Nat) : Bool := [2, 3, 4].contains t
/-- Tags of the arithmetic class (R121). -/
def arithTag (t : Nat) : Bool := decide (t ≤ 7)
/-- Tags of the logical class (R121). -/
def logicTag (t : Nat) : Bool := intTag t || t == 8 || t == 9

/-- Element i of a word. -/
def elem (t : Nat) (w : Word) (i : Nat) : Nat := natBits w.toNat (tagWidth t * i) (tagWidth t)

/-- A word from its elements, element 0 lowest. -/
def packElems (t : Nat) (es : List Nat) : Word :=
  BitVec.ofNat 32 (es.foldr (fun e acc => e % 2 ^ tagWidth t + 2 ^ tagWidth t * acc) 0)

/-- Integer value of an element under its tag. -/
def elemInt (t e : Nat) : Int := if signedTag t then signed (tagWidth t) e else (e : Int)

/-- The low n bits of an integer. -/
def wrapInt (n : Nat) (x : Int) : Nat := (x % (2 ^ n : Int)).toNat

/-! ## Float formats (R124) -/

/-- Exponent bits and fraction bits. -/
structure Fmt where
  eb : Nat
  fb : Nat
  deriving DecidableEq, Repr

def fp32 : Fmt := ⟨8, 23⟩
def bf16 : Fmt := ⟨8, 7⟩
def fp16 : Fmt := ⟨5, 10⟩
def fmtOf (t : Nat) : Fmt := if t = 3 then bf16 else if t = 4 then fp16 else fp32

def Fmt.bias (f : Fmt) : Nat := 2 ^ (f.eb - 1) - 1
/-- The bit pattern of infinity without sign. -/
def Fmt.inf (f : Fmt) : Nat := (2 ^ f.eb - 1) * 2 ^ f.fb
/-- The canonical quiet NaN (R127). -/
def Fmt.qnan (f : Fmt) : Nat := f.inf + 2 ^ (f.fb - 1)
/-- The largest finite magnitude. -/
def Fmt.maxFin (f : Fmt) : Nat := f.inf - 1
/-- The sign bit set when the flag is. -/
def Fmt.sign (f : Fmt) (neg : Bool) : Nat := if neg then 2 ^ (f.eb + f.fb) else 0
/-- Exponent of the lowest bit of a subnormal. -/
def Fmt.qmin (f : Fmt) : Int := 1 - (f.bias : Int) - (f.fb : Int)

/-- A decoded float: NaN (signalling or quiet), infinity, or sign and m × 2^e exactly. -/
inductive FVal where
  | nan (signalling : Bool)
  | inf (neg : Bool)
  | fin (neg : Bool) (m : Nat) (e : Int)
  deriving DecidableEq, Repr

/-- Reads a bit pattern (R119, R124). -/
def Fmt.read (f : Fmt) (b : Nat) : FVal :=
  let neg := natBit b (f.eb + f.fb)
  let ex := natBits b f.fb f.eb
  let fr := natBits b 0 f.fb
  if ex = 2 ^ f.eb - 1 then
    if fr = 0 then .inf neg else .nan (decide (fr < 2 ^ (f.fb - 1)))
  else if ex = 0 then .fin neg fr f.qmin
  else .fin neg (fr + 2 ^ f.fb) (f.qmin + (ex : Int) - 1)

/-! ## Exception flags (R133, R135) in FPSTAT bit order -/

def fIX : Nat := 1
def fUF : Nat := 2
def fOF : Nat := 4
def fDZ : Nat := 8
def fIV : Nat := 16

/-- A result element with the flags it raises. -/
structure ER where
  v : Nat
  fl : Nat
  deriving DecidableEq, Repr

/-! ## Rounding (R125) -/

/-- Whether the magnitude q + r/2^sh goes up: modes 0 RNE, 1 RTZ, 2 RUP, 3 RDN. -/
def roundUp (mode : Nat) (neg : Bool) (q r sh : Nat) : Bool :=
  if r = 0 then false else
  match mode with
  | 0 => decide (2 ^ (sh - 1) < r) || (r == 2 ^ (sh - 1) && q % 2 == 1)
  | 1 => false
  | 2 => !neg
  | _ => neg

/-- m × 2^e in units of 2^q, rounded; and whether it is exact. -/
def roundAt (mode : Nat) (neg : Bool) (m : Nat) (e q : Int) : Nat × Bool :=
  if q ≤ e then (m * 2 ^ (e - q).toNat, true) else
  let sh := (q - e).toNat
  let r := m % 2 ^ sh
  (m / 2 ^ sh + (if roundUp mode neg (m / 2 ^ sh) r sh then 1 else 0), r == 0)

/-- Result of an overflow by mode. -/
def Fmt.overflow (f : Fmt) (mode : Nat) (neg : Bool) : Nat :=
  f.sign neg + (if mode = 0 ∨ (mode = 2 ∧ ¬ neg) ∨ (mode = 3 ∧ neg) then f.inf else f.maxFin)

/-- Rounds ± m × 2^e once to the format (R125, R126): bits, and OF, UF and IX judged against it (R133). -/
def Fmt.round (f : Fmt) (mode : Nat) (neg : Bool) (m : Nat) (e : Int) : ER :=
  if m = 0 then ⟨f.sign neg, 0⟩ else
  let top : Int := e + (Nat.log2 m : Int)
  let emin : Int := 1 - (f.bias : Int)
  let q : Int := max (top - (f.fb : Int)) f.qmin
  let (r, exact) := roundAt mode neg m e q
  let (r, q) := if r = 2 ^ (f.fb + 1) then (2 ^ f.fb, q + 1) else (r, q)
  let ex : Int := q - f.qmin + 1
  if 2 ^ f.fb ≤ r ∧ (2 ^ f.eb - 1 : Int) ≤ ex then ⟨f.overflow mode neg, fOF + fIX⟩ else
  let bits := if r < 2 ^ f.fb then r else ex.toNat * 2 ^ f.fb + (r - 2 ^ f.fb)
  let free := roundAt mode neg m e (top - (f.fb : Int))
  let tiny := decide (top < emin) && !(decide (top = emin - 1) && free.1 == 2 ^ (f.fb + 1))
  ⟨f.sign neg + bits, if exact then 0 else fIX + (if tiny then fUF else 0)⟩

/-- The canonical NaN with IV when one of the flags says so (R127). -/
def Fmt.nanOut (f : Fmt) (iv : Bool) : ER := ⟨f.qnan, if iv then fIV else 0⟩

def FVal.isNan : FVal → Bool
  | .nan _ => true
  | _ => false
def FVal.isSnan : FVal → Bool
  | .nan s => s
  | _ => false
def FVal.isInf : FVal → Bool
  | .inf _ => true
  | _ => false
def FVal.isZero : FVal → Bool
  | .fin _ m _ => m == 0
  | _ => false
def FVal.neg : FVal → FVal
  | .nan s => .nan s
  | .inf n => .inf (!n)
  | .fin n m e => .fin (!n) m e

/-- Signed significand at an exponent not above the value's own. -/
def scaled (neg : Bool) (m : Nat) (e q : Int) : Int :=
  let x : Int := (m * 2 ^ (e - q).toNat : Nat)
  if neg then -x else x

/-- Exact sum of two finite values, with the sign of an exact zero by mode (IEEE 754-2019). -/
def addFin (f : Fmt) (mode : Nat) (n1 : Bool) (m1 : Nat) (e1 : Int) (n2 : Bool) (m2 : Nat) (e2 : Int) : ER :=
  let q := min e1 e2
  let x := scaled n1 m1 e1 q + scaled n2 m2 e2 q
  if x = 0 then
    let neg := if m1 = 0 ∧ m2 = 0 ∧ n1 = n2 then n1 else decide (mode = 3)
    ⟨f.sign neg, 0⟩
  else f.round mode (decide (x < 0)) x.natAbs q

/-- An element as a result: a NaN is the canonical one (R127). -/
def Fmt.canon (f : Fmt) (a : Nat) : Nat := if (f.read a).isNan then f.qnan else a

/-- x + y, rounded once. -/
def Fmt.addV (f : Fmt) (mode : Nat) (x y : FVal) : ER :=
  match x, y with
  | .nan s, z => f.nanOut (s || z.isSnan)
  | z, .nan s => f.nanOut (s || z.isSnan)
  | .inf a, .inf b => if a = b then ⟨f.sign a + f.inf, 0⟩ else f.nanOut true
  | .inf a, _ => ⟨f.sign a + f.inf, 0⟩
  | _, .inf b => ⟨f.sign b + f.inf, 0⟩
  | .fin n1 m1 e1, .fin n2 m2 e2 => addFin f mode n1 m1 e1 n2 m2 e2

/-- x × y, rounded once. -/
def Fmt.mulV (f : Fmt) (mode : Nat) (x y : FVal) : ER :=
  match x, y with
  | .nan s, z => f.nanOut (s || z.isSnan)
  | z, .nan s => f.nanOut (s || z.isSnan)
  | .inf a, .inf b => ⟨f.sign (a != b) + f.inf, 0⟩
  | .inf a, .fin b m _ => if m = 0 then f.nanOut true else ⟨f.sign (a != b) + f.inf, 0⟩
  | .fin b m _, .inf a => if m = 0 then f.nanOut true else ⟨f.sign (a != b) + f.inf, 0⟩
  | .fin n1 m1 e1, .fin n2 m2 e2 => f.round mode (n1 != n2) (m1 * m2) (e1 + e2)

/-- x × y + c, rounded once; 0 × ∞ is invalid whatever c holds (R127). -/
def Fmt.fmaV (f : Fmt) (mode : Nat) (x y c : FVal) : ER :=
  if (x.isZero && y.isInf) || (x.isInf && y.isZero) then f.nanOut true else
  if x.isNan || y.isNan || c.isNan then f.nanOut (x.isSnan || y.isSnan || c.isSnan) else
  match x, y, c with
  | .fin n1 m1 e1, .fin n2 m2 e2, .fin n3 m3 e3 => addFin f mode (n1 != n2) (m1 * m2) (e1 + e2) n3 m3 e3
  | .fin .., .fin .., .inf n => ⟨f.sign n + f.inf, 0⟩
  | a, b, c =>
    let s (v : FVal) : Bool := match v with | .inf n => n | .fin n _ _ => n | .nan _ => false
    let p := s a != s b
    match c with
    | .inf n => if n = p then ⟨f.sign p + f.inf, 0⟩ else f.nanOut true
    | _ => ⟨f.sign p + f.inf, 0⟩

/-- Order of two numbers that are no NaN: -1, 0 or 1; zeros are equal. -/
def FVal.cmp (x y : FVal) : Int :=
  match x, y with
  | .inf a, .inf b => if a = b then 0 else if a then -1 else 1
  | .inf a, _ => if a then -1 else 1
  | _, .inf b => if b then 1 else -1
  | .fin n1 m1 e1, .fin n2 m2 e2 =>
    let q := min e1 e2
    let d := scaled n1 m1 e1 q - scaled n2 m2 e2 q
    if d < 0 then -1 else if d = 0 then 0 else 1
  | _, _ => 0

def FVal.signBit : FVal → Bool
  | .nan _ => false
  | .inf n => n
  | .fin n _ _ => n

/-- minimumNumber and maximumNumber (R128): the bits of the operand chosen. -/
def Fmt.minMax (f : Fmt) (wantMax : Bool) (a b : Nat) : ER :=
  let x := f.read a
  let y := f.read b
  let iv := if x.isSnan || y.isSnan then fIV else 0
  if x.isNan && y.isNan then ⟨f.qnan, iv⟩ else
  if x.isNan then ⟨b, iv⟩ else if y.isNan then ⟨a, iv⟩ else
  let c := x.cmp y
  let less := decide (c < 0) || (c == 0 && x.signBit && !y.signBit)
  ⟨if less != wantMax then a else b, iv⟩

/-! ## Comparison (R129, R202) -/

/-- Condition 0 EQ, 1 NE, 2 LT, 3 LE, 4 GT, 5 GE, 6 UNORD, 7 ORD from an order. -/
def condHolds (cond : Nat) (c : Int) : Bool :=
  match cond with
  | 0 => decide (c = 0)
  | 1 => decide (c ≠ 0)
  | 2 => decide (c < 0)
  | 3 => decide (c ≤ 0)
  | 4 => decide (c > 0)
  | 5 => decide (c ≥ 0)
  | 6 => false
  | _ => true

/-- One element's comparison under a tag, and the flags it raises. -/
def cmpElem (t cond a b : Nat) : Bool × Nat :=
  if floatTag t then
    let x := (fmtOf t).read a
    let y := (fmtOf t).read b
    if x.isNan || y.isNan then
      (cond == 1 || cond == 6, if x.isSnan || y.isSnan then fIV else 0)
    else (condHolds cond (x.cmp y), 0)
  else
    let d := elemInt t a - elemInt t b
    (condHolds cond d, 0)

/-! ## Conversions (R130, R131) -/

/-- Range of an integer tag. -/
def intMin (t : Nat) : Int := if signedTag t then -(2 ^ (tagWidth t - 1) : Int) else 0
def intMax (t : Nat) : Int := if signedTag t then 2 ^ (tagWidth t - 1) - 1 else 2 ^ tagWidth t - 1
def clampInt (t : Nat) (x : Int) : Int := max (intMin t) (min (intMax t) x)

/-- Rounds a finite value to an integer in a mode; and whether it is exact. -/
def roundInt (mode : Nat) (neg : Bool) (m : Nat) (e : Int) : Int × Bool :=
  let (r, x) := roundAt mode neg m e 0
  (if neg then -(r : Int) else (r : Int), x)

/-- Float to float. The model's own choices (log entry 18): between FP16X2 and BF16X2, where an exact result is not always
possible, the element rounds once in the field's mode with OF, UF and IX; an infinite source stays infinite without a flag,
SAT or not. -/
def cvtFF (mode : Nat) (sat : Bool) (ft tt a : Nat) : ER :=
  let g := fmtOf tt
  match (fmtOf ft).read a with
  | .nan s => g.nanOut s
  | .inf n => ⟨g.sign n + g.inf, 0⟩
  | .fin n m e =>
    let r := g.round mode n m e
    if sat ∧ r.fl / 4 % 2 = 1 then ⟨g.sign n + g.maxFin, r.fl⟩ else r

/-- Float to integer: clamped, with IV out of range unless SAT; NaN gives 0 with IV. That an element out of range sets no IX
is the model's choice (log entry 18). -/
def cvtFI (mode : Nat) (sat : Bool) (ft tt a : Nat) : ER :=
  match (fmtOf ft).read a with
  | .nan _ => ⟨0, fIV⟩
  | .inf n => ⟨wrapInt (tagWidth tt) (if n then intMin tt else intMax tt), if sat then 0 else fIV⟩
  | .fin n m e =>
    let (r, exact) := roundInt mode n m e
    let c := clampInt tt r
    if c ≠ r then ⟨wrapInt (tagWidth tt) c, if sat then 0 else fIV⟩
    else ⟨wrapInt (tagWidth tt) r, if exact then 0 else fIX⟩

/-- Integer to float. -/
def cvtIF (mode : Nat) (sat : Bool) (ft tt a : Nat) : ER :=
  let x := elemInt ft a
  let g := fmtOf tt
  let r := g.round mode (decide (x < 0)) x.natAbs 0
  if sat ∧ r.fl / 4 % 2 = 1 then ⟨g.sign (decide (x < 0)) + g.maxFin, r.fl⟩ else r

/-- Integer to integer; only a target that is not wider can be out of range. -/
def cvtII (sat : Bool) (ft tt a : Nat) : ER :=
  let x := elemInt ft a
  ⟨wrapInt (tagWidth tt) (if sat ∧ tagWidth tt ≤ tagWidth ft then clampInt tt x else x), 0⟩

/-- One element's conversion (R131). -/
def cvtElem (mode : Nat) (sat : Bool) (ft tt a : Nat) : ER :=
  if floatTag ft then (if floatTag tt then cvtFF mode sat ft tt a else cvtFI mode sat ft tt a)
  else (if floatTag tt then cvtIF mode sat ft tt a else cvtII sat ft tt a)

/-! ## Unary float functions (R206 to R209) -/

/-- x − trunc(x) with the sign of x (VFRAC). -/
def Fmt.frac (f : Fmt) (a : Nat) : ER :=
  match f.read a with
  | .nan s => f.nanOut s
  | .inf _ => f.nanOut true
  | .fin n m e =>
    if 0 ≤ e then ⟨f.sign n, 0⟩ else f.round 0 n (m % 2 ^ (-e).toNat) e

/-- Rounding to an integral value; no IX (VROUND). -/
def Fmt.integral (f : Fmt) (mode a : Nat) : ER :=
  match f.read a with
  | .nan s => f.nanOut s
  | .inf _ => ⟨a, 0⟩
  | .fin n m e => ⟨(f.round 0 n (roundAt mode n m e 0).1 0).v, 0⟩

/-- Class bit number of an element (R209). -/
def Fmt.classBit (f : Fmt) (a : Nat) : Nat :=
  match f.read a with
  | .nan s => if s then 0 else 1
  | .inf n => if n then 2 else 9
  | .fin n m _ =>
    if m = 0 then (if n then 5 else 6)
    else if m < 2 ^ f.fb then (if n then 4 else 7) else (if n then 3 else 8)

/-! ## Approximations (R207, R208) -/

/-- Bits of precision of the fixed-point numbers that enclose a function's value. -/
def fixP : Nat := 512
/-- π in units of 2^-512. -/
def piFix : Nat :=
  0x3243F6A8885A308D313198A2E03707344A4093822299F31D0082EFA98EC4E6C89452821E638D01377BE5466CF34E90C6CC0AC29B7C97C50DD3F84D5B5B5470917
/-- ln 2 in units of 2^-512. -/
def ln2Fix : Nat :=
  0xB17217F7D1CF79ABC9E3B39803F2F6AF40F343267298B62D8A0D175B8BAAFA2BE7B876206DEBAC98559552FB4AFA1B10ED2EAE35C138214427573B291169B825

/-- Integer square root by bits, from a bit count. -/
def isqrt : Nat → Nat → Nat → Nat
  | 0, _, r => r
  | k + 1, n, r => if (r + 2 ^ k) * (r + 2 ^ k) ≤ n then isqrt k n (r + 2 ^ k) else isqrt k n r

/-- Square root rounded down. -/
def sqrtDown (n : Nat) : Nat := isqrt (Nat.log2 n / 2 + 1) n 0

/-- The magnitude pattern b in units of 2^q, for q not above the lowest subnormal's exponent; the pattern of infinity counts
as the next power of two. -/
def Fmt.units (f : Fmt) (b : Nat) (q : Int) : Nat :=
  let ex := b / 2 ^ f.fb
  if ex = 0 then b * 2 ^ (f.qmin - q).toNat
  else (2 ^ f.fb + b % 2 ^ f.fb) * 2 ^ (f.qmin + (ex : Int) - 1 - q).toNat

/-- The format's values at most `ulps` ulps of v away from ± v, where v lies at or above m × 2^e and less than one unit of m
away (R207). A value beyond the format is infinity. -/
def Fmt.near (f : Fmt) (neg : Bool) (m : Nat) (e : Int) (ulps : Nat) : List Nat :=
  let top : Int := e + (Nat.log2 m : Int)
  if m ≠ 0 ∧ (f.bias : Int) < top then [f.sign neg + f.inf] else
  let lo := (f.round 1 false m e).v
  let q : Int := min e f.qmin
  let v := m * 2 ^ (e - q).toNat
  let room := ulps * 2 ^ (max (top - (f.fb : Int)) f.qmin - q).toNat
  (List.range (4 * ulps + 1)).filterMap (fun i =>
    if lo + i < 3 * ulps then none else
    let b := lo + i - 3 * ulps
    let x := f.units b q
    if f.inf < b ∨ v + room < x ∨ x + room < v + 2 ^ (e - q).toNat then none else some (f.sign neg + b))

/-- Flags of an approximation that is no exact case (R207). -/
def Fmt.approxFlags (f : Fmt) (b : Nat) : Nat :=
  let mag := b % 2 ^ (f.eb + f.fb)
  if mag = f.inf then fOF else if mag < 2 ^ f.fb then fUF + fIX else fIX

/-- The result that the device picks among the allowed ones, a fixed function of the element (R207, log entry 2). -/
def Fmt.pick (f : Fmt) (fn tag bits : Nat) (cs : List Nat) : ER :=
  let b := cs.getD (Config.approx fn tag bits % max 1 cs.length) 0
  ⟨b, f.approxFlags b⟩

/-- 1 / x. -/
def Fmt.rcp (f : Fmt) (tag a : Nat) : ER :=
  match f.read a with
  | .nan s => f.nanOut s
  | .inf n => ⟨f.sign n, 0⟩
  | .fin n m e =>
    if m = 0 then ⟨f.sign n + f.inf, fDZ⟩ else
    if m = 2 ^ Nat.log2 m then
      let r := f.round 0 n 1 (-(e + Nat.log2 m))
      if r.fl = 0 then r else f.pick 0 tag a (f.near n (2 ^ 64) (-(e + Nat.log2 m) - 64) 1)
    else f.pick 0 tag a (f.near n (2 ^ 64 / m) (-(e + 64)) 1)

/-- Square root of m × 2^e with 2k extra bits: root rounded down, its exponent, and whether it is exact. -/
def rootOf (m : Nat) (e : Int) : Nat × Int × Bool :=
  let (m, e) := if e % 2 = 0 then (m, e) else (2 * m, e - 1)
  let big := m * 2 ^ 64
  let r := sqrtDown big
  (r, e / 2 - 32, r * r == big)

/-- √x. -/
def Fmt.sqrt (f : Fmt) (tag a : Nat) : ER :=
  match f.read a with
  | .nan s => f.nanOut s
  | .inf n => if n then f.nanOut true else ⟨f.inf, 0⟩
  | .fin n m e =>
    if m = 0 then ⟨f.sign n, 0⟩ else if n then f.nanOut true else
    let (r, q, exact) := rootOf m e
    let x := f.round 0 false r q
    if exact ∧ x.fl = 0 then x else f.pick 2 tag a (f.near false r q 1)

/-- 1 / √x: exact only for an even power of two. -/
def Fmt.rsq (f : Fmt) (tag a : Nat) : ER :=
  match f.read a with
  | .nan s => f.nanOut s
  | .inf n => if n then f.nanOut true else ⟨0, 0⟩
  | .fin n m e =>
    if m = 0 then ⟨f.sign n + f.inf, fDZ⟩ else if n then f.nanOut true else
    let l := Nat.log2 m
    if m = 2 ^ l ∧ (e + l) % 2 = 0 then f.round 0 false 1 (-((e + l) / 2)) else
    let (m, e) := if e % 2 = 0 then (m, e) else (2 * m, e - 1)
    f.pick 1 tag a (f.near false (sqrtDown (2 ^ 160 / m)) (-(e / 2) - 80) 1)

/-- Σ c_k y^k from the inside out, with c_k = c_(k-1) × sgn / d(k), in units of 2^-512; y in the same units. -/
def seriesFix (neg : Bool) (d : Nat → Nat) (y : Nat) : Nat → Nat → Int
  | 0, _ => 2 ^ fixP
  | n + 1, k =>
    let r := seriesFix neg d y n (k + 1)
    let t := (y : Int) * r / (2 ^ fixP * d k : Nat)
    2 ^ fixP + (if neg then -t else t)

/-- e^y for 0 ≤ y < 1 in units of 2^-512. -/
def expFix (y : Nat) : Nat := (seriesFix false (fun k => k) y 100 1).toNat

/-- ± m × 2^e in units of 2^-512, rounded down in magnitude. -/
def toFix (m : Nat) (e : Int) : Nat :=
  let k := e + (fixP : Int)
  if 0 ≤ k then m * 2 ^ k.toNat else m / 2 ^ (-k).toNat

/-- 2^x; exact for integral x whose power the format holds. -/
def Fmt.exp2 (f : Fmt) (tag a : Nat) : ER :=
  match f.read a with
  | .nan s => f.nanOut s
  | .inf n => if n then ⟨0, 0⟩ else ⟨f.inf, 0⟩
  | .fin n m e =>
    if m = 0 then ⟨f.round 0 false 1 0 |>.v, 0⟩ else
    let x := min (toFix m e) (2 ^ (fixP + 9))
    let whole := x / 2 ^ fixP
    let frac := x % 2 ^ fixP
    let integral := decide (0 ≤ e) || m % 2 ^ (-e).toNat == 0
    if integral then
      let r := f.round 0 false 1 (if n then -(whole : Int) else whole)
      if r.fl = 0 then r else f.pick 3 tag a (f.near false (2 ^ 64) ((if n then -(whole : Int) else whole) - 64) 2)
    else
      let (w, fr) := if n then (-(whole : Int) - 1, 2 ^ fixP - frac) else ((whole : Int), frac)
      f.pick 3 tag a (f.near false (expFix (fr * ln2Fix / 2 ^ fixP)) (w - fixP) 2)

/-- log2 x; exact for powers of two. -/
def Fmt.log2 (f : Fmt) (tag a : Nat) : ER :=
  match f.read a with
  | .nan s => f.nanOut s
  | .inf n => if n then f.nanOut true else ⟨f.inf, 0⟩
  | .fin n m e =>
    if m = 0 then ⟨f.sign true + f.inf, fDZ⟩ else if n then f.nanOut true else
    let l := Nat.log2 m
    let k : Int := e + l
    if m = 2 ^ l then f.round 0 (decide (k < 0)) k.natAbs 0 else
    let y := (m - 2 ^ l) * 2 ^ fixP / (m + 2 ^ l)
    let y2 := y * y / 2 ^ fixP
    let odd := (List.range 180).foldr (fun i (acc : Nat) => 2 ^ fixP / (2 * i + 1) + y2 * acc / 2 ^ fixP) 0
    let ln := 2 * y * odd / 2 ^ fixP
    let v : Int := k * 2 ^ fixP + (ln * 2 ^ fixP / ln2Fix : Nat)
    f.pick 4 tag a (f.near (decide (v < 0)) v.natAbs (-(fixP : Int)) 2)

/-- sin r / r for r² in units of 2^-512. -/
def sincFix (r2 : Nat) : Int := seriesFix true (fun k => 2 * k * (2 * k + 1)) r2 80 1
/-- cos r for r². -/
def cosFix (r2 : Nat) : Int := seriesFix true (fun k => (2 * k - 1) * (2 * k)) r2 80 1

/-- |x| reduced modulo 2π exactly (R207), as a signed fixed-point number between -π and π. -/
def reduceFix (m : Nat) (e : Int) : Int :=
  let x := toFix m e % (2 * piFix)
  if piFix < x then (x : Int) - (2 * piFix : Nat) else x

/-- sin x. -/
def Fmt.sin (f : Fmt) (tag a : Nat) : ER :=
  match f.read a with
  | .nan s => f.nanOut s
  | .inf _ => f.nanOut true
  | .fin n m e =>
    if m = 0 then ⟨f.sign n, 0⟩ else
    if e + (Nat.log2 m : Int) < -200 ∨ e + (Nat.log2 m : Int) < 0 then
      let y := toFix (m * m) (2 * e)
      f.pick 5 tag a (f.near n (m * (sincFix y).toNat) (e - fixP) 2)
    else
      let r := reduceFix m e
      let v := r * sincFix ((r * r).toNat / 2 ^ fixP) / (2 ^ fixP : Nat)
      f.pick 5 tag a (f.near (n != decide (v < 0)) v.natAbs (-(fixP : Int)) 2)

/-- cos x. -/
def Fmt.cos (f : Fmt) (tag a : Nat) : ER :=
  match f.read a with
  | .nan s => f.nanOut s
  | .inf _ => f.nanOut true
  | .fin _ m e =>
    if m = 0 then f.round 0 false 1 0 else
    let r := reduceFix m e
    let v := cosFix ((r * r).toNat / 2 ^ fixP)
    f.pick 6 tag a (f.near (decide (v < 0)) v.natAbs (-(fixP : Int)) 2)

/-- tanh x; ±1 with IX from |x| ≥ 9 on (R208). -/
def Fmt.tanh (f : Fmt) (tag a : Nat) : ER :=
  let one := (f.round 0 false 1 0).v
  match f.read a with
  | .nan s => f.nanOut s
  | .inf n => ⟨f.sign n + one, 0⟩
  | .fin n m e =>
    if m = 0 then ⟨f.sign n, 0⟩ else
    if 9 * 2 ^ fixP ≤ toFix m e then ⟨f.sign n + one, fIX⟩ else
    let y := toFix (m * m) (2 * e)
    let sh := (seriesFix false (fun k => 2 * k * (2 * k + 1)) y 80 1).toNat
    let ch := (seriesFix false (fun k => (2 * k - 1) * (2 * k)) y 80 1).toNat
    f.pick 7 tag a (f.near n (m * (sh * 2 ^ fixP / max 1 ch)) (e - fixP) 2)

/-! ## The BPN block (R145, R146) -/

/-- A BPN block: exponent byte, μ byte, sixteen elements as 8-bit patterns. -/
structure BpnBlock where
  e : Nat
  mu : Nat
  q : List Nat
  deriving DecidableEq, Repr

/-- Whether |x| lies below 2^k. -/
def belowPow (x : FVal) (k : Int) : Bool :=
  match x with
  | .fin _ m e => m == 0 || decide (e + (Nat.log2 m : Int) < k)
  | _ => false

/-- One element of a block scaled by 2^(134 − E + μ), rounded to nearest and saturated. -/
def bpnElem (ex : Nat) (mu : Nat) (x : FVal) : Nat :=
  match x with
  | .inf n => if n then 0x80 else 0x7F
  | .fin n m e =>
    let (r, _) := roundInt 0 n m (e + 134 - (ex : Int) + (mu : Int))
    wrapInt 8 (max (-128) (min 127 r))
  | .nan _ => 0

/-- Encoding of sixteen FP32 patterns (R145). -/
def bpnEncode (xs : List Nat) : BpnBlock :=
  let vs := xs.map fp32.read
  if vs.any (·.isNan) then ⟨255, 0, vs.map (fun _ => 0)⟩ else
  let anyInf := vs.any (·.isInf)
  let top : Option Int := vs.foldl (fun acc v => match v with
    | .fin _ m e => if m = 0 then acc else
        (match acc with | some t => some (max t (e + (Nat.log2 m : Int))) | none => some (e + (Nat.log2 m : Int)))
    | _ => acc) none
  if !anyInf && top.isNone then ⟨0, 0, vs.map (fun _ => 0)⟩ else
  let e : Int := top.getD 0
  let ex : Nat := if anyInf then 254 else (min (max (e + 128) 1) 254).toNat
  let small (v : FVal) : Bool := if anyInf then !v.isInf else belowPow v (e - 1)
  let muBit (j : Nat) : Nat :=
    if small (vs.getD (2 * j) (.fin false 0 0)) && small (vs.getD (2 * j + 1) (.fin false 0 0)) then 1 else 0
  let mu := (List.range 8).foldl (fun a j => a + muBit j * 2 ^ j) 0
  ⟨ex, mu, vs.zipIdx.map (fun x => bpnElem ex (muBit (x.2 / 2)) x.1)⟩

/-- Plane k of a block: bit i is bit k of element i (R142). -/
def BpnBlock.plane (b : BpnBlock) (k : Nat) : Nat :=
  b.q.zipIdx.foldl (fun a x => a + (if natBit x.1 k then 2 ^ x.2 else 0)) 0

/-- The word that the lane at a block position receives (R146). -/
def BpnBlock.lane (b : BpnBlock) (p : Nat) : Word :=
  BitVec.ofNat 32 (if p < 8 then b.plane (7 - p) else if p = 8 then 256 * b.mu + b.e else 0)

/-! ## FPCTL, FPSTAT, FPCNT (R134 to R139) -/

/-- The rounding mode of a group (R134). -/
def Group.rm (g : Group) : Nat := g.fpctl.toNat % 4

/-- The flags whose trap is enabled, in FPSTAT bit order (FPCTL has IV at bit 3 up to IX at bit 7). -/
def Group.traps (g : Group) : Nat :=
  (if g.fpctl.getLsbD 3 then fIV else 0) + (if g.fpctl.getLsbD 4 then fDZ else 0) + (if g.fpctl.getLsbD 5 then fOF else 0) +
  (if g.fpctl.getLsbD 6 then fUF else 0) + (if g.fpctl.getLsbD 7 then fIX else 0)

/-- Two flag sets meet. -/
def flagsMeet (a b : Nat) : Bool := [0, 1, 2, 3, 4].any (fun i => natBit a i && natBit b i)

/-- Union of flag sets. -/
def flagsOr (fs : List Nat) : Nat := fs.foldl (fun a b => a ||| b) 0

/-- Records the flags of contributing elements: sticky bits and saturating counts of IV, DZ, OF, UF, IX (R135 to R137). -/
def Group.record (g : Group) (fs : List Nat) : Group :=
  let cnt (bit : Nat) : Nat := (fs.filter (fun f => natBit f bit)).length
  { g with fpstat := g.fpstat ||| BitVec.ofNat 32 (flagsOr fs),
           fpcnt := [4, 3, 2, 1, 0].zipIdx.map (fun x => min (g.fpcnt.getD x.2 0 + cnt x.1) 0xFFFF) }

end Sys2Proof.Machine
end

