-- ==== Sys2Proof/Machine/Sequence.lean ====
section
/-! DEFINITION. Who moves next and with which instruction (R23, R76, R85, R93, R94, R167, R171): rejoin of paths, fetch,
readiness of gangs, the group schedulers, and the turn of a gang. -/

namespace Sys2Proof.Machine

/-! ## Rejoin (R171) -/

/-- The newest reconvergence entry that a slot pushed, with its index; the list's last entry is the newest. -/
def Slice.topOf (sl : Slice) (b : Bool) : Option (Nat × Recon) :=
  (sl.stack.zipIdx.filter (fun x => x.1.owner == b)).getLast?.map (fun x => (x.2, x.1))

/-- The rejoin address that counts for a slot (R171). -/
def Slice.rejoinAt (sl : Slice) (b : Bool) : DWord :=
  match sl.topOf b with
  | some (_, e) => e.rj
  | none => sl.rj

/-- Both slots wait at the slice's rejoin: single mode again with the union of the masks, in slot A's gang (R168, R171);
none when lanes are left and their return stacks differ in depth. -/
def Slice.merge (sl : Slice) : Option Slice :=
  if !(sl.dual && sl.a.st == .atRejoin && sl.b.st == .atRejoin) then some sl else
  let m := sl.a.mask ||| sl.b.mask
  if m ≠ 0 ∧ sl.a.ret.length ≠ sl.b.ret.length then none else
  some { sl with dual := false, b := PathUnit.empty, stack := [],
                 a := { sl.a with pc := sl.rj, mask := m, st := if m = 0 then .finished else .ready } }

/-- A slot reaches its relevant rejoin. -/
def Slice.reach (sl : Slice) (b : Bool) : Slice :=
  let u := sl.unit b
  match sl.topOf b with
  | some (i, e) =>
    if e.ran then
      { sl.setUnit b { u with pc := e.rj, mask := e.m } with stack := sl.stack.eraseIdx i }
    else
      { sl.setUnit b { u with pc := e.ft, mask := e.n } with stack := setAt sl.stack i { e with ran := true } }
  | none => sl.setUnit b { u with st := .atRejoin }

/-- A slot without lanes counts as having reached its rejoin, as often as it has entries (R171). -/
def Slice.settleEmpty : Nat → Slice → Slice
  | 0, sl => sl
  | n + 1, sl =>
    if !sl.dual then sl else
    if sl.a.st == .ready && sl.a.mask == 0 then Slice.settleEmpty n (sl.reach false) else
    if sl.b.st == .ready && sl.b.mask == 0 then Slice.settleEmpty n (sl.reach true) else sl

/-- Replaces a slice of a group. -/
def Group.setSlice (g : Group) (i : Nat) (sl : Slice) : Group := { g with slices := setAt g.slices i sl }

/-- Units of the list that stand at their relevant rejoin. -/
def Group.atRejoin (g : Group) (us : List (Nat × Bool × PathUnit)) : List (Nat × Bool) :=
  us.filterMap (fun u => match g.slices[u.1]? with
    | some sl => if sl.dual && sl.rejoinAt u.2.1 == u.2.2.pc then some (u.1, u.2.1) else none
    | none => none)

/-- The lanes of slices whose slots meet with return stacks of different depth: CALLDEPTH (R171). -/
def Group.badMerge (g : Group) : Mask :=
  g.slices.foldl (fun m sl => if sl.merge.isNone then m ||| sl.live else m) 0

/-- Listed units reach their rejoin, and slices whose two slots both wait there merge. -/
def Group.rejoin (g : Group) (us : List (Nat × Bool)) : Group :=
  let g := { g with slices := g.slices.zipIdx.map (fun x =>
    let sl := if us.contains (x.2, false) then x.1.reach false else x.1
    let sl := if us.contains (x.2, true) then sl.reach true else sl
    sl.settleEmpty 16) }
  if g.badMerge ≠ 0 then g else
    { g with slices := g.slices.map (fun (sl : Slice) => sl.merge.getD sl) }.dropEmptyGangs

/-! ## Fetch (R75, R239) -/

/-- Outcome of reading a word of code. -/
inductive Fetch where
  | word (w : Word)
  | page (entry : Nat)
  | fault (f : FaultInfo)
  deriving DecidableEq, Repr

/-- The word at a code address, as its home holds it (log entry 11). -/
def fetchWord (s : State) (ctx : Nat) (lanes : Mask) (a : DWord) : Fetch :=
  if a.toNat % 4 ≠ 0 then .fault { code := 0x08, lanes := lanes, faddr := a } else
  match walk s ctx a .exec with
  | .page e => .page e
  | .fault c d => .fault { code := c, datum := d, lanes := lanes, faddr := a }
  | .ok l =>
    if homePoison s l.vc l.pa then .fault { code := 0x17, lanes := lanes, faddr := a }
    else .word (BitVec.ofNat 32 (homeNat s l.vc 4 l.pa))

/-- n words from an address on, or the first that cannot be read with its address. -/
def fetchWords (s : State) (ctx : Nat) (lanes : Mask) : Nat → DWord → Except (DWord × Fetch) (List Word)
  | 0, _ => .ok []
  | n + 1, a =>
    match fetchWord s ctx lanes a with
    | .word w =>
      match fetchWords s ctx lanes n (a + 4) with
      | .ok ws => .ok (w :: ws)
      | .error e => .error e
    | f => .error (a, f)

/-- Arms a page monitor at the slice that homes an entry's sector; a slice that holds 32 arms none (R245). -/
def armMonitor (s : State) (phvc entry : Nat) (who : Waiter) : State × Bool :=
  let sl := match s.vcs.find phvc with | some v => v.slice entry | none => 0
  let m : Monitor := ⟨sl, entry / 64, who, false⟩
  if s.monitors.contains m then (s, true) else
  if 32 ≤ (s.monitors.filter (fun m => m.slice == sl)).length then (s, false)
  else ({ s with monitors := s.monitors ++ [m] }, true)

/-- Parks the issuing gang on an invalid entry: monitor or timer (R245). -/
def parkOnPage (s : State) (c : Cur) (ctx op entry : Nat) : State :=
  let (s, armed) := armMonitor s (s.ctx ctx).phvc entry (.op op)
  s.setWait c (if armed then .parked op else .timer op (s.clock + 65536))

/-- A fetch that finds an invalid entry parks the gang where it stands; the record is posted once for the park (R245). -/
def parkFetch (s : State) (c : Cur) (inrun : Bool) (a : DWord) (entry : Nat) : State :=
  match s.teams.find c.team, s.curGroup? c with
  | some t, some g =>
    match (g.gang? c.gang).map (fun (k : Gang) => k.wait) with
    | some (.replay op) => parkOnPage s c t.ctx op entry
    | _ =>
      let (op, s) := s.newOp c none (.fetch a)
      let s := postTeam s t 1 (faultRecord g c inrun { code := 0x10, lanes := c.lanes, faddr := a, replay := true })
      parkOnPage s c t.ctx op entry
  | _, _ => s

/-! ## Readiness (R23, R94) -/

/-- The gang that waits at a memory word can go on (R243 to R245): every lane has been translated, faulted or dropped; and where
a lane of a word that waits for data has faulted or parked, every other lane's outcome is known too. -/
def OpBody.translated : OpBody → Bool
  | .mem m => m.accs.all (fun a => a.st != .walk) &&
      ((m.kind == .store || m.kind == .storeU) || m.accs.any (fun a => a.st == .ready && m.kind.isAtomic) ||
       !m.accs.any (fun a => a.st.soft || (match a.st with | .faulted _ _ => true | _ => false)) ||
       m.accs.all (fun a => a.st.ended || a.st.soft))
  | _ => true

/-- A sync word's GEN at a slot offset of a team's bank map. -/
def syncGen? (s : State) (t : Team) (off : Nat) : Option Word :=
  match t.slots[off / 32768]? with
  | some (.attached b) =>
    some (BitVec.ofNat 32 (leVal (Memory.readN ((s.cluster t.pool).bank b).mem 4 (off % 32768 / 16 * 16 + 8))))
  | _ => none

/-- A ring by handle: cluster and index in [15:0], generation not kept (R271). -/
def ringOf (s : State) (h : Word) : Option Ring := (s.cluster (h.toNat / 64)).rings.find (h.toNat % 64)

/-- Every unretired group is among the listed ones. -/
def Team.allGroups (t : Team) (ids : List Nat) : Bool := t.groups.all (fun g => g.retired || ids.contains g.id)

/-- The level that forms opens now: every unretired group has issued its ENSURE and a release at team scope holds for each
(R403). -/
def Team.levelOpens (t : Team) (s : State) : Bool :=
  match t.forming with
  | some l => t.allGroups l.arrived && t.groups.all (fun g => g.retired || releaseDone s t g 1 s.opCtr)
  | none => false

/-- Everything that a team has issued from a number on is complete, performed, finished or answered (R405, R407). -/
def teamQuiet (s : State) (t : Team) (first : Nat) : Bool :=
  let blk (b : Block) : Bool := b.team == t.id && decide (first ≤ b.id)
  !s.ops.any (fun o => o.2.team == t.id && decide (first ≤ o.1) && (match o.2.body with | .evict k _ _ => k != t.id | _ => true)) &&
  !s.copies.any (fun c => c.2.team == t.id && decide (first ≤ c.1)) &&
  !t.groups.any (fun g => g.fifo.any blk) && !s.cores.any (fun c => c.2.merge.any blk || c.2.comm.any blk) &&
  t.cmp.held.isEmpty && t.cmp.seen.isEmpty

/-- The innermost level can be judged: every unretired group has issued VERDICT, and its routine's operations are over; a
joined level's verdict that is posted waits for the conversation (R405, R422). -/
def Team.verdictReady (t : Team) (s : State) : Bool :=
  match t.levels.getLast? with
  | some l => t.allGroups (l.verdicts.map (·.1)) && !l.posted && teamQuiet s t l.first &&
      (!l.joined || t.copy != .trailing)
  | none => true

/-- What a gang waits for has come about, so that its word goes on when the gang is picked. -/
def waitReady (s : State) (t : Team) (g : Group) : Wait → Bool
  | .none => true
  | .woken => true
  | .replay op => match s.ops.find op with | some o => o.body.translated | none => true
  | .translate op => match s.ops.find op with | some o => o.body.translated | none => true
  | .event m => decide (g.evpend &&& m ≠ 0)
  | .grow n => growFits s g n || t.oldRegs.contains g.id
  | .stage r k ph => match (t.phases.getD r [])[k]? with | some p => p == ph | none => true
  | .token z => t.tokens.getD z none == some g.id
  | .queue q target => match s.queues.find q with
    | some e => !e.v || decide (target ≤ e.counter)
    | none => true
  | .sync off gen => t.copy == .trailing || (match syncGen? s t off with | some w => w != gen | none => true)
  | .ring h tail => match ringOf s h with | some r => r.tail != tail | none => true
  | .batch b => match g.batches[b]? with | some x => x.st != .sealed | none => true
  | .ensure n => t.fail.isNone && (decide (n ≤ t.levels.length) || t.levelOpens s)
  | .verdict n => t.fail.isNone && (decide (t.levels.length < n) || t.verdictReady s)
  | .convjoin => t.fail.isNone && (t.copy == .trailing || (match t.levels.getLast? with | some l => l.formed | none => true))
  | _ => false

/-- The gang is inside a run and neither parked nor blocked there: it issues, or waits for a translation (R85, R94). -/
def Gang.issuing (k : Gang) : Bool :=
  k.run.isSome && (match k.wait with | .none => true | .translate _ => true | _ => false)

/-- Another gang of the group is inside a run that is issuing (R85). -/
def Group.busyOther (g : Group) (k : Nat) : Bool := g.gangs.any (fun x => x.id != k && x.issuing)

/-- Of both slots of a slice only slot A, which issues first: they share the slice's column (R166, R167). -/
def oneSlot (us : List (Nat × Bool)) : List (Nat × Bool) := us.filter (fun u => !u.2 || !us.contains (u.1, false))

/-- The units that a gang issues next and their PC (R167): those of its run, or its ready units at the PC of the first. -/
def Group.nextUnits (g : Group) (k : Gang) : Option (DWord × List (Nat × Bool)) :=
  match k.run with
  | some r => some (r.clause + BitVec.ofNat 64 (4 * r.off), r.units)
  | none =>
    let us := (g.gangUnits k.id).filter (fun u => u.2.2.st == .ready)
    match us with
    | [] => none
    | u :: _ => some (u.2.2.pc, oneSlot ((us.filter (fun x => x.2.2.pc == u.2.2.pc)).map (fun x => (x.1, x.2.1))))

/-- The wait mask of a CLAUSE at the gang's PC is satisfied (R85); any other word there lets the gang go on. -/
def clauseReady (s : State) (t : Team) (g : Group) (pc : DWord) : Bool :=
  match fetchWord s t.ctx 0 pc with
  | .word w =>
    match decodeWord w.toNat with
    | .ok (.clause wt _ _ _) => (List.range 12).all (fun i => !wt.getLsbD i || g.flagCount i == 0)
    | _ => true
  | _ => true

/-- A team's groups may issue at all: resident, with the banks of its slots attached, and a trailing copy started (R256, R353,
R432). -/
def Team.live (t : Team) : Bool := t.phase == .resident && t.promised.isEmpty && (t.copy != .trailing || t.started)

/-- A trailing copy that is being suspended or evicted issues on until it has started as many runs as its leading copy
(R439); one that is being terminated does not. -/
def catchesUp (s : State) (t : Team) (g : Group) : Bool :=
  t.copy == .trailing &&
  !s.ops.any (fun o => match o.2.body with | .evict k _ true => k == t.id | _ => false) &&
  match (t.twin.bind s.teams.find).bind (fun l => l.group? g.id) with
  | some h => decide (g.runs < h.runs)
  | none => false

/-- The trailing copy of a team that fails as a whole issues on to the runs that its leading copy has started, so that
every event of the leading copy is met (R407 step 2, R436); after a mismatch nothing is held. -/
def failsBehind (s : State) (t : Team) (g : Group) : Bool :=
  match t.twin.bind s.teams.find with
  | some l => (match l.fail with | some f => f.code != 0x1A && catchesUp s t g | none => false)
  | none => false

/-- An access of the group waits at its home slice on another team's provisional sector (R70): a lane that has reached the slice,
or a block that has passed the merge point. -/
def provParked (s : State) (t : Team) (g : Group) : Bool :=
  let blk (b : Block) : Bool := b.team == t.id && b.group == g.id && b.space == .global && !b.device &&
    b.cells.any (fun c => provBlocked s t.id (homeKey b.vc c.1))
  (s.homes.any (fun h => match h.2.st with | .prov x _ => x != t.id | _ => false)) &&
  (s.ops.any (fun o => o.2.team == t.id && o.2.group == g.id && (match o.2.body with
    | .mem m => m.space == .global && m.accs.any (fun a => a.st == .miss && provBlocked s t.id (homeKey a.vc a.pa))
    | _ => false)) ||
   (s.mergePoint g.core).any blk || (s.core (s.mergeKey g.core)).comm.any blk)

/-- A gang can issue (R23): ready, not parked or blocked, no other gang of its group inside an issuing run, and not stalled on
this clock (R85), its group not parked on a provisional sector (R70). At a run's start the team is also neither suspended nor being rolled back (R95, R407); inside a run, a gang
of a suspended team that was parked or blocked stays where it is (R94, R95). A halted command core issues nothing (R189). -/
def gangReady (s : State) (t : Team) (g : Group) (k : Gang) : Bool :=
  t.live && !g.retired && !g.sleeping && !provParked s t g && waitReady s t g k.wait && !g.busyOther k.id && k.tried != some s.clock &&
  !(t.command && s.mgmt.halted.contains t.core) &&
  match k.run with
  | some _ => !t.suspended || k.issuing || catchesUp s t g
  | none => (!t.suspended || catchesUp s t g) && (t.fail.isNone || failsBehind s t g) &&
    (match g.nextUnits k with
     | some (pc, _) => k.wait != .none || clauseReady s t g pc
     | none => false)

/-! ## The group scheduler of a core-half (R22, R23, R193, R367) -/

/-- A gang that can issue: team, group, gang, the time of its last issue, its lowest slice, the columns of its next units. -/
structure Candidate where
  team : Nat
  group : Nat
  gang : Nat
  last : Nat
  slice : Nat
  cols : List Nat
  deriving DecidableEq, Repr

/-- The gangs of a core-half that can issue. -/
def readyGangs (s : State) (core half : Nat) : List Candidate :=
  s.teams.flatMap (fun e => (e.2.groups.filter (fun g => g.core == core && g.half == half)).flatMap (fun g =>
    g.gangs.filterMap (fun k =>
      if gangReady s e.2 g k then
        some { team := e.1, group := g.id, gang := k.id, last := k.last,
               slice := match g.gangUnits k.id with | u :: _ => u.1 | [] => 0,
               cols := match g.nextUnits k with | some (_, us) => (unitSlices us).map (g.col + ·) | none => [] }
      else none)))

/-- Largest age first, then the lower group index, then within a group the lowest slice (R23). Which of two teams' gangs of
equal age and group index comes first is not stated: a free value decides (log entry 13). -/
def olderGang (clock : Nat) (a b : Candidate) : Bool :=
  if a.last ≠ b.last then decide (a.last < b.last) else
  if a.group ≠ b.group then decide (a.group < b.group) else
  if a.team ≠ b.team then Config.teamFirst clock a.team b.team else decide (a.slice < b.slice)

/-- Inserts a candidate behind those that come before it. -/
def insertOlder (clock : Nat) (x : Candidate) : List Candidate → List Candidate
  | [] => [x]
  | y :: r => if olderGang clock x y then x :: y :: r else y :: insertOlder clock x r

/-- A column of a core-half is free on this clock: no group that lives on it holds it (R22, R193). -/
def columnFree (s : State) (core half col : Nat) : Bool :=
  s.teams.all (fun e => e.2.phase != .resident || e.2.groups.all (fun g => g.core != core || g.half != half ||
    decide (col < g.col) || decide (g.busy.getD (col - g.col) 0 ≤ s.clock)))

/-- The first candidate, oldest first, whose columns are free and not kept for an older one that waits for them (R23, R367). -/
def pickFree (s : State) (core half : Nat) : List Nat → List Candidate → Option Candidate
  | _, [] => none
  | kept, x :: r =>
    if !x.cols.all (columnFree s core half) then pickFree s core half (kept ++ x.cols) r
    else if x.cols.any kept.contains then pickFree s core half kept r
    else some x

/-- The core-half has issued a gang on this clock (R23). -/
def slotUsed (s : State) (core half : Nat) : Bool := (s.core core).issued.getD half 0 == s.clock + 1

/-- The gang stands at the ENDRUN of its run and its ranges have room, or the word that it has waited at can go on: neither
takes an issue slot (R83, R88, R94). -/
def Group.goesFree (g : Group) (k : Gang) : Bool :=
  match k.run with
  | some r => (r.off == r.words.length && g.rangeRoom k.id) || (k.wait != .none && k.wait != .woken)
  | none => false

/-- What the scheduler of a core-half does next on this clock: a gang that needs no issue slot; else, once a clock, the gang
that it picks (R23, R83). -/
def pickGang (s : State) (core half : Nat) : Option (Nat × Nat × Nat) :=
  let cs := readyGangs s core half
  match cs.find? (fun x => ((s.group? x.team x.group).bind (fun g => (g.gang? x.gang).map g.goesFree)).getD false) with
  | some x => some (x.team, x.group, x.gang)
  | none =>
    if slotUsed s core half then none else
    (pickFree s core half [] (cs.foldr (insertOlder s.clock) [])).map (fun x => (x.team, x.group, x.gang))

/-! ## The turn of a gang -/

/-- What happens in a step: the machine stops, the state changes without an instruction, or an instruction runs. -/
inductive Move where
  | stop (f : Fault)
  | idle (s : State)
  | run (i : Instr) (s : State)

/-- The instruction of a word; a reserved word is RESERVED_WORD (R106). -/
def wordInstr (w : Word) : Instr :=
  match decodeWord w.toNat with
  | .ok i => i
  | .error _ => .reservedWord

/-- The next word of the gang's run: the run's words were read at its start (R84). -/
def runMove (s : State) (t : Team) (g : Group) (k : Gang) (r : Run) : Move :=
  let w := r.words.getD (r.off - 1) 0
  let lanes := g.unitLanes r.units
  let lanes := match r.replay with | some m => lanes &&& m | none => lanes
  let units := match r.replay with | some m => r.units.filter (fun u => g.unitLanes [u] &&& m != 0) | none => r.units
  .run (wordInstr w) { s with cur := some { team := t.id, group := g.id, gang := k.id, units := units, lanes := lanes,
                                            addr := r.clause + BitVec.ofNat 64 (4 * r.off), word := w } }

/-- A gang at a run's start: a fault kept for it is delivered (R274, R394), units at their rejoin join, and the word at
the PC is fetched (R93, R171, R239). -/
def startMove (s : State) (t : Team) (g : Group) (k : Gang) (pc : DWord) (us : List (Nat × Bool)) : Move :=
  match g.late with
  | r :: rest => .idle (takeKept (s.onGroup t.id g.id (fun x => { x with late := rest })) t g k.id r)
  | [] =>
    let here := g.units.filter (fun u => us.contains (u.1, u.2.1))
    let back := g.atRejoin here
    if back ≠ [] then
      let g' := g.rejoin back
      let c : Cur := { team := t.id, group := g.id, gang := k.id, units := back, lanes := g'.badMerge, addr := pc, word := 0 }
      if g'.badMerge ≠ 0 then .idle (takeFault s c false { code := 0x0D, lanes := g'.badMerge })
      else .idle (s.onGroup t.id g.id (fun _ => g'))
    else
      let c : Cur := { team := t.id, group := g.id, gang := k.id, units := us, lanes := g.unitLanes us, addr := pc, word := 0 }
      match fetchWord s t.ctx c.lanes pc with
      | .word w => .run (wordInstr w) { s with cur := some { c with word := w } }
      | .page e => .idle (parkFetch s c false pc e)
      | .fault f =>
        let via := match here with | u :: _ => u.2.2.via | [] => pc
        .idle (takeFault s (if f.code = 0x08 then { c with addr := via } else c) false f)

/-- The turn of one gang: nothing happens when it cannot issue. -/
def gangMove (s : State) (ti gi ki : Nat) : Move :=
  match s.teams.find ti with
  | none => .idle s
  | some t =>
    match t.group? gi with
    | none => .idle s
    | some g =>
      match g.gang? ki with
      | none => .idle s
      | some k =>
        if !gangReady s t g k then .idle s else
        let s := if t.begun then s else s.onTeam ti (fun t => { t with begun := true, order := s.now })
        let s := if k.wait = .woken then s.onGroup ti gi (fun x => x.onGang ki (fun y => { y with wait := .none })) else s
        match k.run with
        | some r => runMove s t g k r
        | none =>
          match g.nextUnits k with
          | some (pc, us) => startMove s t g k pc us
          | none => .idle s

/-! ## The agenda -/

/-- A turn of an event that is about up to two numbers. -/
def eventTurn (i : Instr) (a b : Nat) : Turn := ⟨0, .event i { a := a, b := b }⟩

/-- A turn of an event that is about three numbers and a choice. -/
def eventTurn3 (i : Instr) (a b c : Nat) (f : Bool) : Turn := ⟨0, .event i { a := a, b := b, c := c, flag := f }⟩

/-- Turns of what is under way: operations, blocks at the merge points, fills, copies, monitors. The number m chooses where a
turn has parts. -/
def workTurns (s : State) (m : Nat) : List Turn :=
  s.ops.flatMap (fun o => eventTurn .longLatencyCompletion o.1 m ::
    (match o.2.body with
     | .mem x => x.accs.flatMap (fun a => match a.st with
        | .walk => [eventTurn .translationWalk o.1 a.lane]
        | .bound => []
        | .dropped => []
        | _ => [eventTurn .loadReply o.1 a.lane])
     | .bgive .. => [eventTurn .giveLand o.1 0]
     | .bopen .. => [eventTurn .giveLand o.1 0]
     | .send .. => [eventTurn .ringMessageDelivery o.1 0, eventTurn .sendRefusal o.1 0]
     | .matrix .. => [eventTurn3 .matrixAccumulation o.1 m 0 false, eventTurn3 .matrixAccumulation o.1 m 0 true]
     | _ => [])) ++
  s.cores.flatMap (fun c => c.2.merge.map (fun b => eventTurn3 .storeAcknowledge c.1 b.id (m % 4) false) ++
    (if c.2.comm.isEmpty then [] else [eventTurn .commutativeFlush c.1 0])) ++
  s.homes.filterMap (fun h => match h.2.st with
    | .pending _ => some (eventTurn .sectorFillReturn (h.1 / 2 ^ 34) (h.1 % 2 ^ 34))
    | _ => none) ++
  s.vcs.flatMap (fun v => v.2.moved.map (eventTurn .lineHandover v.1)) ++
  s.copies.flatMap (fun c => [eventTurn .copyTransfer c.1 0, eventTurn .copyFinish c.1 0, eventTurn .syncWordRaise c.1 0]) ++
  s.monitors.map (fun k => eventTurn .pageMonitorWake k.sector 0)

/-- Turns that are about one group of a team. -/
def groupTurns (t : Nat) (g : Group) : List Turn :=
  (if g.fifo.isEmpty then [] else [eventTurn .storeBlockMerge t g.id]) ++ [eventTurn .groupRetire t g.id, eventTurn .compareMatch t g.id]

/-- Turns that are about teams and command queues. -/
def teamTurns (s : State) (m : Nat) : List Turn :=
  s.teams.flatMap (fun t => t.2.groups.flatMap (groupTurns t.1) ++
    [eventTurn .teamRetire t.1 0, eventTurn .barrierComplete t.1 0] ++
    (if t.2.phase = .resident then [] else
      [eventTurn3 .teamPlacement t.1 (m % 256) (m / 256 % 64) false, eventTurn3 .teamPlacement t.1 (m % 256) (m / 256 % 64) true]) ++
    (if t.2.fail.isSome then [eventTurn .levelRollback t.1 0, eventTurn .conversationJointFailure t.1 0] else []) ++
    (if t.2.levels.isEmpty then [] else [eventTurn .conversationFormation t.1 0, eventTurn .conversationCommit t.1 0]) ++
    (List.range 15).map (fun b => eventTurn .barpGenerationComplete t.1 (b + 1)) ++
    (List.range 4).map (fun z => eventTurn .tokenHandover t.1 z)) ++
  s.cores.flatMap (fun c => (List.range 2).map (eventTurn .growDeadlockEviction c.1)) ++
  s.ctxs.filterMap (fun c => if c.2.busy then some (eventTurn .contextDestructionDone c.1 0) else none) ++
  s.queues.flatMap (fun q => [eventTurn .nopRecord q.1 0, eventTurn .launchRecord q.1 0, eventTurn .waitRecord q.1 0,
    eventTurn .loadRecord q.1 0] ++ q.2.started.map (fun r => eventTurn .commandRecordComplete q.1 r.index))

/-- Turns of clusters, slice banks, the drawer and the fabric port. -/
def unitTurns (s : State) (m : Nat) : List Turn :=
  s.clusters.map (fun c => eventTurn .bankRetentionEntry c.1 (m % 64)) ++
  s.sliceUse.map (fun u => eventTurn .sliceRetentionEntry (u.1 / 12) (u.1 % 12)) ++
  [eventTurn .zeroMapBackgroundClear (m % (768 * 2 ^ 18)) 0, eventTurn .gftPut 0 0, eventTurn .gftGetRequest 0 0,
   eventTurn .gftAtomicRequest 0 0]

/-- Steps at a time that a rule states: they are tried on every clock, and do nothing before their time has come. -/
def timerTurns (s : State) : List Turn :=
  s.teams.flatMap (fun t => t.2.groups.flatMap (fun g => eventTurn .groupWatchdogExpiry t.1 g.id ::
      (if g.resv.isEmpty then [] else [eventTurn .cmlrReservationTimeout t.1 g.id]) ++
      g.allGangs.flatMap (fun k => match k.wait with
        | .sleep _ => [eventTurn3 .sleepExpiry t.1 g.id k.id false]
        | .timer _ _ => [eventTurn .walkRetryTimer t.1 g.id]
        | _ => [])) ++
    [eventTurn .trailingCopyStart t.1 0, eventTurn .compareWaitTimeout t.1 0, eventTurn .suspensionLimitExpiry t.1 0,
     eventTurn .ringClusterWaitTimeout t.1 0, eventTurn .cycleLimitExpiry t.1 0]) ++
  s.vcs.flatMap (fun v => v.2.clearing.map (fun c => eventTurn .shareClearingDone v.1 c.1)) ++
  s.copies.map (fun c => eventTurn .remoteOperationTimeout c.1 0) ++
  s.clusters.flatMap (fun c => eventTurn .clusterWatchdogFire c.1 0 ::
    c.2.banks.flatMap (fun b => [eventTurn .bankZeroingDone c.1 b.1, eventTurn .bankRetentionEntry c.1 b.1,
      eventTurn .bankRetentionExitDone c.1 b.1])) ++
  s.sliceRet.flatMap (fun u => [eventTurn .sliceRetentionEntry (u.1 / 12) (u.1 % 12),
    eventTurn .sliceRetentionExitDone (u.1 / 12) (u.1 % 12)]) ++
  s.links.flatMap (fun l => [eventTurn .linkstallTimeout l.1 0, eventTurn .linkdown l.1 0]) ++
  s.fabric.conns.flatMap (fun c => c.unacked.map (fun x => eventTurn3 .gftRetransmit c.owner c.peer x.1.seq false)) ++
  (List.range 8).map (fun d => eventTurn .commandCoreWatchdogExpiry d 0) ++ [eventTurn .thermalPowerRemoval 0 0]

/-- Steps of the optical ports, for the slots that begin within a clock (R453). -/
def slotTurns (s : State) : List Turn :=
  s.links.flatMap (fun l => (List.replicate 4 [Instr.readBundleSlot, .writeSlot, .maintenanceSlot, .readReplySlot,
    .acknowledgementSlot, .superframeBoundary]).flatten.map (fun i => eventTurn i l.1 0))

/-- Steps that have to fall on the next clock, since a commutative contribution has been waiting for 2,560 clocks then (R58): its
group's FIFO passes on what it holds, and the L1 that combines it gives up its contributions. -/
def dueTurns (s : State) : List Turn :=
  let due (b : Block) : Bool := b.mods.use == 2 && decide (b.born + 2560 ≤ s.clock + 1)
  s.teams.flatMap (fun t => t.2.groups.flatMap (fun g => if g.fifo.any due then
    g.fifo.map (fun _ => eventTurn .storeBlockMerge t.1 g.id) ++ [eventTurn .commutativeFlush (s.mergeKey g.core) 0] else [])) ++
  s.cores.filterMap (fun c => if c.2.comm.any due then some (eventTurn .commutativeFlush c.1 0) else none)

/-- Turns of the group schedulers: one for each core-half with groups (R23). -/
def issueTurns (s : State) : List Turn :=
  let halves := (s.teams.flatMap (fun t => t.2.groups.map (fun (g : Group) => (g.core, g.half)))).eraseDups
  halves.map (fun (h : Nat × Nat) => ⟨0, .scheduler h.1 h.2⟩)

/-- The engines' own turns (log entry 1). What reaches the module from outside is not among them. -/
def engineTurns (s : State) (m : Nat) : List Turn := workTurns s m ++ teamTurns s m ++ unitTurns s m

/-- Steps of the optical ports, which are timed in slots (R6, R453); every other step falls on a clock edge. -/
def slotTimed : Instr → Bool
  | .readBundleSlot => true
  | .writeSlot => true
  | .readReplySlot => true
  | .acknowledgementSlot => true
  | .maintenanceSlot => true
  | .superframeBoundary => true
  | _ => false

/-- The unit of time whose edges an actor moves at: a slot is 9 units of State.now, a clock 25 (R6). -/
def Actor.edge : Actor → Nat
  | .event i _ => if slotTimed i then 9 else 25
  | .scheduler _ _ => 25

/-- The agenda of the next clock: the engines' steps that free values choose to fall on it and those whose time a rule states,
then every group scheduler, then the optical ports (log entry 1). Every core-half's scheduler has its turn on every clock (R23,
R38). -/
def newRound (s : State) : State :=
  let (n, s) := s.free
  let (m, s) := s.free
  let chosen := ((engineTurns s m).zipIdx.filter (fun x => natBit n x.2)).map (·.1)
  let round := chosen ++ dueTurns s ++ timerTurns s ++ issueTurns s ++ slotTurns s
  match round with
  | [] => { s with agenda := [⟨1, .scheduler 0 0⟩] }
  | x :: r => { s with agenda := { x with dt := 1 } :: r }

/-- The next turn: the agenda's first, after a new clock's turns have been laid out when it is empty. -/
def nextTurn (s : State) : Turn × State :=
  let s := if s.agenda.isEmpty then newRound s else s
  match s.agenda with
  | t :: rest => (t, { s with agenda := rest })
  | [] => (⟨1, .scheduler 0 0⟩, s)

/-- A group's no-issue counter advances (R192): resident and not suspended, not asleep, not parked on PAGE or LINKSTALL. -/
def watched (t : Team) (g : Group) : Bool :=
  t.phase == .resident && !t.suspended && !g.retired && !g.sleeping && t.started &&
  !g.gangs.any (fun k => match k.wait with | .parked _ => true | .timer _ _ => true | _ => false)

/-- Time goes on to the first edge, of clocks or slots, at or after a time (R6), and the no-issue counters with it (R192). -/
def State.elapse (s : State) (dt edge : Nat) : State :=
  let now := (s.now + dt + edge - 1) / edge * edge
  { s.allGroups (fun t g => if watched t g then { g with idle := g.idle + (now - s.now) } else g) with now := now }

/-- What a turn does. A scheduler goes on for as long as it finds something to do on the clock (R23). -/
def actorMove (s : State) : Actor → Move
  | .event i sub => .run i { s with subject := sub, cur := none }
  | .scheduler core half =>
    match pickGang s core half with
    | some (t, g, k) => gangMove { s with agenda := ⟨0, .scheduler core half⟩ :: s.agenda } t g k
    | none => .idle s

/-- The next move of the module: time passes, then somebody moves. A module without power does nothing (R502). -/
def nextMove (s : State) : Move :=
  if !s.mgmt.powered then .stop .powerRemoved else
  let (t, s) := nextTurn s
  actorMove (s.elapse t.dt t.who.edge) t.who

/-! ## A place to put one instruction (log entry 1) -/

/-- One group of a command core, in system mode, inside a run whose words are given, about to issue the word at an
offset. -/
def probeGroup (words : List Word) (off : Nat) (inRun : Bool) : Group :=
  let u : PathUnit := { pc := 0x10000, via := 0x10000, mask := BitVec.allOnes 64, ret := [], st := .ready, gang := 0 }
  let mk (i : Nat) : Slice :=
    { dual := false, a := { u with mask := BitVec.ofNat 64 (15 * 2 ^ (4 * i)) }, b := PathUnit.empty, rj := 0, stack := [] }
  { id := 0, width := 64, lanepair := false, vregs := 128, sregs := 512, role := .vector, checked := false,
    rf := RegFile.reset, sh := none, tags := [], flags := [], pend := [], loose := [], sysmode := true, intrap := false, empty := false,
    fpctl := 0, fpstat := 0, fpcnt := [0, 0, 0, 0, 0], part := 6, winbase := 0, winlen := 0, faultlo := 0, faulthi := 0,
    errinj := 0, evpend := 0, mdef := 0, wdcfg := 0x100, cmpretry := 2, slices := (List.range 16).map mk,
    gangs := [{ id := 0, last := 0, wait := .none, tried := none, run := if inRun then some {
                  clause := 0x10000, words := words, off := off, fa := 0, fb := 1,
                  ranges := [⟨0, false, 0, 128⟩, ⟨0, true, 0, 512⟩], units := (List.range 16).map (fun i => (i, false)),
                  imm := none, hopnd := none, mpfx := none, temps := 0xFF, dests := [], yield := false, op := none, replay := none } else none }],
    gangCtr := 1, fifo := [], lastPage := [], seen := [], acqt := 0, idle := 0, busy := [], runs := 0, late := [], batches := [], openStat := Batch.free, resv := [], unitBad := [], shadow := none,
    retired := false, half := 0, col := 0, rows := List.range 512, core := 1792 }

/-- A descriptor of a command core's team (R13). -/
def probeDesc : Desc :=
  { entry := 0x10000, param := 0, gx := 1, gy := 1, gz := 1, width := 64, vregs := 128, threads := 64, sregs := 512,
    slots := 0, fused := false, protect := 0, copyFirst := 0, copyCount := 0, matFirst := 0, matCount := 0,
    stages := [0, 0, 0, 0], rcsize := 0, slack := 0, rcbase := 0, savebase := 0, savesize := 0, diemask := 1 }

/-- Compare state of a team that starts (R449). -/
def Compare.reset : Compare :=
  { held := [], seen := [], values := [], sent := [], taken := [], mismatch := 0, retries := 0, escal := 0, stall := 0,
    lastGroup := 0, lastDatum := 0 }

/-- The team of one group on the command core of CD0. -/
def probeTeam (g : Group) : Team :=
  { id := 0, handle := 0, ctx := 0, grid := 0, number := 0, queue := 0, desc := probeDesc, command := true,
    phase := .resident, begun := true, order := 0, core := 0, pair := false, suspended := false, suspendedAt := 0,
    evictReq := false, waitSince := 0, placedAt := 0, placeSeq := 0, resident := 0, groups := [g], trapvec := 0, barps := [],
    phases := [], slots := List.replicate 16 .detached, tokens := [none, none, none, none],
    tokpend := [none, none, none, none], levels := [], forming := none, fail := none, failSince := 0, rbcause := 0, committed := 0, rolled := 0,
    cmp := Compare.reset, copy := .only, twin := none, started := true, startAt := 0, saved := none, half1 := [],
    oldRegs := [], promised := [], regionHit := false }

/-- Page tables that map the first GiB of the drawer one to one through VC 0, and code words at 0x10000. -/
def probeCells (words : List Word) : List Host.Cell :=
  cellsAt 0x1000 (bytesLE 8 0x2001) ++ cellsAt 0x2000 (bytesLE 8 0x3001) ++ cellsAt 0x3000 (bytesLE 8 0x73) ++
  cellsAt 0x10000 (words.flatMap (fun w => bytesLE 4 w.toNat))

/-- Virtual cache 0 of the system context on one share, as an environment's firmware would define it. -/
def probeVc : Vc :=
  { ctx := 0, lsize := 0, assoc := 7, wpol := 0, repl := 0, lclass := 0, half := 0, shares := [0], clearing := [],
    old := none, moved := [], queued := [] }

/-- The state with one instruction placed where the next step fetches (log entry 1): a CLAUSE at the PC of a command
core's gang, in memory, followed by NOP words and an ENDRUN; any other word as the only word of a run in progress,
before its ENDRUN. -/
def placeWord (s : State) (w : Word) : State :=
  let turn : List Turn := [⟨0, .scheduler 1792 0⟩]
  match decodeWord w.toNat with
  | .ok (.clause _ _ _ l) =>
    let words := w :: (List.replicate l.toNat 0x18000000 ++ [0x08000000])
    { s with agenda := turn, cur := none, teams := [(0, probeTeam (probeGroup [] 0 false))],
             ctxs := [(0, { Ctx.reset with v := true, ptroot := 0x1000 })], vcs := [(0, probeVc)], homes := [],
             drawer := Drawer.write s.drawer (probeCells words) }
  | .ok (.endrun ..) =>
    { s with agenda := turn, cur := none, teams := [(0, probeTeam (probeGroup [w] 1 true))],
             ctxs := [(0, { Ctx.reset with v := true, ptroot := 0x1000 })] }
  | _ =>
    { s with agenda := turn, cur := none, teams := [(0, probeTeam (probeGroup [w, 0x08000000] 1 true))],
             ctxs := [(0, { Ctx.reset with v := true, ptroot := 0x1000 })] }

end Sys2Proof.Machine
end

