-- ==== Sys2Proof/Machine/Once.lean ====
section
/-! DEFINITION. Words that a team performs once (R419, R433 to R437): how each copy of a core-pair team issues them, the
exactly-once log, and how a word that translates its operands at issue parks. -/

namespace Sys2Proof.Machine

/-! ## Compared events (R436, R437) -/

/-- The compare buffer has room for n events of a leading copy (R437). -/
def slackRoom (t : Team) (n : Nat) : Bool :=
  t.copy != .leading || t.cmp.held.isEmpty ||
    decide (t.cmp.held.length + n ≤ (if t.desc.slack = 0 then 16 else t.desc.slack))

/-- A stalled clock of a leading copy (R449 STALL). -/
def countStall (s : State) (t : Team) : State :=
  if t.copy = .leading then s.onTeam t.id (fun t => { t with cmp := { t.cmp with stall := min (t.cmp.stall + 1) 0xFFFFFFFF } })
  else s

/-- Kinds of compared events (R436). -/
def eventStore : Nat := 1
def eventAtomic : Nat := 2
def eventOnce : Nat := 3
def eventDrain : Nat := 4
def eventEnd : Nat := 5
def eventRecord : Nat := 6
def eventPoint : Nat := 7

/-- The copy or lane that ERRINJ.COPY selects includes this team's copy (R445). -/
def injectHere (g : Group) (cp : CopyRole) : Bool :=
  let copy := natBits g.errinj.toNat 29 2
  if g.lanepair then true else
  match cp with
  | .only => true
  | .leading => copy != 2
  | .trailing => copy != 1

/-- An armed injection on the compared data of the active lanes: the lane, whether it is the shadow's data, the bit, and
ERRINJ after the event. -/
def Group.dataInjection (g : Group) (cp : CopyRole) (lanes : List Nat) : Option (Nat × Bool × Nat) × Word :=
  let n := g.errinj.toNat
  let lane := natBits n 0 6
  if !(natBit n 31 && natBits n 27 2 == 2 && injectHere g cp && lanes.contains lane) then (none, g.errinj) else
  if natBits n 8 8 ≠ 0 then (none, BitVec.ofNat 32 (n - 256)) else
  (some (lane, g.lanepair && natBits n 29 2 == 2, natBits n 16 5), BitVec.ofNat 32 (n - 2 ^ 31))

/-- The words of an event as a copy presents them: an injection that fires inverts a bit of the first (R446). -/
def flipFirst (inj : Option (Nat × Bool × Nat)) (words : List Nat) : List Nat :=
  match inj, words with
  | some (_, _, bit), w :: r => (w ^^^ 2 ^ bit) :: r
  | _, _ => words

/-- An event of the word being issued enters the compare engine of a core-pair team. -/
def State.event (s : State) (c : Cur) (kind : Nat) (words : List Nat) (faddr : DWord) (copy : Option Nat) : State :=
  match s.teams.find c.team, s.curGroup? c with
  | some t, some g =>
    if !t.paired then s else
    let (inj, ej) := g.dataInjection t.copy (lanesOf c.lanes)
    (s.onCur c (fun g => { g with errinj := ej })).onTeam c.team (fun t =>
      t.enterEvent (t.residentClocks s.clock) c.group kind c.addr c.lanes (flipFirst inj words) faddr none copy)
  | _, _ => s

/-- A word whose event has no effect of its own to wait for: it stalls while the buffer is full (R436, R437). -/
def markEvent (c : Cur) (kind : Nat) (words : List Nat) (own : State → Eff) (s : State) : Eff :=
  match s.teams.find c.team with
  | none => own s
  | some t =>
    if !t.paired then own s
    else if !slackRoom t 1 then .stay (countStall s t)
    else own (s.event c kind words 0 none)

/-- An operation's event still waits for its counterpart (R434). -/
def opHeld (s : State) (o : Op) : Bool :=
  match s.teams.find o.team with
  | some t => (t.cmp.held ++ t.cmp.seen).any (fun e => e.copy == some o.id)
  | none => false

/-! ## The value channel (R433) -/

/-- The oldest channel entry of a group, as its trailing copy sees it. -/
def channelHead (s : State) (t : Team) (group : Nat) : Option (List Nat) :=
  (t.twin.bind s.teams.find).bind (fun l => (l.cmp.values.find? (fun v => v.1 == group)).map (·.2))

/-- The trailing copy takes the oldest entry of a group. -/
def takeChannel (s : State) (t : Team) (group : Nat) : State :=
  match t.twin with
  | some l => s.onTeam l (fun x => { x with cmp := { x.cmp with
      values := x.cmp.values.eraseIdx (x.cmp.values.findIdx (fun v => v.1 == group)) } })
  | none => s

/-- Events that the leading copy's group has entered. -/
def leadSent (s : State) (t : Team) (group : Nat) : Nat :=
  match t.twin.bind s.teams.find with | some l => l.eventsSent group | none => 0

/-- The leading copy places an entry in the channel. -/
def State.giveChannel (s : State) (team group : Nat) (vals : List Nat) : State :=
  s.onTeam team (fun t => { t with cmp := { t.cmp with values := t.cmp.values ++ [(group, vals)] } })

/-- The leading copy changes the entry that an operation holds a place for. -/
def fillChannel (s : State) (team op : Nat) (vals : List Nat) : State :=
  s.onTeam team (fun t => { t with cmp := { t.cmp with values := t.cmp.values.map (fun (v : Nat × List Nat) =>
    match v.2 with
    | [0, k] => if k = op then (v.1, vals) else v
    | 2 :: k :: _ => if k = op then (v.1, vals) else v
    | _ => v) } })

/-- A group's share of the channel is full: 512 entries. -/
def channelFull (t : Team) (group : Nat) : Bool :=
  t.copy == .leading && decide (512 ≤ (t.cmp.values.filter (fun v => v.1 == group)).length)

/-- A value that the leading copy finds at issue: a team of one copy takes it as it is, the leading copy also places it in
the channel, and the trailing copy takes the channel's. A condition of the copy's own may hold the trailing copy back. -/
def withChannel (c : Cur) (vals : List Nat) (ready : List Nat → Bool) (own : List Nat → State → Eff) (s : State) : Eff :=
  match s.teams.find c.team with
  | none => own vals s
  | some t =>
    match t.copy with
    | .only => own vals s
    | .leading =>
      if channelFull t c.group then .stay s else own vals (s.giveChannel c.team c.group ([4, c.addr.toNat] ++ vals))
    | .trailing =>
      match channelHead s t c.group with
      | none => .stay s
      | some (0 :: _) => .stay s
      | some (4 :: ia :: vs) =>
        if ia ≠ c.addr.toNat then .fault { code := 0x1A, datum := 2, lanes := c.lanes } s
        else if !ready vs then .stay s
        else own vs (takeChannel s t c.group)
      | some _ => .fault { code := 0x1A, datum := 2, lanes := c.lanes } s

/-- A value that the leading copy finds only when an operation of its own completes: the operation holds a place in the
channel, and the trailing copy waits for the value. -/
def withPlace (c : Cur) (lead : State → Nat × Eff) (own : List Nat → State → Eff) (s : State) : Eff :=
  match s.teams.find c.team with
  | none => (lead s).2
  | some t =>
    if t.copy = .trailing then withChannel c [] (fun _ => true) own s
    else if channelFull t c.group then .stay s
    else match lead s with
      | (id, .ok s) => .ok (if t.copy = .leading then s.giveChannel c.team c.group [0, id] else s)
      | (_, e) => e

/-- A fault that the leading copy took at a word, for the trailing copy: the word, the events before it, and what the
fault says. -/
def faultEntry (t : Team) (c : Cur) (rest : List Nat) : List Nat := [3, c.addr.toNat, t.eventsSent c.group] ++ rest

/-- The fault that the leading copy took at this word of the trailing copy. -/
def leadFault (s : State) (t : Team) (c : Cur) : Option (List Nat) :=
  match channelHead s t c.group with
  | some (3 :: ia :: n :: rest) => if ia = c.addr.toNat ∧ n = t.eventsSent c.group then some rest else none
  | _ => none

/-! ## Issue of a word that is performed once -/

/-- A word that is performed once: whether it is attached to FA, the first uniform register it writes, the operands that
its event's signature covers, its first address, and its number in the exactly-once log. -/
structure Once where
  fa : Bool := false
  d : Nat := 0
  words : List Nat := []
  faddr : DWord := 0
  log : Option Nat := none

/-- What the checks against shared state lead to: the operation goes to its engine, a fault, or the gang waits. -/
inductive Shared where
  | go (body : OpBody) (s : State)
  | fault (f : FaultInfo) (s : State)
  | hold (s : State)

/-- The hidden operation of a park is gone when the word goes on. -/
def Run.unpark (run : Run) (s : State) : State :=
  match run.op with
  | some op => s.completeOp op
  | none => s

/-- A word that translates at issue finds an invalid entry: the gang parks, and the record is posted once (R245). -/
def parkWord (c : Cur) (t : Team) (g : Group) (run : Run) (s : State) (va : DWord) (entry : Nat) : State :=
  match run.op with
  | some op => parkOnPage s c t.ctx op entry
  | none =>
    let (op, s) := s.newOp c none (.fetch va)
    let s := postTeam s t 1 (faultRecord g c true { code := 0x10, lanes := c.lanes, faddr := va, replay := true })
    parkOnPage (s.onRun c (fun r => { r with op := some op })) c t.ctx op entry

/-- RBOVERFLOW of a log or save that does not fit (R414). -/
def overflow (c : Cur) (s : State) : Eff := .fault { code := 0x1C, datum := 2, lanes := c.lanes } s

/-- Logs an exactly-once word for the innermost level, with 8 bytes more for each lane of an ATOM (R419). -/
def State.logOnce (s : State) (c : Cur) (log : Option Nat) (lanes : Nat := 0) : Option State :=
  match log, s.teams.find c.team with
  | some fn, some t =>
    (t.logOp { group := c.group, iaddr := c.addr, fn := fn, size := 32 + 8 * lanes, olds := [] }).map (s.putTeam c.team)
  | _, _ => some s

/-- Issue of a word that a team performs once: a replayed one takes the logged result; the leading copy's waits for its
match; the trailing copy's follows it, or takes the fault that the leading copy took. -/
def onceWord (c : Cur) (g : Group) (run : Run) (x : Once) (shared : Team → State → Shared) (s : State) : Eff :=
  match s.teams.find c.team with
  | none => .ok s
  | some t0 =>
    let (old, t) := match x.log with
      | some fn => if run.op.isSome then (none, t0) else t0.replayLog g.id c.addr fn
      | none => (none, t0)
    let s := s.putTeam c.team t
    match old with
    | some e => .ok (s.longOp c run x.fa (.ret x.d (e.olds.map (·.2)))).2
    | none =>
      if t.copy = .trailing then
        match leadFault s t c with
        | some (code :: datum :: va :: _) =>
          .fault { code := code, datum := datum, lanes := c.lanes, faddr := BitVec.ofNat 64 va } (takeChannel s t g.id)
        | _ =>
          if leadSent s t g.id ≤ t.eventsSent g.id then .stay s else
          match s.logOnce c x.log with
          | none => overflow c s
          | some s =>
            let (id, s) := s.longOp c run x.fa .done
            .ok ((s.setBody id (.follow id x.d)).event c eventOnce x.words x.faddr (some id))
      else if !slackRoom t 1 then .stay (countStall s t)
      else
        match shared t s with
        | .hold s => .stay s
        | .fault f s =>
          .fault f (if t.copy = .leading then s.giveChannel c.team g.id (faultEntry t c [f.code, f.datum, f.faddr.toNat])
            else s)
        | .go body s =>
          match s.logOnce c x.log with
          | none => overflow c s
          | some s =>
            let (id, s) := (run.unpark s).longOp c run x.fa body
            .ok (s.event c eventOnce x.words x.faddr (some id))

/-- Words that raise OPERAND in a core-pair team (R435). -/
def soloWord (c : Cur) (s : State) (own : Eff) : Eff :=
  match s.teams.find c.team with
  | some t => if t.paired then .fault { code := 0x03, datum := 0xA0, lanes := c.lanes } s else own
  | none => own

/-- The level state of a team that restricts a word (R417). -/
def State.levelOpen (s : State) (c : Cur) : Bool :=
  match s.teams.find c.team with | some t => !t.levels.isEmpty | none => false

/-! ## The end of an operation that returns words -/

/-- Writes words to uniform registers of an operation's group and completes it, and every trailing operation that follows
it (R433); register 512 stands for none. -/
def finishOp (s : State) (id : Nat) (vals : List Nat) (d : Nat) : State :=
  let one (s : State) (o : Op) (d : Nat) : State :=
    let s := if 512 ≤ d then s else
      s.onGroup o.team o.group (fun g => g.putSs d (vals.map (fun n => BitVec.ofNat 32 n)))
    s.completeOp o.id
  match s.ops.find id with
  | none => s
  | some o =>
    let followers := s.ops.filter (fun e => match e.2.body with | .follow l _ => l == id && e.1 != id | _ => false)
    let s := one s o d
    followers.foldl (fun s e => match e.2.body with | .follow _ d' => one s e.2 d' | _ => s) s

/-- The result of an exactly-once operation goes into the log of each copy (R419, R438). -/
def logDone (s : State) (o : Op) (fn lane old : Nat) : State :=
  (s.pairOf o.team).foldl (fun s i => s.onTeam i (fun t => t.logResult o.group o.iaddr fn lane old)) s

/-! ## Events of the engines and of the outside -/

/-- An event acts on the state as its subject says; the subject is used up. -/
def onEvent (f : Subject → State → State) (s : State) : Host.Outcome State Fault Refusal :=
  .next { f s.subject s with subject := {} }

end Sys2Proof.Machine
end

