-- ==== Sys2Proof/Machine/Runs.lean ====
section
/-! DEFINITION. Runs and hint words (R83 to R104), BRK (R188) and reserved words (R106). -/

namespace Sys2Proof.Machine

/-- A word that must stand at offset LEN: DBR, CALL, LOOP, RET, BRX, EXIT (R84). A reserved word is none of them: it has its
fate when it issues (R76, R106). -/
def endsRun (w : Word) : Bool :=
  match decodeWord w.toNat with
  | .ok (.dbr ..) => true
  | .ok (.call ..) => true
  | .ok (.loop ..) => true
  | .ok .ret => true
  | .ok (.brx ..) => true
  | .ok .exit => true
  | _ => false

/-- A hint that attaches to a following word: HIMM, HOPND, MPFX (R84, R99). -/
def attaches (w : Word) : Bool :=
  match decodeWord w.toNat with
  | .ok (.himm ..) => true
  | .ok (.hopnd ..) => true
  | .ok (.mpfx ..) => true
  | _ => false

/-- The ranges of an ENDRUN word bound to a flag (R88, R98). -/
def endRanges (fa : Nat) (c : BitVec 1) (f : BitVec 8) (n : BitVec 4) (k : BitVec 1) (h : BitVec 8) (m : BitVec 4) :
    List PendRange :=
  let mk (sc : Bool) (f n : Nat) : List PendRange := if n = 0 then [] else [⟨fa, sc, if sc then 2 * f else f, n⟩]
  mk (c == 1) f.toNat n.toNat ++ mk (k == 1) h.toNat m.toNat

/-- A range lies within v0-v127 or s0-s511 (R84). -/
def PendRange.fits (p : PendRange) : Bool := decide (p.first + p.count ≤ if p.scalar then 512 else 128)

/-- A range lies within the group's allocation (R76, R152). -/
def PendRange.allocated (p : PendRange) (g : Group) : Bool := decide (p.first + p.count ≤ if p.scalar then g.sregs else g.vregs)

/-- The checks of a run at its start (R84): the ranges, or a fault code and datum. A range that names a register beyond the
group's allocation raises OPERAND (R76 step 4, R152), found where the ENDRUN is read. -/
def checkRun (g : Group) (fa : Nat) (words : List Word) : Except (Nat × Nat) (List PendRange) :=
  let len := words.length - 1
  let body := words.dropLast
  match words.getLast?.map (fun w => decodeWord w.toNat) with
  | some (.ok (.endrun c f n k h m)) =>
    let rs := endRanges fa c f n k h m
    if !rs.all (·.fits) then .error (0x01, 0) else
    if !rs.all (·.allocated g) then .error (0x03, 0) else
    let bad1 := body.findIdx? (fun w => [1, 2].contains (natBits w.toNat 26 6))
    let bad2 := body.findIdx? endsRun
    match bad1 with
    | some i => .error (0x04, formDatum 1 (i + 1))
    | none =>
      match bad2 with
      | some i => if i + 1 ≠ len then .error (0x04, formDatum 2 (i + 1)) else
          if fa = 15 ∧ rs ≠ [] then .error (0x04, formDatum 4 (len + 1)) else .ok rs
      | none =>
        if (body.getLast?.map attaches).getD false then
          .error (0x04, formDatum 3 len)
        else if fa = 15 ∧ rs ≠ [] then .error (0x04, formDatum 4 (len + 1)) else .ok rs
  | _ => .error (0x01, 0)

/-- The group takes its context's MDEF, WDCFG and CMPRETRY at a run start (R103), and an injection that waits for it
(R447). -/
def runStart (s : State) (c : Cur) : State :=
  match s.teams.find c.team, s.curGroup? c with
  | some t, some g =>
    let x := s.ctx t.ctx
    let mine (a : Nat × Nat × Word) : Bool := a.1 == t.id && a.2.1 == g.id
    let inj := (s.inject.armed.filter mine).getLast?
    let left := s.inject.armed.filter (fun a => !mine a)
    let s := s.onCur c (fun g => { g with mdef := x.mdef, wdcfg := x.wdcfg, cmpretry := x.cmpretry,
                                          errinj := match inj with | some a => a.2.2 | none => g.errinj })
    { s with inject := { s.inject with
        armed := left,
        status := if inj.isSome && !left.any (fun a => a.2.1 == g.id && (s.pairOf t.id).contains a.1) then 0 else s.inject.status } }
  | _, _ => s

/-- CLAUSE (R97): waits for the flags of its mask, reads and checks the whole run, and starts it. -/
def execClause (wt : BitVec 12) (a b : BitVec 4) (l : BitVec 5) (s : State) : Host.Outcome State Fault Refusal :=
  issueFree (fun c g run s =>
    if run.isSome then .fault { code := 0x04, datum := formDatum 1 0, lanes := c.lanes } s else
    if !(List.range 12).all (fun i => !wt.getLsbD i || g.flagCount i == 0) then .stay s else
    let ctx := match s.teams.find c.team with | some t => t.ctx | none => 0
    match fetchWords s ctx c.lanes (l.toNat + 1) (c.addr + 4) with
    | .error (at?, .page e) => .free (parkFetch s c false at? e)
    | .error (_, .fault f) => .fault f s
    | .error (_, .word _) => .stay s
    | .ok ws =>
      match checkRun g a.toNat ws with
      | .error (code, datum) => .fault { code := code, datum := datum, lanes := c.lanes } s
      | .ok rs =>
        let r : Run :=
          { clause := c.addr, words := ws, off := 1, fa := a.toNat, fb := b.toNat, ranges := rs, units := c.units,
            imm := none, hopnd := none, mpfx := none, temps := 0, dests := [], yield := false, op := none, replay := none }
        .free ((runStart s c).onCur c (fun g =>
          { g.onGang c.gang (fun k => { k with run := some r, wait := .none }) with runs := g.runs + 1 }))) s

/-- ENDRUN (R98): the run ends, its ranges are bound, and its units go on behind it; it waits while more than 16 ranges
would be held (R88). -/
def execEndrun (_c : BitVec 1) (_f : BitVec 8) (_n : BitVec 4) (_k : BitVec 1) (_g : BitVec 8) (_m : BitVec 4) (s : State) :
    Host.Outcome State Fault Refusal :=
  issueFree (fun c g run s =>
    match run with
    | none => .free (badStart c g s)
    | some r =>
      if !g.rangeRoom c.gang then .stay s else
      let next := r.clause + BitVec.ofNat 64 (4 * (r.words.length + 1))
      .free (s.onCur c (fun g =>
        (g.mapUnits r.units (fun _ _ u => { u with pc := next, via := c.addr })).leaveRun c.gang s.now))) s

/-- The pending immediate after an HIMM (R100). -/
def himmValue (p : BitVec 2) (v : BitVec 16) (old : Word) : Word :=
  match p.toNat with
  | 0 => v.signExtend 32
  | 1 => v.setWidth 32
  | 2 => v.setWidth 32 <<< 16
  | _ => (old &&& 0xFFFF0000) ||| v.setWidth 32

/-- HIMM (R100). -/
def execHimm (p : BitVec 2) (v : BitVec 16) (s : State) : Host.Outcome State Fault Refusal :=
  issue { hint := true } (fun c _ run s =>
    .hint (s.onRun c (fun r => { r with imm := some (himmValue p v (run.imm.getD 0)) }))) s

/-- HOPND (R101); a code that it cannot hold raises OPERAND (R79), a second one before one word RUNFORM (R99). -/
def execHopnd (o : BitVec 8) (s : State) : Host.Outcome State Fault Refusal :=
  issueD (fun _ g _ => { hint := true, bad := !g.hopOk o.toNat }) (fun c _ run s =>
    if run.hopnd.isSome then .fault { code := 0x04, datum := formDatum 8 run.off, lanes := c.lanes } s
    else .hint (s.onRun c (fun r => { r with hopnd := some o }))) s

/-- MPFX (R102): the six modifier fields, kept at their bit positions; a second one before one word raises RUNFORM. -/
def execMpfx (o sg p c u : BitVec 3) (n : BitVec 2) (s : State) : Host.Outcome State Fault Refusal :=
  issue { hint := true } (fun cur _ run s =>
    if run.mpfx.isSome then .fault { code := 0x04, datum := formDatum 8 run.off, lanes := cur.lanes } s
    else
      let w : Word := BitVec.ofNat 32 (o.toNat * 2 ^ 23 + sg.toNat * 2 ^ 20 + p.toNat * 2 ^ 17 + c.toNat * 2 ^ 14 +
        u.toNat * 2 ^ 11 + n.toNat * 2 ^ 9)
      .hint (s.onRun cur (fun r => { r with mpfx := some w }))) s

/-- NOP (R104): takes an issue slot. -/
def execNop (s : State) : Host.Outcome State Fault Refusal := issue { hint := true } (fun _ _ _ s => .hint s) s

/-- HSCHED.yield (R104): the ages of the group's gangs go to zero at the end of the run. -/
def execHschedYield (s : State) : Host.Outcome State Fault Refusal :=
  issue { hint := true } (fun c _ _ s => .hint (s.onRun c (fun r => { r with yield := true }))) s

/-- HSCHED.pref (R104): a request to the instruction buffer, which changes no result. -/
def execHschedPref (s : State) : Host.Outcome State Fault Refusal := issue { hint := true } (fun _ _ _ s => .hint s) s

/-- A record of KIND 1 to 4 (R185, R188, R190). -/
def trapRecord (g : Group) (c : Cur) (kind num : Nat) (iaddr faddr : DWord) (inrun : Bool) : Record :=
  { code := 0, kind := kind, inrun := inrun, replay := false, sysmode := g.sysmode, double := false, group := g.id,
    num := num, iaddr := iaddr, lanes := c.lanes, faddr := faddr }

/-- BRK (R188): a KIND 3 record that names the BRK, delivered under R187, at a run start or inside a run. Inside a run a HOPND
or MPFX attached to it, which it cannot take, raises OPERAND (R99). -/
def execBrk (s : State) : Host.Outcome State Fault Refusal :=
  issueFree (fun c g run s =>
    if run.any (fun r => r.hopnd.isSome || r.mpfx.isSome) then .fault { code := 0x03, lanes := c.lanes } s
    else .free (deliver (s.takeSlot c) c.team c.group c.gang (trapRecord g c 3 0 c.addr 0 run.isSome))) s

/-- A reserved word (R106): ILLEGAL when it issues; at a run start only a malformed CLAUSE is (R84), any other word there
raises RUNFORM (R93). -/
def execReservedWord (s : State) : Host.Outcome State Fault Refusal :=
  issueFree (fun c g run s =>
    if run.isNone ∧ natBits c.word.toNat 26 6 ≠ 1 then .free (badStart c g s)
    else .fault { code := 0x01, lanes := c.lanes } s) s

end Sys2Proof.Machine
end

