-- ==== Sys2Proof/Machine/Scalar.lean ====
section
/-! DEFINITION. Scalar instructions (R155 to R157) and the special registers (R158 to R165). -/

namespace Sys2Proof.Machine

/-! ## Three-operand form (R155) -/

/-- What a three-operand scalar word uses. -/
def scalarUses (d a b : BitVec 8) : Uses := { sr := [(a.toNat, 1), (b.toNat, 1)], sw := [(d.toNat, 1)], pair := false }

/-- S(D) = f(S(A), S(B)). -/
def scalarOp (f : Word → Word → Word) (d a b : BitVec 8) (s : State) : Host.Outcome State Fault Refusal :=
  issueFiles (scalarUses d a b) (fun r => r.setS d.toNat (f (r.S a.toNat) (r.S b.toNat))) s

/-- 1 or 0. -/
def boolWord (b : Bool) : Word := if b then 1 else 0

/-- High 32 bits of the signed product (SMULH). -/
def mulHigh (x y : Word) : Word := BitVec.ofInt 32 (x.toInt * y.toInt / 2 ^ 32)

def shiftCount (b : Word) : Nat := b.toNat % 32

/-- SADD (R155). -/
def execSadd (d a b : BitVec 8) (s : State) := scalarOp (fun x y => x + y) d a b s
/-- SSUB (R155). -/
def execSsub (d a b : BitVec 8) (s : State) := scalarOp (fun x y => x - y) d a b s
/-- SMUL (R155). -/
def execSmul (d a b : BitVec 8) (s : State) := scalarOp (fun x y => x * y) d a b s
/-- SMULH (R155). -/
def execSmulh (d a b : BitVec 8) (s : State) := scalarOp mulHigh d a b s
/-- SAND (R155). -/
def execSand (d a b : BitVec 8) (s : State) := scalarOp (fun x y => x &&& y) d a b s
/-- SOR (R155). -/
def execSor (d a b : BitVec 8) (s : State) := scalarOp (fun x y => x ||| y) d a b s
/-- SXOR (R155). -/
def execSxor (d a b : BitVec 8) (s : State) := scalarOp (fun x y => x ^^^ y) d a b s
/-- SANDN (R155). -/
def execSandn (d a b : BitVec 8) (s : State) := scalarOp (fun x y => x &&& ~~~y) d a b s
/-- SSHL (R155). -/
def execSshl (d a b : BitVec 8) (s : State) := scalarOp (fun x y => x <<< shiftCount y) d a b s
/-- SSHR (R155). -/
def execSshr (d a b : BitVec 8) (s : State) := scalarOp (fun x y => x >>> shiftCount y) d a b s
/-- SSAR (R155). -/
def execSsar (d a b : BitVec 8) (s : State) := scalarOp (fun x y => x.sshiftRight (shiftCount y)) d a b s
/-- SROT (R155). -/
def execSrot (d a b : BitVec 8) (s : State) := scalarOp (fun x y => x.rotateRight (shiftCount y)) d a b s
/-- SMIN (R155). -/
def execSmin (d a b : BitVec 8) (s : State) := scalarOp (fun x y => if x.toInt ≤ y.toInt then x else y) d a b s
/-- SMAX (R155). -/
def execSmax (d a b : BitVec 8) (s : State) := scalarOp (fun x y => if x.toInt ≤ y.toInt then y else x) d a b s
/-- SMINU (R155). -/
def execSminu (d a b : BitVec 8) (s : State) := scalarOp (fun x y => if x.toNat ≤ y.toNat then x else y) d a b s
/-- SMAXU (R155). -/
def execSmaxu (d a b : BitVec 8) (s : State) := scalarOp (fun x y => if x.toNat ≤ y.toNat then y else x) d a b s
/-- SSEQ (R155). -/
def execSseq (d a b : BitVec 8) (s : State) := scalarOp (fun x y => boolWord (x == y)) d a b s
/-- SSNE (R155). -/
def execSsne (d a b : BitVec 8) (s : State) := scalarOp (fun x y => boolWord (x != y)) d a b s
/-- SSLT (R155). -/
def execSslt (d a b : BitVec 8) (s : State) := scalarOp (fun x y => boolWord (decide (x.toInt < y.toInt))) d a b s
/-- SSLTU (R155). -/
def execSsltu (d a b : BitVec 8) (s : State) := scalarOp (fun x y => boolWord (decide (x.toNat < y.toNat))) d a b s
/-- SSLE (R155). -/
def execSsle (d a b : BitVec 8) (s : State) := scalarOp (fun x y => boolWord (decide (x.toInt ≤ y.toInt))) d a b s
/-- SSLEU (R155). -/
def execSsleu (d a b : BitVec 8) (s : State) := scalarOp (fun x y => boolWord (decide (x.toNat ≤ y.toNat))) d a b s

/-- SSEL (R155): S(D) chooses. -/
def execSsel (d a b : BitVec 8) (s : State) : Host.Outcome State Fault Refusal :=
  issueFiles { sr := [(a.toNat, 1), (b.toNat, 1), (d.toNat, 1)], sw := [(d.toNat, 1)] }
    (fun r => r.setS d.toNat (if r.S d.toNat ≠ 0 then r.S a.toNat else r.S b.toNat)) s

/-- SMOV (R155): B names a register and is not read. -/
def execSmov (d a b : BitVec 8) (s : State) : Host.Outcome State Fault Refusal :=
  issueD (fun _ g _ => { sr := [(a.toNat, 1)], sw := [(d.toNat, 1)], bad := decide (g.sregs ≤ b.toNat) })
    (fun c _ _ s => .ok (s.onCur c (fun g => g.files (fun r => r.setS d.toNat (r.S a.toNat))))) s

/-! ## Immediate form (R156) -/

/-- SLI (R156). -/
def execSli (d : BitVec 8) (i : BitVec 16) (s : State) : Host.Outcome State Fault Refusal :=
  issueFiles { sw := [(d.toNat, 1)] } (fun r => r.setS d.toNat (i.signExtend 32)) s
/-- SLIU (R156). -/
def execSliu (d : BitVec 8) (i : BitVec 16) (s : State) : Host.Outcome State Fault Refusal :=
  issueFiles { sw := [(d.toNat, 1)] } (fun r => r.setS d.toNat (i.setWidth 32)) s
/-- SLIH (R156). -/
def execSlih (d : BitVec 8) (i : BitVec 16) (s : State) : Host.Outcome State Fault Refusal :=
  issueFiles { sr := [(d.toNat, 1)], sw := [(d.toNat, 1)] }
    (fun r => r.setS d.toNat ((r.S d.toNat &&& 0x0000FFFF) ||| (i.setWidth 32 <<< 16))) s
/-- SADDI (R156). -/
def execSaddi (d : BitVec 8) (i : BitVec 16) (s : State) : Host.Outcome State Fault Refusal :=
  issueFiles { sr := [(d.toNat, 1)], sw := [(d.toNat, 1)] } (fun r => r.setS d.toNat (r.S d.toNat + i.signExtend 32)) s

/-! ## Function form (R157) -/

/-- S(D) = f(S(A)). -/
def scalarUnary (f : Word → Word) (d a : BitVec 8) (s : State) : Host.Outcome State Fault Refusal :=
  issueFiles { sr := [(a.toNat, 1)], sw := [(d.toNat, 1)] } (fun r => r.setS d.toNat (f (r.S a.toNat))) s

/-- Ones among the low n bits. -/
def popCount (n w : Nat) : Nat := ((List.range n).filter (natBit w)).length
/-- Leading zeros of an n-bit number. -/
def leadZeros (n w : Nat) : Nat := if w % 2 ^ n = 0 then n else n - 1 - Nat.log2 (w % 2 ^ n)
/-- The low n bits reversed. -/
def bitRev (n w : Nat) : Nat := (List.range n).foldl (fun a i => a + (if natBit w i then 2 ^ (n - 1 - i) else 0)) 0

/-- SPOPC (R157). -/
def execSpopc (d a : BitVec 8) (s : State) := scalarUnary (fun x => BitVec.ofNat 32 (popCount 32 x.toNat)) d a s
/-- SCLZ (R157). -/
def execSclz (d a : BitVec 8) (s : State) := scalarUnary (fun x => BitVec.ofNat 32 (leadZeros 32 x.toNat)) d a s
/-- SBREV (R157). -/
def execSbrev (d a : BitVec 8) (s : State) := scalarUnary (fun x => BitVec.ofNat 32 (bitRev 32 x.toNat)) d a s

/-- pos and len of SBFE and SBFI from the pending immediate; none when they do not fit (R157). -/
def fieldImm (run : Run) : Option (Nat × Nat) :=
  match run.imm with
  | none => none
  | some i =>
    let pos := natBits i.toNat 0 5
    let len := natBits i.toNat 5 6
    if natBits i.toNat 11 21 ≠ 0 ∨ len = 0 ∨ 32 < len ∨ 32 < pos + len then none else some (pos, len)

/-- A bit field, zero- or sign-extended. -/
def extractField (sg : Bool) (pos len : Nat) (w : Word) : Word :=
  let v := natBits w.toNat pos len
  BitVec.ofInt 32 (if sg then signed len v else (v : Int))

/-- A bit field replaced by the low bits of a word. -/
def insertField (pos len : Nat) (old src : Word) : Word :=
  BitVec.ofNat 32 (old.toNat - natBits old.toNat pos len * 2 ^ pos + natBits src.toNat 0 len * 2 ^ pos)

/-- SBFE (R157). -/
def execSbfe (d a : BitVec 8) (sg : BitVec 1) (s : State) : Host.Outcome State Fault Refusal :=
  issueD (fun _ _ run => { sr := [(a.toNat, 1)], sw := [(d.toNat, 1)], bad := (fieldImm run).isNone })
    (fun c _ run s =>
      let (pos, len) := (fieldImm run).getD (0, 1)
      .ok (s.onCur c (fun g => g.files (fun r => r.setS d.toNat (extractField (sg == 1) pos len (r.S a.toNat)))))) s

/-- SBFI (R157). -/
def execSbfi (d a : BitVec 8) (s : State) : Host.Outcome State Fault Refusal :=
  issueD (fun _ _ run => { sr := [(a.toNat, 1), (d.toNat, 1)], sw := [(d.toNat, 1)], bad := (fieldImm run).isNone })
    (fun c _ run s =>
      let (pos, len) := (fieldImm run).getD (0, 1)
      .ok (s.onCur c (fun g => g.files (fun r => r.setS d.toNat (insertField pos len (r.S d.toNat) (r.S a.toNat)))))) s

/-- SMOVH (R157): to s(256 + hidx). -/
def execSmovh (h a : BitVec 8) (s : State) : Host.Outcome State Fault Refusal :=
  issueFiles { sr := [(a.toNat, 1)], sw := [(256 + h.toNat, 1)] } (fun r => r.setS (256 + h.toNat) (r.S a.toNat)) s
/-- SMOVL (R157): from s(256 + hidx). -/
def execSmovl (d h : BitVec 8) (s : State) : Host.Outcome State Fault Refusal :=
  issueFiles { sr := [(256 + h.toNat, 1)], sw := [(d.toNat, 1)] } (fun r => r.setS d.toNat (r.S (256 + h.toNat))) s

/-- A field names an even register (R157). -/
def odd (r : BitVec 8) : Bool := r.getLsbD 0

/-- SADD64 (R157). -/
def execSadd64 (d a : BitVec 8) (s : State) : Host.Outcome State Fault Refusal :=
  issueFiles { sr := [(a.toNat, 2), (d.toNat, 2)], sw := [(d.toNat, 2)], bad := odd d || odd a }
    (fun r => r.setS64 d.toNat (r.S64 d.toNat + r.S64 a.toNat)) s
/-- SSUB64 (R157). -/
def execSsub64 (d a : BitVec 8) (s : State) : Host.Outcome State Fault Refusal :=
  issueFiles { sr := [(a.toNat, 2), (d.toNat, 2)], sw := [(d.toNat, 2)], bad := odd d || odd a }
    (fun r => r.setS64 d.toNat (r.S64 d.toNat - r.S64 a.toNat)) s
/-- SSHL64 (R157). -/
def execSshl64 (d a : BitVec 8) (s : State) : Host.Outcome State Fault Refusal :=
  issueFiles { sr := [(a.toNat, 1), (d.toNat, 2)], sw := [(d.toNat, 2)], bad := odd d }
    (fun r => r.setS64 d.toNat (r.S64 d.toNat <<< ((r.S a.toNat).toNat % 64))) s
/-- SSHR64 (R157): logical, or arithmetic with .a. -/
def execSshr64 (d a : BitVec 8) (x : BitVec 1) (s : State) : Host.Outcome State Fault Refusal :=
  issueFiles { sr := [(a.toNat, 1), (d.toNat, 2)], sw := [(d.toNat, 2)], bad := odd d }
    (fun r =>
      let n := (r.S a.toNat).toNat % 64
      r.setS64 d.toNat (if x = 1 then (r.S64 d.toNat).sshiftRight n else r.S64 d.toNat >>> n)) s
/-- SMULW (R157): the 64-bit product of S(d) and S(a). -/
def execSmulw (d a : BitVec 8) (sg : BitVec 1) (s : State) : Host.Outcome State Fault Refusal :=
  issueFiles { sr := [(a.toNat, 1), (d.toNat, 1)], sw := [(d.toNat, 2)], bad := odd d }
    (fun r =>
      let x := r.S d.toNat
      let y := r.S a.toNat
      r.setS64 d.toNat (if sg = 1 then BitVec.ofInt 64 (x.toInt * y.toInt) else BitVec.ofNat 64 (x.toNat * y.toNat))) s

/-! ## Special registers (R158 to R165) -/

/-- GSTAT (R160). -/
def Group.gstat (g : Group) : Word :=
  let role := match g.role with | .vector => 0 | .copy => 1 | .matrix => 2
  BitVec.ofNat 32 (role * 2 ^ 20 + (g.sregs / 32 - 1) * 2 ^ 16 + (g.vregs / 8 - 1) * 2 ^ 12 +
    (if g.dual then 16 else 0) + (if g.parted then 8 else 0) + (if g.sysmode then 4 else 0) +
    (if g.intrap then 2 else 0) + (if g.empty then 1 else 0))

/-- RBDEPTH (R411). -/
def Team.rbdepth (t : Team) : Word :=
  let j := t.levels.findIdx? (·.joined)
  let (routine, retry) := match t.levels.getLast? with | some l => (l.routine, l.retry) | none => (0, 0)
  BitVec.ofNat 32 ((if j.isSome then 2 ^ 24 + ((j.getD 0) + 1) * 2 ^ 20 else 0) + routine % 16 * 2 ^ 16 +
    retry % 16 * 2 ^ 12 + t.levels.length)

/-- Groups of a team (NGROUPS, R159). -/
def Team.ngroups (t : Team) : Nat := t.desc.threads / max 1 t.desc.width

/-- The value that RDSR reads from a register number (R159); CLOCK is read apart. -/
def readSpecial (t : Team) (g : Group) (n : Nat) : Word :=
  match n with
  | 0x00 => g.gstat
  | 0x01 => g.fpctl
  | 0x02 => g.fpstat
  | 0x03 => BitVec.ofNat 32 (g.fpcnt.getD 0 0)
  | 0x04 => BitVec.ofNat 32 (g.fpcnt.getD 1 0)
  | 0x05 => BitVec.ofNat 32 (g.fpcnt.getD 2 0)
  | 0x06 => BitVec.ofNat 32 (g.fpcnt.getD 3 0)
  | 0x07 => BitVec.ofNat 32 (g.fpcnt.getD 4 0)
  | 0x08 => BitVec.ofNat 32 g.part
  | 0x09 => g.mdef
  | 0x0A => BitVec.ofNat 32 g.winbase
  | 0x0B => BitVec.ofNat 32 g.winlen
  | 0x0D => BitVec.ofNat 32 t.number
  | 0x0E => BitVec.ofNat 32 g.id
  | 0x0F => BitVec.ofNat 32 (t.number % max 1 t.desc.gx)
  | 0x10 => BitVec.ofNat 32 (t.number / max 1 t.desc.gx % max 1 t.desc.gy)
  | 0x11 => BitVec.ofNat 32 (t.number / (max 1 t.desc.gx * max 1 t.desc.gy))
  | 0x12 => BitVec.ofNat 32 t.ngroups
  | 0x13 => t.desc.param.setWidth 32
  | 0x14 => (t.desc.param >>> 32).setWidth 32
  | 0x15 => t.rbdepth
  | 0x16 => t.rbcause
  | 0x17 => t.trapvec
  | 0x18 => g.faultlo
  | 0x19 => g.faulthi
  | 0x1A => g.wdcfg
  | 0x1B => g.cmpretry
  | 0x1C => g.errinj
  | 0x1D => g.evpend
  | _ => 0

/-- RDSR (R158): CLOCK goes to a pair; its value reaches the trailing copy through the value channel (R433). -/
def execRdsr (d n : BitVec 8) (s : State) : Host.Outcome State Fault Refusal :=
  if n = 0x0C then
    issue { sw := [(d.toNat, 2)], bad := odd d } (fun c _ _ s =>
      withChannel c [s.clock] (fun _ => true) (fun v s =>
        .ok (s.onCur c (fun g => g.files (fun r => r.setS64 d.toNat (BitVec.ofNat 64 (v.getD 0 0)))))) s) s
  else
    issue { sw := [(d.toNat, 1)] } (fun c g _ s =>
      match s.teams.find c.team with
      | some t => .ok (s.onCur c (fun x => x.putS d.toNat (readSpecial t g n.toNat)))
      | none => .ok s) s

/-- Registers of access RS (R159): a user write raises PRIV. -/
def rsRegister (n : Nat) : Bool := [0x09, 0x1A, 0x1B, 0x1C].contains n
/-- Registers that are RO in every field (R159). -/
def roRegister (n : Nat) : Bool := [0x0C, 0x0D, 0x0E, 0x0F, 0x10, 0x11, 0x12, 0x13, 0x14, 0x15, 0x16].contains n

/-- No field of an MDEF value is reserved (R102, R103). -/
def goodMdef (w : Word) : Bool :=
  let n := w.toNat
  decide (natBits n 23 3 ≤ 4) && decide (natBits n 20 3 ≤ 5) && decide (natBits n 17 3 ≤ 5) &&
  decide (natBits n 14 3 ≤ 5) && decide (natBits n 11 3 ≤ 5) && decide (natBits n 9 2 ≤ 2)

/-- An ERRINJ value may be written (R445). -/
def goodErrinj (protect : Nat) (w : Word) : Bool :=
  let n := w.toNat
  natBits n 29 2 != 3 && natBits n 27 2 != 3 && (protect != 0 || natBits n 29 2 == 0)

/-- ERRINJ without its reserved bits (R445). -/
def errinjMask : Word := 0xF81FFF3F

/-- The largest LOG2P of a group (R161, R429). -/
def Group.partMax (g : Group) : Nat := Nat.log2 g.lanes

/-- A value that WRSR may write into a register of the group (R158 to R165). -/
def goodSpecial (t : Team) (g : Group) (n : Nat) (w : Word) : Bool :=
  match n with
  | 0x08 => decide (2 ≤ natBits w.toNat 0 3) && decide (natBits w.toNat 0 3 ≤ g.partMax)
  | 0x09 => goodMdef w
  | 0x0A => decide (natBits w.toNat 0 7 + g.winlen ≤ 128)
  | 0x0B => decide (g.winbase + natBits w.toNat 0 8 ≤ 128)
  | 0x1C => goodErrinj t.desc.protect w
  | _ => true

/-- What a WRSR changes in the issuing group (R158 to R165). -/
def Group.writeSpecial (g : Group) (n : Nat) (w : Word) : Group :=
  let cnt (i : Nat) : Group := { g with fpcnt := setAt g.fpcnt i (natBits w.toNat 0 16) }
  match n with
  | 0x00 => { g with intrap := g.intrap && !w.getLsbD 1, empty := g.empty && !w.getLsbD 0 }
  | 0x01 => { g with fpctl := w &&& 0xFB }
  | 0x02 => { g with fpstat := g.fpstat &&& ~~~(w &&& 0x1F) }
  | 0x03 => cnt 0
  | 0x04 => cnt 1
  | 0x05 => cnt 2
  | 0x06 => cnt 3
  | 0x07 => cnt 4
  | 0x08 => { g with part := natBits w.toNat 0 3 }
  | 0x09 => { g with mdef := w &&& 0x03FFFE00 }
  | 0x0A => { g with winbase := natBits w.toNat 0 7 }
  | 0x0B => { g with winlen := natBits w.toNat 0 8 }
  | 0x18 => { g with faultlo := w }
  | 0x19 => { g with faulthi := w }
  | 0x1A => { g with wdcfg := w &&& 0xFFFF }
  | 0x1B => { g with cmpretry := w &&& 0xF }
  | 0x1C => { g with errinj := w &&& errinjMask }
  | 0x1D => { g with evpend := g.evpend &&& ~~~(w &&& 0xFF) }
  | _ => g

/-- What a WRSR changes for the whole team or context (R103, R164, R165, R444). -/
def State.writeShared (s : State) (c : Cur) (ctx n : Nat) (w : Word) : State :=
  match n with
  | 0x09 => s.putCtx ctx { s.ctx ctx with mdef := w &&& 0x03FFFE00 }
  | 0x17 => s.onTeam c.team (fun t => { t with trapvec := w })
  | 0x1A => s.putCtx ctx { s.ctx ctx with wdcfg := w &&& 0xFFFF }
  | 0x1B => s.putCtx ctx { s.ctx ctx with cmpretry := w &&& 0xF }
  | _ => s

/-- WRSR (R158). -/
def execWrsr (n a : BitVec 8) (s : State) : Host.Outcome State Fault Refusal :=
  issue { sr := [(a.toNat, 1)], priv := rsRegister n.toNat, bad := roRegister n.toNat } (fun c g _ s =>
    match s.teams.find c.team with
    | none => .ok s
    | some t =>
      let w := g.rf.S a.toNat
      if !goodSpecial t g n.toNat w then .fault { code := 0x03, lanes := c.lanes } s
      else .ok ((s.onCur c (fun x => x.writeSpecial n.toNat w)).writeShared c t.ctx n.toNat w)) s

end Sys2Proof.Machine
end

