-- ==== Sys2Proof/Machine/Lanes.lean ====
section
/-! DEFINITION. The frame of the column engine (R194 to R196, R210, R216): lane-local and cross-lane instructions with
their checks in the order INDEXRANGE, TAGMISMATCH, TAGSPLIT, DATAPATH, ARITH, and error injection on results (R446). -/

namespace Sys2Proof.Machine

/-! ## Error injection on a column result (R445, R446) -/

/-- What an armed ERRINJ does to one column instruction: nothing, or inverts a bit of a lane's result in the register
file or the shadows' file, with the residue of the true value for SITE 1. -/
structure Injection where
  lane : Nat
  shadow : Bool
  mask : Word
  stale : Bool
  deriving DecidableEq, Repr

/-- The injection on a column instruction that writes the listed lanes, and ERRINJ after it (R446). -/
def Group.injection (g : Group) (cp : CopyRole) (written : List Nat) : Option Injection × Word :=
  let n := g.errinj.toNat
  let lane := natBits n 0 6
  if !(natBit n 31 && decide (natBits n 27 2 ≤ 1) && injectHere g cp && written.contains lane) then (none, g.errinj) else
  if natBits n 8 8 ≠ 0 then (none, BitVec.ofNat 32 (n - 256)) else
  (some ⟨lane, g.lanepair && natBits n 29 2 == 2, BitVec.twoPow 32 (natBits n 16 5), natBits n 27 2 == 1⟩,
   BitVec.ofNat 32 (n - 2 ^ 31))

/-- A result word of a lane as it is written: value and residue. -/
def injected (inj : Option Injection) (shadow : Bool) (lane : Nat) (w : Word) : VWord :=
  match inj with
  | some i => if i.lane = lane ∧ i.shadow = shadow then
      ⟨w ^^^ i.mask, if i.stale then residue w else residue (w ^^^ i.mask)⟩ else ⟨w, residue w⟩
  | none => ⟨w, residue w⟩

/-- Writes a word with its residue. -/
def RegFile.setRaw (rf : RegFile) (r lane : Nat) (x : VWord) : RegFile :=
  { rf with v := rf.v.setD (r * 64 + lane) x VWord.zero }

/-! ## Faults of lanes -/

/-- A lane's fault: code and datum. -/
abbrev LaneFault := Nat × (Nat × Nat)

/-- Order of the column engine's checks (R196): code, and whether it is DATAPATH on a unit. -/
def columnOrder : List (Nat × Bool) :=
  [(0x07, false), (0x05, false), (0x06, false), (0x21, false), (0x09, false), (0x21, true)]

/-- One record for the lanes that wrote nothing (R196): the first code in the order, its datum; ARITH joins the flags. -/
def laneFaultInfo (order : List (Nat × Bool)) (fs : List LaneFault) : Option FaultInfo :=
  let at? (k : Nat × Bool) (f : LaneFault) : Bool := f.2.1 == k.1 && (f.2 == (0x21, 0x10)) == k.2
  match order.find? (fun k => fs.any (at? k)) with
  | none => none
  | some k =>
    let mine := fs.filter (at? k)
    some { code := k.1, datum := if k.1 = 0x09 then flagsOr (mine.map (·.2.2)) else (mine.headD (0, 0, 0)).2.2,
           lanes := maskOf (fs.map (·.1)) }

/-! ## Lane-local instructions -/

/-- A source of a column instruction: operand code, how its tag is checked (0 not, 1 common tag, 2 the accumulator of a
dot product), and its number in a DATAPATH record (R194). -/
structure Src where
  code : Nat
  chk : Nat
  num : Nat
  deriving DecidableEq, Repr

/-- Destination of a lane-local instruction. -/
inductive Dst where
  | vec (c : Nat)
  | pred (q : Nat)
  | idx (k : Nat)
  deriving DecidableEq, Repr

/-- A lane-local instruction: the sources that fix the slice's tag, further sources by tag, predicates and index
registers read, whether an adder, multiplier or shifter makes the result (R194), tags accepted, the tag written, and the
result of a lane with the flags of its elements. -/
structure LaneOp where
  prim : List Src
  more : Nat → List Src := fun _ => []
  preds : List Nat := []
  idxs : List Nat := []
  unit : Bool := false
  accept : Nat → Bool
  resTag : Nat → Nat
  dst : Dst
  f : RegFile → Nat → Nat → List Word → Word × List Nat

/-- A register code that the lane can reach in every file. -/
def Group.inWindow (g : Group) (code lane : Nat) : Bool :=
  !isRegCode code || (g.rf :: g.sh.toList).all (fun rf => (g.regAt rf code lane).isSome)

def Dst.code? : Dst → List Nat
  | .vec c => [c]
  | _ => []

/-- The tag of a source in a lane; none for an immediate or a broadcast (R80). -/
def Group.srcTag (g : Group) (code lane : Nat) : Option Nat :=
  if isRegCode code then (g.regAt g.rf code lane).map (fun r => g.tag r (g.sliceOf lane)) else none

/-- Distinct tags of the checked register sources over lanes. -/
def Group.srcTags (g : Group) (srcs : List Src) (lanes : List Nat) : List Nat :=
  (lanes.flatMap (fun l => srcs.filterMap (fun x => if x.chk = 1 then g.srcTag x.code l else none))).eraseDups

/-- A lane reaches every register of the instruction that the tag of its slice does not decide on. -/
def LaneOp.reaches (op : LaneOp) (g : Group) (lane : Nat) : Bool :=
  (op.prim.map (·.code) ++ op.dst.code?).all (fun c => g.inWindow c lane)

/-- A lane reaches every register of the instruction, given the tag of its slice. -/
def LaneOp.within (op : LaneOp) (g : Group) (t lane : Nat) : Bool :=
  op.reaches g lane && ((op.more t).map (·.code)).all (fun c => g.inWindow c lane)

/-- The distinct tags that the checked sources hold in a slice. An immediate or broadcast takes the tag of the instruction's
vector source, which may be one whose own tag is not checked (R80). -/
def LaneOp.tags (op : LaneOp) (g : Group) (active : List Nat) : List Nat :=
  let inr := active.filter (op.reaches g)
  let ts := g.srcTags op.prim inr
  if ts.isEmpty && op.prim.any (fun x => x.chk == 1) then g.srcTags (op.prim.map (fun x => { x with chk := 1 })) inr else ts

/-- What a slice decides for its active lanes: the common tag (R121), INT32 where the instruction has no vector source (R80),
and a fault, if any (R121, R122). -/
def LaneOp.slice (op : LaneOp) (g : Group) (active : List Nat) : Nat × Option (Nat × Nat) :=
  let tags := op.tags g active
  let t := tags.headD 0
  if 1 < tags.length ∨ !op.accept t then (t, some (0x05, 0)) else
  let inr := active.filter (op.within g t)
  let bad := inr.any (fun l => (op.more t).any (fun x => match g.srcTag x.code l with
    | some k => (x.chk == 1 && k != t) || (x.chk == 2 && k != (if t = 7 then 1 else 0))
    | none => false))
  if bad then (t, some (0x05, 0)) else
  match op.dst with
  | .vec c =>
    let split := inr.any (fun l => match g.regAt g.rf c l with
      | some r => g.tag r (g.sliceOf l) != op.resTag t &&
          decide ((active.filter (fun m => g.regAt g.rf c m == some r)).length < g.perSlice)
      | none => false)
    (t, if split then some (0x06, 0) else none)
  | _ => (t, none)

/-- The index register that an operand code v[xK] reads in a lane has a wrong parity bit in some file (R194). -/
def Group.idxBad (g : Group) (c lane : Nat) : Bool :=
  decide (0x88 ≤ c) && isRegCode c && (g.rf :: g.sh.toList).any (fun rf => rf.xbad.contains ((c - 0x88) * 64 + lane))

/-- A predicate or index register has a wrong parity bit in a lane in some file. -/
def Group.bitBad (g : Group) (preds idxs : List Nat) (lane : Nat) : Bool :=
  (g.rf :: g.sh.toList).any (fun rf => preds.any (fun q => q != 7 && rf.qbad.contains (q * 64 + lane)) ||
    idxs.any (fun k => rf.xbad.contains (k * 64 + lane)))

/-- An operand of the lane is damaged: the record's datum (R194). -/
def LaneOp.damaged (op : LaneOp) (g : Group) (t lane : Nat) : Option Nat :=
  let srcs := op.prim ++ op.more t
  if (srcs.map (·.code) ++ op.dst.code?).any (g.idxBad · lane) || g.bitBad op.preds op.idxs lane then some 0x20 else
  (srcs.find? (fun x => (g.rf :: g.sh.toList).any (fun rf => !g.srcClean rf x.code lane))).map (·.num)

/-- The lane's result in one file. -/
def LaneOp.value (op : LaneOp) (g : Group) (run : Run) (rf : RegFile) (t lane : Nat) : Word × List Nat :=
  op.f rf t lane ((op.prim ++ op.more t).map (fun x => (g.srcVal run rf x.code lane).getD 0))

/-- One lane: its fault, or its results with the tag and flags. -/
def LaneOp.lane (op : LaneOp) (g : Group) (run : Run) (st : Nat × Option (Nat × Nat)) (lane : Nat) :
    Except (Nat × Nat) (Nat × Word × Word × List Nat) × List Nat :=
  let t := st.1
  if !op.within g t lane then (.error (0x07, 0), []) else
  match st.2 with
  | some f => (.error f, [])
  | none =>
    match op.damaged g t lane with
    | some d => (.error (0x21, d), [])
    | none =>
      let (w, fl) := op.value g run g.rf t lane
      let sw := match g.sh with | some sh => (op.value g run sh t lane).1 | none => w
      if flagsMeet (flagsOr fl) g.traps then (.error (0x09, flagsOr fl), fl)
      else if op.unit && g.unitBad.contains lane then (.error (0x21, 0x10), fl)
      else (.ok (t, w, sw, fl), fl)

/-- Writes one lane's result into one file. -/
def Dst.write (d : Dst) (g : Group) (inj : Option Injection) (shadow : Bool) (lane : Nat) (w : Word) (rf : RegFile) :
    RegFile :=
  match d with
  | .vec c => match g.regAt rf c lane with
    | some r => rf.setRaw r lane (injected inj shadow lane w)
    | none => rf
  | .pred q => rf.setQ q lane ((injected inj shadow lane w).val.getLsbD 0)
  | .idx k => rf.setX k lane ((injected inj shadow lane w).val.setWidth 8)

/-- The lanes whose units are still to go wrong after an instruction that used them, or none of them. -/
def Group.unitBadAfter (g : Group) (used : Bool) (lanes : List Nat) : List Nat :=
  if used then g.unitBad.filter (fun l => !lanes.contains l) else g.unitBad

/-- The role of the issuing team's copy. -/
def State.copyRole (s : State) (c : Cur) : CopyRole :=
  match s.teams.find c.team with | some t => t.copy | none => .only

/-- A lane-local column instruction over the active lanes (R195, R196). -/
def LaneOp.run (op : LaneOp) (c : Cur) (g : Group) (run : Run) (s : State) : Eff :=
  let lanes := lanesOf c.lanes
  let sts := (unitSlices c.units).map (fun sl => (sl, op.slice g (lanes.filter (fun l => g.sliceOf l == sl))))
  let res := lanes.map (fun l =>
    (l, op.lane g run (((sts.find? (fun x => x.1 == g.sliceOf l)).map (·.2)).getD (0, none)) l))
  let faults : List LaneFault := res.filterMap (fun x => match x.2.1 with | .error f => some (x.1, f) | .ok _ => none)
  let good := res.filterMap (fun x => match x.2.1 with | .ok r => some (x.1, r) | .error _ => none)
  let (inj, ej) := g.injection (s.copyRole c) (good.map (·.1))
  let g1 := good.foldl (fun (h : Group) x =>
    let h := { h with rf := op.dst.write g inj false x.1 x.2.2.1 h.rf,
                      sh := h.sh.map (op.dst.write g inj true x.1 x.2.2.2.1) }
    match op.dst with
    | .vec code => match g.regAt g.rf code x.1 with
      | some r => h.setTag r (g.sliceOf x.1) (op.resTag x.2.1)
      | none => h
    | _ => h) g
  let g1 := { g1.record (res.flatMap (fun x => x.2.2)) with errinj := ej }
  let s := s.onCur c (fun h => { h with rf := g1.rf, sh := g1.sh, tags := g1.tags, fpstat := g1.fpstat,
                                        fpcnt := g1.fpcnt, errinj := g1.errinj, unitBad := h.unitBadAfter op.unit lanes })
  match laneFaultInfo columnOrder faults with
  | some f => .fault f s
  | none => .ok s

/-! ## Cross-lane instructions (R210) -/

/-- What a partition computes: values for each member lane, the words that each reads (source code and lane), flags of all steps, the
flags of the steps that a lane's value depends on, and the partition's own result for a uniform register. -/
structure PartRes where
  vals : Nat → List Word
  reads : Nat → List (Nat × Nat)
  flags : List Nat
  laneFlags : Nat → Nat
  uni : Word

/-- A cross-lane instruction: source codes, qualifier, further operand codes read in the receiving lane, predicates
read, accepted tags, tag written, partition size, destinations (vector registers in order, a predicate, or a uniform
base), whether an adder, multiplier or shifter makes the result, identity for an empty partition, and the computation over a partition from its tag, first lane and members. -/
structure CrossOp where
  srcs : List Nat
  own : List Nat := []
  preds : List Nat := []
  qual : Option Nat := none
  accept : Nat → Bool
  resTag : Nat → Nat
  size : Nat
  vdst : List Nat := []
  pdst : Option Nat := none
  sdst : Option Nat := none
  marksEmpty : Bool := false
  unit : Bool := false
  identity : Nat → Word := fun _ => 0
  f : RegFile → Nat → Nat → List Nat → PartRes

/-- One partition's outcome: faults of its lanes, lanes that write, its tag, flags. -/
structure PartOut where
  base : Nat
  members : List Nat
  faults : List LaneFault
  good : List Nat
  tag : Nat
  flags : List Nat
  main : PartRes
  shadow : PartRes
  uniOk : Bool

/-- The checks and the computation of one partition (R196, R210, R213). -/
def CrossOp.part (op : CrossOp) (g : Group) (active : List Nat) (base : Nat) : PartOut :=
  let files := g.rf :: g.sh.toList
  let inPart := active.filter (fun l => decide (base ≤ l) && decide (l < base + op.size))
  let ms := match op.qual with | some q => inPart.filter (fun l => g.rf.Q q l) | none => inPart
  let out := ms.filter (fun l => !(op.srcs ++ op.own ++ op.vdst).all (fun c => g.inWindow c l))
  let inr := ms.filter (fun l => !out.contains l)
  let tags := (inr.flatMap (fun l => op.srcs.filterMap (fun c => g.srcTag c l))).eraseDups
  let t := tags.headD 0
  let main := op.f g.rf t base inr
  let shadow := match g.sh with | some sh => op.f sh t base inr | none => main
  let f7 : List LaneFault := out.map (fun l => (l, 0x07, 0))
  if ¬ ms.isEmpty ∧ (1 < tags.length ∨ !op.accept t) then
    ⟨base, ms, f7 ++ inr.map (fun l => (l, 0x05, 0)), [], t, [], main, shadow, false⟩
  else
  let split (sl : Nat) : Bool := op.vdst.any (fun c =>
    let mine := inr.filter (fun l => g.sliceOf l == sl)
    mine.any (fun l => match g.regAt g.rf c l with
      | some r => g.tag r sl != op.resTag t &&
          decide ((mine.filter (fun m => g.regAt g.rf c m == some r)).length < g.perSlice)
      | none => false))
  let f6 := inr.filter (fun l => split (g.sliceOf l))
  let rest := inr.filter (fun l => !f6.contains l)
  let dirty (l : Nat) : Option Nat :=
    if (main.reads l).any (fun m => g.idxBad m.1 m.2 || g.bitBad op.preds [] m.2) ||
        (op.own ++ op.vdst).any (g.idxBad · l) || g.bitBad op.qual.toList [] l then some 0x20 else
    if (main.reads l).any (fun m => files.any (fun rf => !g.srcClean rf m.1 m.2)) then some 1 else
    if op.own.any (fun c => files.any (fun rf => !g.srcClean rf c l)) then some 4 else none
  let f21 : List LaneFault := rest.filterMap (fun l => (dirty l).map (fun d => (l, 0x21, d)))
  let rest := rest.filter (fun l => (dirty l).isNone)
  let f9 : List LaneFault := rest.filterMap (fun l =>
    if flagsMeet (main.laneFlags l) g.traps then some (l, 0x09, main.laneFlags l) else none)
  let rest := rest.filter (fun l => !flagsMeet (main.laneFlags l) g.traps)
  let wrong (l : Nat) : Bool := op.unit && (main.reads l).any (fun m => g.unitBad.contains m.2)
  let fu : List LaneFault := (rest.filter wrong).map (fun l => (l, 0x21, 0x10))
  ⟨base, ms, f7 ++ f6.map (fun l => (l, 0x06, 0)) ++ f21 ++ f9 ++ fu, rest.filter (!wrong ·), t, main.flags, main, shadow,
   (f7 ++ f21 ++ f9 ++ fu).isEmpty⟩

/-- Writes the results of a partition's lanes into one file. -/
def CrossOp.writeLanes (op : CrossOp) (g : Group) (inj : Option Injection) (sh : Bool) (p : PartOut) (rf : RegFile) :
    RegFile :=
  let r := if sh then p.shadow else p.main
  p.good.foldl (fun rf l =>
    let rf := (op.vdst.zipIdx).foldl (fun (rf : RegFile) d => match g.regAt rf d.1 l with
      | some k => rf.setRaw k l (injected inj sh l ((r.vals l).getD d.2 0))
      | none => rf) rf
    match op.pdst with
    | some q => rf.setQ q l ((injected inj sh l ((r.vals l).getD 0 0)).val.getLsbD 0)
    | none => rf) rf

/-- A cross-lane instruction over the considered partitions; all reads precede all writes (R210). -/
def CrossOp.run (op : CrossOp) (c : Cur) (g : Group) (s : State) : Eff :=
  let active := lanesOf c.lanes
  let slices := unitSlices c.units
  let bases := ((List.range (g.lanes / max 1 op.size)).map (· * op.size)).filter (fun b =>
    slices.any (fun sl => decide (b < (sl + 1) * g.perSlice) && decide (sl * g.perSlice < b + op.size)))
  let outs := bases.map (op.part g active)
  let faults := outs.flatMap (·.faults)
  let empties := outs.filter (fun p => p.members.isEmpty)
  let writers := outs.flatMap (·.good)
  let (inj, ej) := g.injection (s.copyRole c) (if op.sdst.isSome then [] else writers)
  let uniWord (p : PartOut) (sh : Bool) : Word :=
    if p.members.isEmpty then
      op.identity (match slices.find? (fun sl => decide (p.base < (sl + 1) * g.perSlice) && decide (sl * g.perSlice < p.base + op.size)) with
        | some sl => (match op.srcs with
          | code :: _ => (g.srcTag code (max p.base (sl * g.perSlice))).getD 0
          | [] => 0)
        | none => 0)
    else (if sh then p.shadow else p.main).uni
  let file (sh : Bool) (rf : RegFile) : RegFile :=
    outs.foldl (fun rf p =>
      match op.sdst with
      | some d => if p.members.isEmpty || p.uniOk then rf.setS (d + p.base / max 1 op.size) (uniWord p sh) else rf
      | none => op.writeLanes g inj sh p rf) rf
  let g1 := outs.foldl (fun (h : Group) p => p.good.foldl (fun (h : Group) l =>
    op.vdst.foldl (fun (h : Group) code => match g.regAt g.rf code l with
      | some r => h.setTag r (g.sliceOf l) (op.resTag p.tag)
      | none => h) h) h) g
  let g1 := g1.record (outs.flatMap (fun p => if p.members.isEmpty then [] else p.flags))
  let s := s.onCur c (fun h =>
    { h with
      rf := file false g.rf, sh := g.sh.map (file true), tags := g1.tags,
      fpstat := g1.fpstat, fpcnt := g1.fpcnt, errinj := ej, unitBad := h.unitBadAfter op.unit active, empty := h.empty || (op.marksEmpty && !empties.isEmpty) })
  match laneFaultInfo columnOrder faults with
  | some f => .fault f s
  | none => .ok s

end Sys2Proof.Machine
end

