-- ==== Sys2Proof/Machine/Column.lean ====
section
/-! DEFINITION. The lane-local instructions of the column engine (R197 to R209, R215 to R217). -/

namespace Sys2Proof.Machine

/-- A source whose tag is checked. -/
def src (c : BitVec 8) (num : Nat) : Src := ⟨c.toNat, 1, num⟩
/-- A source read as 32 unsigned bits without a tag check (R121). -/
def rawSrc (c : BitVec 8) (num : Nat) : Src := ⟨c.toNat, 0, num⟩
/-- The attached HOPND's operand code. -/
def Run.hop (run : Run) : Nat := match run.hopnd with | some h => h.toNat | none => 0x8F

/-- What a three-operand vector word uses. -/
def vecUses (d a b : BitVec 8) : Uses := { role := .vector, vr := [a.toNat, b.toNat], vw := [d.toNat] }
/-- What a three-operand vector word that also reads D uses. -/
def vecUsesD (d a b : BitVec 8) : Uses := { role := .vector, vr := [a.toNat, b.toNat, d.toNat], vw := [d.toNat] }
/-- What a unary vector word uses. -/
def vecUses1 (d a : BitVec 8) : Uses := { role := .vector, vr := [a.toNat], vw := [d.toNat] }

/-- A lane-local instruction whose form depends on the group and the run. -/
def issueLane (u : Uses) (op : Group → Run → LaneOp) (s : State) : Host.Outcome State Fault Refusal :=
  issue u (fun c g run s => (op g run).run c g run s) s

/-- Element by element over one, two or three words. -/
def elems1 (t : Nat) (x : Word) (f : Nat → ER) : Word × List Nat :=
  let rs := (List.range (tagCount t)).map (fun i => f (elem t x i))
  (packElems t (rs.map (·.v)), rs.map (·.fl))
def elems2 (t : Nat) (x y : Word) (f : Nat → Nat → ER) : Word × List Nat :=
  let rs := (List.range (tagCount t)).map (fun i => f (elem t x i) (elem t y i))
  (packElems t (rs.map (·.v)), rs.map (·.fl))
def elems3 (t : Nat) (x y z : Word) (f : Nat → Nat → Nat → ER) : Word × List Nat :=
  let rs := (List.range (tagCount t)).map (fun i => f (elem t x i) (elem t y i) (elem t z i))
  (packElems t (rs.map (·.v)), rs.map (·.fl))

/-- Word k of a lane's operands. -/
def arg (vs : List Word) (k : Nat) : Word := vs.getD k 0

/-- An integer element operation, wrapped (R123). -/
def intElem (t : Nat) (f : Int → Int → Int) (a b : Nat) : ER := ⟨wrapInt (tagWidth t) (f (elemInt t a) (elemInt t b)), 0⟩

/-! ## Arithmetic (R197) -/

/-- x + y of an element. -/
def addElem (rm t a b : Nat) : ER :=
  if floatTag t then (fmtOf t).addV rm ((fmtOf t).read a) ((fmtOf t).read b) else intElem t (· + ·) a b
/-- x − y of an element. -/
def subElem (rm t a b : Nat) : ER :=
  if floatTag t then (fmtOf t).addV rm ((fmtOf t).read a) ((fmtOf t).read b).neg else intElem t (· - ·) a b
/-- x × y of an element. -/
def mulElem (rm t a b : Nat) : ER :=
  if floatTag t then (fmtOf t).mulV rm ((fmtOf t).read a) ((fmtOf t).read b) else intElem t (· * ·) a b
/-- x × y + z of an element, rounded once. -/
def maElem (rm t a b c : Nat) : ER :=
  if floatTag t then (fmtOf t).fmaV rm ((fmtOf t).read a) ((fmtOf t).read b) ((fmtOf t).read c)
  else ⟨wrapInt (tagWidth t) (elemInt t a * elemInt t b + elemInt t c), 0⟩
/-- Minimum or maximum of an element. -/
def mmElem (wantMax : Bool) (t a b : Nat) : ER :=
  if floatTag t then (fmtOf t).minMax wantMax a b
  else ⟨if (decide (elemInt t a ≤ elemInt t b)) != wantMax then a else b, 0⟩
/-- High half of the product of an element. -/
def mulhElem (t a b : Nat) : ER := ⟨wrapInt (tagWidth t) (elemInt t a * elemInt t b / 2 ^ tagWidth t), 0⟩

/-- D = f(A, B) element by element, A and B checked. -/
def binaryOp (accept : Nat → Bool) (f : Nat → Nat → Nat → Nat → ER) (d a b : BitVec 8) (s : State) :
    Host.Outcome State Fault Refusal :=
  issueLane (vecUses d a b) (fun g _ =>
    { prim := [src a 1, src b 2], unit := true, accept := accept, resTag := id, dst := .vec d.toNat,
      f := fun _ t _ vs => elems2 t (arg vs 0) (arg vs 1) (f g.rm t) }) s

/-- VADD (R197). -/
def execVadd (d a b : BitVec 8) (s : State) := binaryOp arithTag addElem d a b s
/-- VSUB (R197). -/
def execVsub (d a b : BitVec 8) (s : State) := binaryOp arithTag subElem d a b s
/-- VMUL (R197). -/
def execVmul (d a b : BitVec 8) (s : State) := binaryOp arithTag mulElem d a b s
/-- VMIN (R197, R128). -/
def execVmin (d a b : BitVec 8) (s : State) := binaryOp arithTag (fun _ => mmElem false) d a b s
/-- VMAX (R197, R128). -/
def execVmax (d a b : BitVec 8) (s : State) := binaryOp arithTag (fun _ => mmElem true) d a b s
/-- VMULH (R197). -/
def execVmulh (d a b : BitVec 8) (s : State) := binaryOp intTag (fun _ => mulhElem) d a b s

/-- VMA (R197): the old D is the addend. -/
def execVma (d a b : BitVec 8) (s : State) : Host.Outcome State Fault Refusal :=
  issueLane (vecUsesD d a b) (fun g _ =>
    { prim := [src a 1, src b 2, src d 3], unit := true, accept := arithTag, resTag := id, dst := .vec d.toNat,
      f := fun _ t _ vs => elems3 t (arg vs 0) (arg vs 1) (arg vs 2) (maElem g.rm t) }) s

/-- VMAD (R197): the addend comes from HOPND. -/
def execVmad (d a b : BitVec 8) (s : State) : Host.Outcome State Fault Refusal :=
  issueLane { vecUses d a b with hopnd := .needs } (fun g run =>
    { prim := [src a 1, src b 2, ⟨run.hop, 1, 4⟩], unit := true, accept := arithTag, resTag := id, dst := .vec d.toNat,
      f := fun _ t _ vs => elems3 t (arg vs 0) (arg vs 1) (arg vs 2) (maElem g.rm t) }) s

/-! ## Logic and selection (R198, R199) -/

/-- D = f(A, B) on all 32 bits. -/
def logicOp (f : Word → Word → Word) (d a b : BitVec 8) (s : State) : Host.Outcome State Fault Refusal :=
  issueLane (vecUses d a b) (fun _ _ =>
    { prim := [src a 1, src b 2], accept := logicTag, resTag := id, dst := .vec d.toNat,
      f := fun _ _ _ vs => (f (arg vs 0) (arg vs 1), []) }) s

/-- VAND (R198). -/
def execVand (d a b : BitVec 8) (s : State) := logicOp (fun x y => x &&& y) d a b s
/-- VOR (R198). -/
def execVor (d a b : BitVec 8) (s : State) := logicOp (fun x y => x ||| y) d a b s
/-- VXOR (R198). -/
def execVxor (d a b : BitVec 8) (s : State) := logicOp (fun x y => x ^^^ y) d a b s
/-- VANDN (R198). -/
def execVandn (d a b : BitVec 8) (s : State) := logicOp (fun x y => x &&& ~~~y) d a b s

/-- VSEL (R199). -/
def execVsel (n : BitVec 2) (d a b : BitVec 8) (s : State) : Host.Outcome State Fault Refusal :=
  issueLane (vecUses d a b) (fun _ _ =>
    { prim := [src a 1, src b 2], preds := [n.toNat], accept := fun _ => true, resTag := id, dst := .vec d.toNat,
      f := fun rf _ l vs => (if rf.Q n.toNat l then arg vs 0 else arg vs 1, []) }) s

/-! ## Shifts and bit fields (R200) -/

/-- Left shift of an element; the full width or more gives 0 (R123). -/
def shlElem (t n a : Nat) : ER := ⟨if tagWidth t ≤ n then 0 else a * 2 ^ n % 2 ^ tagWidth t, 0⟩
/-- Right shift of an element, arithmetic for signed tags (R123). -/
def shrElem (t n a : Nat) : ER := ⟨wrapInt (tagWidth t) (elemInt t a / 2 ^ n), 0⟩

/-- VSHL (R200). -/
def execVshl (d a b : BitVec 8) (s : State) : Host.Outcome State Fault Refusal :=
  issueLane (vecUses d a b) (fun _ _ =>
    { prim := [src a 1, rawSrc b 2], unit := true, accept := intTag, resTag := id, dst := .vec d.toNat,
      f := fun _ t _ vs => elems1 t (arg vs 0) (shlElem t (shiftCount (arg vs 1))) }) s
/-- VSHR (R200). -/
def execVshr (d a b : BitVec 8) (s : State) : Host.Outcome State Fault Refusal :=
  issueLane (vecUses d a b) (fun _ _ =>
    { prim := [src a 1, rawSrc b 2], unit := true, accept := intTag, resTag := id, dst := .vec d.toNat,
      f := fun _ t _ vs => elems1 t (arg vs 0) (shrElem t (shiftCount (arg vs 1))) }) s

/-- pos and len of VBFE and VBFI (R200). -/
def laneField (b : Word) : Nat × Nat :=
  let pos := natBits b.toNat 0 5
  (pos, min (natBits b.toNat 5 6) (32 - pos))

/-- VBFE (R200). -/
def execVbfe (d a b : BitVec 8) (s : State) : Host.Outcome State Fault Refusal :=
  issueLane (vecUses d a b) (fun _ _ =>
    { prim := [src a 1, rawSrc b 2], unit := true, accept := intTag, resTag := id, dst := .vec d.toNat,
      f := fun _ t _ vs =>
        let (pos, len) := laneField (arg vs 1)
        (if len = 0 then 0 else extractField (signedTag t) pos len (arg vs 0), []) }) s
/-- VBFI (R200): D is read and checked against A's tag. -/
def execVbfi (d a b : BitVec 8) (s : State) : Host.Outcome State Fault Refusal :=
  issueLane (vecUsesD d a b) (fun _ _ =>
    { prim := [src a 1, rawSrc b 2, src d 3], unit := true, accept := intTag, resTag := id, dst := .vec d.toNat,
      f := fun _ _ _ vs =>
        let (pos, len) := laneField (arg vs 1)
        (insertField pos len (arg vs 2) (arg vs 0), []) }) s

/-! ## Saturation and dot products (R201) -/

/-- VSADD (R201). -/
def execVsadd (d a b : BitVec 8) (s : State) :=
  binaryOp intTag (fun _ t => intElem t (fun x y => clampInt t (x + y))) d a b s
/-- VSSUB (R201). -/
def execVssub (d a b : BitVec 8) (s : State) :=
  binaryOp intTag (fun _ t => intElem t (fun x y => clampInt t (x - y))) d a b s

/-- D + Σ x_i × y_i (R201). -/
def dotOp (accept : Nat → Bool) (d a b : BitVec 8) (s : State) : Host.Outcome State Fault Refusal :=
  issueLane (vecUsesD d a b) (fun _ _ =>
    { prim := [src a 1, src b 2], more := fun _ => [⟨d.toNat, 2, 3⟩], unit := true, accept := accept,
      resTag := fun t => if t = 7 then 1 else 0, dst := .vec d.toNat,
      f := fun _ t _ vs =>
        let sum := (List.range (tagCount t)).foldl
          (fun (acc : Int) i => acc + elemInt t (elem t (arg vs 0) i) * elemInt t (elem t (arg vs 1) i)) 0
        (BitVec.ofInt 32 ((arg vs 2).toNat + sum), []) }) s

/-- VDOT2 (R201). -/
def execVdot2 (d a b : BitVec 8) (s : State) := dotOp (fun t => t == 5) d a b s
/-- VDOT4 (R201). -/
def execVdot4 (d a b : BitVec 8) (s : State) := dotOp (fun t => t == 6 || t == 7) d a b s

/-! ## Comparison (R202) -/

/-- Q(q) = merge(old, A cond B): the condition holds for every element. -/
def compareOp (merge : Bool → Bool → Bool) (c : BitVec 5) (q : BitVec 3) (a b : BitVec 8) (s : State) :
    Host.Outcome State Fault Refusal :=
  issueLane { role := .vector, vr := [a.toNat, b.toNat] } (fun _ _ =>
    { prim := [src a 1, src b 2], preds := [q.toNat], unit := true, accept := arithTag, resTag := id, dst := .pred q.toNat,
      f := fun rf t l vs =>
        let rs := (List.range (tagCount t)).map (fun i => cmpElem t c.toNat (elem t (arg vs 0) i) (elem t (arg vs 1) i))
        (boolWord (merge (rf.Q q.toNat l) (rs.all (·.1))), rs.map (·.2)) }) s

/-- VCMP (R202): the old predicate is not read. -/
def execVcmp (c : BitVec 5) (q : BitVec 3) (a b : BitVec 8) (s : State) : Host.Outcome State Fault Refusal :=
  issueLane { role := .vector, vr := [a.toNat, b.toNat] } (fun _ _ =>
    { prim := [src a 1, src b 2], unit := true, accept := arithTag, resTag := id, dst := .pred q.toNat,
      f := fun _ t _ vs =>
        let rs := (List.range (tagCount t)).map (fun i => cmpElem t c.toNat (elem t (arg vs 0) i) (elem t (arg vs 1) i))
        (boolWord (rs.all (·.1)), rs.map (·.2)) }) s
/-- VCMPA (R202). -/
def execVcmpa (c : BitVec 5) (q : BitVec 3) (a b : BitVec 8) (s : State) := compareOp (fun o n => o && n) c q a b s
/-- VCMPO (R202). -/
def execVcmpo (c : BitVec 5) (q : BitVec 3) (a b : BitVec 8) (s : State) := compareOp (fun o n => o || n) c q a b s

/-! ## Conversion (R203, R130 to R132) -/

/-- A conversion that needs more elements than its source tag has (R130, R131). -/
def widens (ft tt : Nat) : Bool := arithTag ft && arithTag tt && decide (tagCount ft < tagCount tt)

/-- Tags between which VCVT converts element by element (R131). -/
def convertible (ft tt : Nat) : Bool := arithTag ft && arithTag tt

/-- One lane's conversion: element i of the concatenation A then C; beyond it, where the manual names no source, a free
value (log entry 2). -/
def cvtWord (mode : Nat) (sat : Bool) (ft tt : Nat) (x y : Word) (free : Nat → Nat) : Word × List Nat :=
  let n := tagCount ft
  let rs : List ER := (List.range (tagCount tt)).map (fun i =>
    if i < n then cvtElem mode sat ft tt (elem ft x i)
    else if i < 2 * n then cvtElem mode sat ft tt (elem ft y (i - n))
    else ⟨free i % 2 ^ tagWidth tt, 0⟩)
  (packElems tt (rs.map (·.v)), rs.map (·.fl))

/-- VCVT to a tag other than BPNP, as a column instruction. -/
def cvtOp (t : BitVec 4) (r : BitVec 2) (sg : BitVec 1) (d a : BitVec 8) (run : Run) (free : Nat) : LaneOp :=
  { prim := [src a 1], more := fun ft => if widens ft t.toNat then [⟨run.hop, 1, 4⟩] else [], unit := true,
    accept := fun ft => convertible ft t.toNat, resTag := fun _ => t.toNat, dst := .vec d.toNat,
    f := fun _ ft l vs => cvtWord r.toNat (sg == 1) ft t.toNat (arg vs 0) (arg vs 1) (fun i => Config.freeNat (free + l * 4 + i)) }

/-- The conversion widens for the source tag of some issuing slice; an immediate or broadcast A is INT32 (R80, R130). -/
def cvtWidens (t : BitVec 4) (a : BitVec 8) (c : Cur) (g : Group) : Bool :=
  (unitSlices c.units).any (fun sl =>
    let inr := (lanesOf c.lanes).filter (fun l => g.sliceOf l == sl && g.inWindow a.toNat l)
    !inr.isEmpty && (if isRegCode a.toNat then (g.srcTags [src a 1] inr).any (widens · t.toNat) else widens 0 t.toNat))

/-- VCVT to a tag other than BPNP: a HOPND is read and checked only where the conversion widens, and its absence there is
OPERAND for the whole word, before every check of R196 (R130). -/
def cvtLane (t : BitVec 4) (r : BitVec 2) (sg : BitVec 1) (d a : BitVec 8) (s : State) :
    Host.Outcome State Fault Refusal :=
  issueD (fun c g _ => { vecUses1 d a with hopnd := if cvtWidens t a c g then .takes else .ignores }) (fun c g run s =>
    if run.hopnd.isNone && cvtWidens t a c g then .fault { code := 0x03, lanes := c.lanes } s
    else (cvtOp t r sg d a run s.freeCtr).run c g run { s with freeCtr := s.freeCtr + 256 }) s

/-- A partition result without flags. -/
def plainPart (vals : Nat → List Word) (reads : Nat → List (Nat × Nat)) : PartRes := ⟨vals, reads, [], fun _ => 0, 0⟩

/-- VCVT to BPNP (R146, R203): a block of 16 lanes. -/
def cvtBpnp (r : BitVec 2) (sg : BitVec 1) (d a : BitVec 8) (s : State) : Host.Outcome State Fault Refusal :=
  issueD (fun _ g _ => { vecUses1 d a with hopnd := .ignores, bad := decide (r ≠ 0) || decide (sg ≠ 0) || decide (g.lanes < 16) })
    (fun c g run s =>
      let op : CrossOp :=
        { srcs := [a.toNat], accept := fun t => t == 2, resTag := fun _ => 8, size := 16, vdst := [d.toNat], unit := true,
          f := fun rf _ base ms =>
            let blk := bpnEncode ((List.range 16).map (fun i =>
              if ms.contains (base + i) then ((g.srcVal run rf a.toNat (base + i)).getD 0).toNat else 0))
            plainPart (fun l => [blk.lane (l - base)]) (fun _ => ms.map (fun m => (a.toNat, m))) }
      op.run c g s) s

/-- VCVT (R203). -/
def execVcvt (t : BitVec 4) (r : BitVec 2) (sg : BitVec 1) (d a : BitVec 8) (s : State) :
    Host.Outcome State Fault Refusal :=
  if t = 8 then cvtBpnp r sg d a s else cvtLane t r sg d a s

/-- VRETAG (R132): the bits under a new tag. -/
def execVretag (t : BitVec 4) (d a : BitVec 8) (s : State) : Host.Outcome State Fault Refusal :=
  issueLane (vecUses1 d a) (fun _ _ =>
    { prim := [rawSrc a 1], accept := fun _ => true, resTag := fun _ => t.toNat, dst := .vec d.toNat,
      f := fun _ _ _ vs => (arg vs 0, []) }) s

/-! ## Moves and identities (R204) -/

/-- VMOV (R204). -/
def execVmov (d a : BitVec 8) (s : State) : Host.Outcome State Fault Refusal :=
  issueLane (vecUses1 d a) (fun _ _ =>
    { prim := [src a 1], accept := fun _ => true, resTag := id, dst := .vec d.toNat, f := fun _ _ _ vs => (arg vs 0, []) }) s

/-- A word computed from the lane alone, tagged INT32. -/
def laneWord (u : Uses) (d : BitVec 8) (f : Cur → Group → Run → RegFile → Nat → Word) (s : State) :
    Host.Outcome State Fault Refusal :=
  issue { u with role := .vector, vw := [d.toNat] } (fun c g run s =>
    let op : LaneOp := { prim := [], accept := fun _ => true, resTag := fun _ => 0, dst := .vec d.toNat,
                         f := fun rf _ l _ => (f c g run rf l, []) }
    op.run c g run s) s

/-- VMOVS (R204). -/
def execVmovs (d : BitVec 8) (n : BitVec 9) (s : State) :=
  laneWord { sr := [(n.toNat, 1)] } d (fun _ _ _ rf _ => rf.S n.toNat) s

/-- VLI (R204): the immediate field, or the pending immediate with a zero field. -/
def execVli (d : BitVec 8) (i : BitVec 12) (s : State) : Host.Outcome State Fault Refusal :=
  issueD (fun _ _ run => { role := .vector, vw := [d.toNat], bad := run.imm.isSome && decide (i ≠ 0) }) (fun c g run s =>
    let op : LaneOp := { prim := [], accept := fun _ => true, resTag := fun _ => 0, dst := .vec d.toNat,
                         f := fun _ _ _ _ => (match run.imm with | some w => w | none => i.signExtend 32, []) }
    op.run c g run s) s

/-- VLANE (R204, R429). -/
def execVlane (d : BitVec 8) (s : State) := laneWord {} d (fun _ _ _ _ l => BitVec.ofNat 32 l) s
/-- VTID (R204, R429). -/
def execVtid (d : BitVec 8) (s : State) := laneWord {} d (fun _ g _ _ l => BitVec.ofNat 32 (g.id * g.lanes + l)) s
/-- VSLICE (R204, R429). -/
def execVslice (d : BitVec 8) (s : State) := laneWord {} d (fun _ g _ _ l => BitVec.ofNat 32 (g.sliceOf l)) s
/-- VACTIVE (R204): the active lanes of the lane's half of 32. -/
def execVactive (d : BitVec 8) (s : State) :=
  laneWord {} d (fun c _ _ _ l => BitVec.ofNat 32 (natBits c.lanes.toNat (32 * (l / 32)) 32)) s

/-! ## Predicates (R205) -/

/-- A predicate field: its other bits must be zero (R82). -/
def badPred (q : BitVec 8) : Bool := decide (8 ≤ q.toNat)

/-- Q(D) = f(Q(A), Q(B)). -/
def predOp (f : Bool → Bool → Bool) (d a b : BitVec 8) (s : State) : Host.Outcome State Fault Refusal :=
  issueLane { role := .vector, bad := badPred d || badPred a || badPred b } (fun _ _ =>
    { prim := [], preds := [a.toNat, b.toNat], accept := fun _ => true, resTag := id, dst := .pred d.toNat,
      f := fun rf _ l _ => (boolWord (f (rf.Q a.toNat l) (rf.Q b.toNat l)), []) }) s

/-- PAND (R205). -/
def execPand (d a b : BitVec 8) (s : State) := predOp (fun x y => x && y) d a b s
/-- POR (R205). -/
def execPor (d a b : BitVec 8) (s : State) := predOp (fun x y => x || y) d a b s
/-- PXOR (R205). -/
def execPxor (d a b : BitVec 8) (s : State) := predOp (fun x y => x != y) d a b s
/-- PANDN (R205). -/
def execPandn (d a b : BitVec 8) (s : State) := predOp (fun x y => x && !y) d a b s

/-! ## Unary functions (R206 to R209) -/

/-- D = f(A) element by element. -/
def unaryOp (accept : Nat → Bool) (f : Nat → Nat → ER) (d a : BitVec 8) (s : State) : Host.Outcome State Fault Refusal :=
  issueLane (vecUses1 d a) (fun _ _ =>
    { prim := [src a 1], unit := true, accept := accept, resTag := id, dst := .vec d.toNat,
      f := fun _ t _ vs => elems1 t (arg vs 0) (f t) }) s

/-- VRCP (R207, R208). -/
def execVrcp (d a : BitVec 8) (s : State) := unaryOp floatTag (fun t => (fmtOf t).rcp t) d a s
/-- VRSQ (R207, R208). -/
def execVrsq (d a : BitVec 8) (s : State) := unaryOp floatTag (fun t => (fmtOf t).rsq t) d a s
/-- VSQRT (R207, R208). -/
def execVsqrt (d a : BitVec 8) (s : State) := unaryOp floatTag (fun t => (fmtOf t).sqrt t) d a s
/-- VEXP2 (R207, R208). -/
def execVexp2 (d a : BitVec 8) (s : State) := unaryOp floatTag (fun t => (fmtOf t).exp2 t) d a s
/-- VLOG2 (R207, R208). -/
def execVlog2 (d a : BitVec 8) (s : State) := unaryOp floatTag (fun t => (fmtOf t).log2 t) d a s
/-- VSIN (R207, R208). -/
def execVsin (d a : BitVec 8) (s : State) := unaryOp floatTag (fun t => (fmtOf t).sin t) d a s
/-- VCOS (R207, R208). -/
def execVcos (d a : BitVec 8) (s : State) := unaryOp floatTag (fun t => (fmtOf t).cos t) d a s
/-- VTANH (R207, R208). -/
def execVtanh (d a : BitVec 8) (s : State) := unaryOp floatTag (fun t => (fmtOf t).tanh t) d a s
/-- VFRAC (R206). -/
def execVfrac (d a : BitVec 8) (s : State) := unaryOp floatTag (fun t => (fmtOf t).frac) d a s
/-- VROUND (R206). -/
def execVround (d a : BitVec 8) (r : BitVec 2) (s : State) := unaryOp floatTag (fun t => (fmtOf t).integral r.toNat) d a s

/-- VCLASS (R209): class bits, tagged INT32. -/
def execVclass (d a : BitVec 8) (s : State) : Host.Outcome State Fault Refusal :=
  issueLane (vecUses1 d a) (fun _ _ =>
    { prim := [src a 1], accept := floatTag, resTag := fun _ => 0, dst := .vec d.toNat,
      f := fun _ t _ vs => (BitVec.ofNat 32 ((List.range (tagCount t)).foldl
        (fun acc i => acc + 2 ^ (16 * i + (fmtOf t).classBit (elem t (arg vs 0) i))) 0), []) }) s

/-- |x| of an element (VABS). -/
def absElem (t a : Nat) : ER :=
  if floatTag t then
    (match (fmtOf t).read a with
     | .nan s => (fmtOf t).nanOut s
     | _ => ⟨a % 2 ^ (tagWidth t - 1), 0⟩)
  else ⟨wrapInt (tagWidth t) ((elemInt t a).natAbs : Int), 0⟩
/-- −x of an element (VNEG). -/
def negElem (t a : Nat) : ER :=
  if floatTag t then
    (match (fmtOf t).read a with
     | .nan s => (fmtOf t).nanOut s
     | _ => ⟨a ^^^ 2 ^ (tagWidth t - 1), 0⟩)
  else ⟨wrapInt (tagWidth t) (-(elemInt t a)), 0⟩

/-- VABS (R206). -/
def execVabs (d a : BitVec 8) (s : State) := unaryOp arithTag absElem d a s
/-- VNEG (R206). -/
def execVneg (d a : BitVec 8) (s : State) := unaryOp arithTag negElem d a s
/-- VNOT (R206): the whole word. -/
def execVnot (d a : BitVec 8) (s : State) : Host.Outcome State Fault Refusal :=
  issueLane (vecUses1 d a) (fun _ _ =>
    { prim := [src a 1], accept := logicTag, resTag := id, dst := .vec d.toNat, f := fun _ _ _ vs => (~~~(arg vs 0), []) }) s
/-- VCLZ (R206). -/
def execVclz (d a : BitVec 8) (s : State) := unaryOp intTag (fun t x => ⟨leadZeros (tagWidth t) x, 0⟩) d a s
/-- VPOPC (R206). -/
def execVpopc (d a : BitVec 8) (s : State) := unaryOp intTag (fun t x => ⟨popCount (tagWidth t) x, 0⟩) d a s
/-- VBREV (R206). -/
def execVbrev (d a : BitVec 8) (s : State) := unaryOp intTag (fun t x => ⟨bitRev (tagWidth t) x, 0⟩) d a s

/-! ## Index registers and the generator (R215, R217) -/

/-- XSET (R215). -/
def execXset (k : BitVec 2) (a : BitVec 8) (s : State) : Host.Outcome State Fault Refusal :=
  issueLane { role := .vector, vr := [a.toNat] } (fun _ _ =>
    { prim := [rawSrc a 1], accept := fun _ => true, resTag := id, dst := .idx k.toNat, f := fun _ _ _ vs => (arg vs 0, []) }) s
/-- XADD (R215). -/
def execXadd (k : BitVec 2) (i : BitVec 8) (s : State) : Host.Outcome State Fault Refusal :=
  issueLane { role := .vector } (fun _ _ =>
    { prim := [], idxs := [k.toNat], unit := true, accept := fun _ => true, resTag := id, dst := .idx k.toNat,
      f := fun rf _ l _ => ((rf.X k.toNat l + i).setWidth 32, []) }) s
/-- XWIN (R215). -/
def execXwin (b l : BitVec 8) (s : State) : Host.Outcome State Fault Refusal :=
  issue { role := .vector, bad := decide (127 < b.toNat) || decide (128 < l.toNat) || decide (128 < b.toNat + l.toNat) }
    (fun c _ _ s => .ok (s.onCur c (fun g => { g with winbase := b.toNat, winlen := l.toNat }))) s

/-- The counter-based generator (R217). -/
def randWord (klo khi : Word) (n : Nat) (c : Word) : Word :=
  let h := (c ^^^ klo) * 0x9E3779B1
  let h := h ^^^ (h >>> 15)
  let h := (h ^^^ khi ^^^ BitVec.ofNat 32 (n * 2 ^ 24)) * 0x85EBCA77
  h ^^^ (h >>> 13)

/-- VRAND and VRANDU: a word of the generator under a tag. -/
def randOp (tag : Nat) (f : Word → Word) (d a : BitVec 8) (k : BitVec 4) (s : State) : Host.Outcome State Fault Refusal :=
  issueD (fun _ _ run => { vecUses1 d a with sr := [(2 * k.toNat, 2)], bad := decide (255 < (run.imm.getD 0).toNat) })
    (fun c g run s =>
      let op : LaneOp :=
        { prim := [rawSrc a 1], unit := true, accept := fun _ => true, resTag := fun _ => tag, dst := .vec d.toNat,
          f := fun rf _ _ vs => (f (randWord (rf.S (2 * k.toNat)) (rf.S (2 * k.toNat + 1)) (run.imm.getD 0).toNat (arg vs 0)), []) }
      op.run c g run s) s

/-- VRAND (R217). -/
def execVrand (d a : BitVec 8) (k : BitVec 4) (s : State) := randOp 1 id d a k s
/-- VRANDU (R217): (h >> 8) × 2^-24, exact. -/
def execVrandu (d a : BitVec 8) (k : BitVec 4) (s : State) :=
  randOp 2 (fun h => BitVec.ofNat 32 (fp32.round 0 false (h.toNat / 256) (-24)).v) d a k s

end Sys2Proof.Machine
end

