-- ==== Sys2Proof/Machine/Cross.lean ====
section
/-! DEFINITION. Exchange between lanes: shuffles, votes, reductions, scans, interleaving (R210 to R214). -/

namespace Sys2Proof.Machine

/-- Partition size of a group (R161). -/
def Group.partSize (g : Group) : Nat := 2 ^ g.part

/-! ## Shuffles (R211) -/

/-- A shuffle: the source position from the lane's position, the operand b and the size; none where there is none. -/
def shuffle (uniform : Bool) (j : Nat → Nat → Nat → Option Nat) (d a : BitVec 8) (s : State) :
    Host.Outcome State Fault Refusal :=
  issueD (fun _ _ run => { vecUses1 d a with hopnd := .needs,
                                             bad := uniform && !(run.hop == 0x8F || decide (0xC0 ≤ run.hop)) })
    (fun c g run s =>
      let op : CrossOp :=
        { srcs := [a.toNat], own := [run.hop], accept := fun _ => true, resTag := id, size := g.partSize, vdst := [d.toNat],
          f := fun rf _ base ms =>
            let from? (l : Nat) : Nat :=
              let b := ((g.srcVal run rf run.hop l).getD 0).toNat
              match j (l - base) b g.partSize with
              | some p => if p < g.partSize ∧ ms.contains (base + p) then base + p else l
              | none => l
            plainPart (fun l => [(g.srcVal run rf a.toNat (from? l)).getD 0]) (fun l => [(a.toNat, from? l)]) }
      op.run c g s) s

/-- VSHFL (R211). -/
def execVshfl (d a : BitVec 8) (s : State) := shuffle false (fun _ b p => some (b % p)) d a s
/-- VSHFLU (R211). -/
def execVshflu (d a : BitVec 8) (s : State) := shuffle false (fun i b _ => if b ≤ i then some (i - b) else none) d a s
/-- VSHFLD (R211). -/
def execVshfld (d a : BitVec 8) (s : State) := shuffle false (fun i b p => if i + b < p then some (i + b) else none) d a s
/-- VSHFLX (R211). -/
def execVshflx (d a : BitVec 8) (s : State) := shuffle false (fun i b p => some (i ^^^ (b % p))) d a s
/-- VBCAST (R211): the HOPND is a uniform code. -/
def execVbcast (d a : BitVec 8) (s : State) := shuffle true (fun _ b p => some (b % p)) d a s

/-! ## Votes (R212) -/

/-- A vote over the partition's lanes. -/
def vote (all : Bool) (d a : BitVec 8) (s : State) : Host.Outcome State Fault Refusal :=
  issue { role := .vector, bad := badPred d || badPred a } (fun c g _ s =>
    let op : CrossOp :=
      { srcs := [], preds := [a.toNat], accept := fun _ => true, resTag := id, size := g.partSize, pdst := some d.toNat,
        f := fun rf _ _ ms =>
          let r := if all then ms.all (rf.Q a.toNat) else ms.any (rf.Q a.toNat)
          plainPart (fun _ => [boolWord r]) (fun _ => ms.map (fun m => (0x8F, m))) }
    op.run c g s) s

/-- VVOTEANY (R212). -/
def execVvoteany (d a : BitVec 8) (s : State) := vote false d a s
/-- VVOTEALL (R212). -/
def execVvoteall (d a : BitVec 8) (s : State) := vote true d a s

/-- VBALLOT (R212). -/
def execVballot (d a : BitVec 8) (s : State) : Host.Outcome State Fault Refusal :=
  issue { role := .vector, vw := [d.toNat], bad := badPred a } (fun c g _ s =>
    let op : CrossOp :=
      { srcs := [], preds := [a.toNat], accept := fun _ => true, resTag := fun _ => 1, size := g.partSize, vdst := [d.toNat],
        f := fun rf _ _ ms =>
          let near (l : Nat) := ms.filter (fun m => m / 32 == l / 32)
          plainPart (fun l => [BitVec.ofNat 32 (((near l).filter (rf.Q a.toNat)).foldl (fun x m => x + 2 ^ (m % 32)) 0)])
            (fun l => (near l).map (fun m => (0x8F, m))) }
    op.run c g s) s

/-! ## Reductions and scans (R140, R141, R151, R213) -/

/-- The operation of a reduction or scan. -/
inductive RedOp where
  | add
  | min
  | max
  | and
  | or
  | xor
  deriving DecidableEq, Repr

/-- One combination of two elements. -/
def RedOp.comb (o : RedOp) (rm t a b : Nat) : ER :=
  match o with
  | .add => addElem rm t a b
  | .min => mmElem false t a b
  | .max => mmElem true t a b
  | .and => ⟨a &&& b, 0⟩
  | .or => ⟨a ||| b, 0⟩
  | .xor => ⟨a ^^^ b, 0⟩

def RedOp.accepts : RedOp → Nat → Bool
  | .add => arithTag
  | .min => arithTag
  | .max => arithTag
  | _ => logicTag

/-- The operation passes through an adder (R194). -/
def RedOp.units : RedOp → Bool
  | .add => true
  | .min => true
  | .max => true
  | _ => false

/-- Identity of an element (R141); where the table has none, a free value (log entry 2). -/
def RedOp.ident (o : RedOp) (t : Nat) : Nat :=
  let open? (k : Nat) : Nat := Config.approx (64 + k) t 0 % 2 ^ tagWidth t
  match o with
  | .add => if arithTag t then 0 else open? 0
  | .min => if floatTag t then (fmtOf t).inf else if intTag t then wrapInt (tagWidth t) (intMax t) else open? 1
  | .max => if floatTag t then (fmtOf t).sign true + (fmtOf t).inf
      else if intTag t then wrapInt (tagWidth t) (intMin t) else open? 2
  | .and => if floatTag t then open? 3 else 2 ^ tagWidth t - 1
  | .or => if floatTag t then open? 4 else 0
  | .xor => if floatTag t then open? 5 else 0

/-- The identity word of a tag. -/
def RedOp.identWord (o : RedOp) (t : Nat) : Word := packElems t ((List.range (tagCount t)).map (fun _ => o.ident t))

/-- One level of the pairwise tree (R151): the combined values and the flags of its nodes. -/
def treeLevel (f : Nat → Nat → ER) : List Nat → List Nat × List Nat
  | a :: b :: r =>
    let x := f a b
    let (vs, fs) := treeLevel f r
    (x.v :: vs, x.fl :: fs)
  | r => (r, [])

/-- The pairwise tree over a power of two of leaves (R151), from a number of levels. -/
def treeFold (f : Nat → Nat → ER) : Nat → List Nat → Nat × List Nat
  | 0, vs => (vs.headD 0, [])
  | n + 1, vs =>
    match vs with
    | [] => (0, [])
    | [v] => (v, [])
    | vs =>
      let (ws, fs) := treeLevel f vs
      let (r, gs) := treeFold f n ws
      (r, fs ++ gs)

/-- Left fold with every prefix: the values of positions 0, 1, … and the flags of the step that led to each. -/
def scanFold (f : Nat → Nat → ER) : Nat → List Nat → List (Nat × Nat)
  | _, [] => []
  | acc, x :: xs =>
    let r := f acc x
    (r.v, r.fl) :: scanFold f r.v xs

/-- Element i at every position of a partition, the identity where there is no member. -/
def positions (o : RedOp) (g : Group) (run : Run) (rf : RegFile) (a : BitVec 8) (t base size : Nat) (ms : List Nat)
    (i : Nat) : List Nat :=
  (List.range size).map (fun p =>
    if ms.contains (base + p) then elem t ((g.srcVal run rf a.toNat (base + p)).getD 0) i else o.ident t)

/-- The qualifier of a reduction or scan. -/
def qualOf (q : BitVec 2) : Option Nat := if q = 0 then none else some q.toNat

/-- A reduction over one partition. -/
def reducePart (o : RedOp) (g : Group) (run : Run) (a : BitVec 8) (size : Nat) (rf : RegFile) (t base : Nat)
    (ms : List Nat) : PartRes :=
  let rs := (List.range (tagCount t)).map (fun i => treeFold (o.comb g.rm t) 7 (positions o g run rf a t base size ms i))
  let w := packElems t (rs.map (·.1))
  let fl := rs.flatMap (·.2)
  ⟨fun _ => [w], fun _ => ms.map (fun m => (a.toNat, m)), fl, fun _ => flagsOr fl, w⟩

/-- A reduction (R213). -/
def reduce (o : RedOp) (d a : BitVec 8) (q : BitVec 2) (u : BitVec 1) (s : State) : Host.Outcome State Fault Refusal :=
  issueD (fun c g _ =>
      if u = 1 then
        let n := g.lanes / g.partSize
        let seen := (List.range n).filter (fun k => (unitSlices c.units).any (fun sl =>
          decide (k * g.partSize < (sl + 1) * g.perSlice) && decide (sl * g.perSlice < (k + 1) * g.partSize)))
        { role := .vector, vr := [a.toNat], sw := seen.map (fun k => (d.toNat + k, 1)),
          bad := decide (255 < d.toNat + n - 1) || decide (g.sregs ≤ d.toNat + n - 1) }
      else { role := .vector, vr := [a.toNat], vw := [d.toNat] })
    (fun c g run s =>
      let op : CrossOp :=
        { srcs := [a.toNat], qual := qualOf q, accept := o.accepts, resTag := id, size := g.partSize,
          vdst := if u = 1 then [] else [d.toNat], sdst := if u = 1 then some d.toNat else none, marksEmpty := true, unit := o.units,
          identity := o.identWord, f := reducePart o g run a g.partSize }
      op.run c g s) s

/-- VREDADD (R213). -/
def execVredadd (d a : BitVec 8) (q : BitVec 2) (u : BitVec 1) (s : State) := reduce .add d a q u s
/-- VREDMIN (R213). -/
def execVredmin (d a : BitVec 8) (q : BitVec 2) (u : BitVec 1) (s : State) := reduce .min d a q u s
/-- VREDMAX (R213). -/
def execVredmax (d a : BitVec 8) (q : BitVec 2) (u : BitVec 1) (s : State) := reduce .max d a q u s
/-- VREDAND (R213). -/
def execVredand (d a : BitVec 8) (q : BitVec 2) (u : BitVec 1) (s : State) := reduce .and d a q u s
/-- VREDOR (R213). -/
def execVredor (d a : BitVec 8) (q : BitVec 2) (u : BitVec 1) (s : State) := reduce .or d a q u s
/-- VREDXOR (R213). -/
def execVredxor (d a : BitVec 8) (q : BitVec 2) (u : BitVec 1) (s : State) := reduce .xor d a q u s

/-- A scan over one partition: the value of position i, and the steps it depends on; an exclusive scan's last step is
none of its steps (R140). Position 0 of the fold is no step (R137), so it raises no flag. -/
def scanPart (o : RedOp) (excl : Bool) (g : Group) (run : Run) (a : BitVec 8) (size : Nat) (rf : RegFile) (t base : Nat)
    (ms : List Nat) : PartRes :=
  let rs := (List.range (tagCount t)).map (fun i =>
    match positions o g run rf a t base size ms i with
    | [] => []
    | x :: xs => (if floatTag t then (fmtOf t).canon x else x, 0) :: scanFold (o.comb g.rm t) x xs)
  let last (l : Nat) : Option Nat := let p := l - base; if excl then (if p = 0 then none else some (p - 1)) else some p
  let steps (n : Nat) : List Nat := rs.flatMap (fun r => (r.take n).map (·.2))
  ⟨fun l => match last l with
      | some p => [packElems t (rs.map (fun r => (r.getD p (0, 0)).1))]
      | none => [o.identWord t],
   fun l => match last l with
      | some p => (ms.filter (fun m => decide (m ≤ base + p))).map (fun m => (a.toNat, m))
      | none => [],
   steps (if excl then size - 1 else size),
   fun l => match last l with | some p => flagsOr (steps (p + 1)) | none => 0,
   0⟩

/-- A scan (R213). -/
def scan (o : RedOp) (d a : BitVec 8) (q : BitVec 2) (e : BitVec 1) (s : State) : Host.Outcome State Fault Refusal :=
  issue (vecUses1 d a) (fun c g run s =>
    let op : CrossOp :=
      { srcs := [a.toNat], qual := qualOf q, accept := o.accepts, resTag := id, size := g.partSize, vdst := [d.toNat],
        marksEmpty := true, unit := o.units, identity := o.identWord, f := scanPart o (e == 1) g run a g.partSize }
    op.run c g s) s

/-- VSCANADD (R213). -/
def execVscanadd (d a : BitVec 8) (q : BitVec 2) (e : BitVec 1) (s : State) := scan .add d a q e s
/-- VSCANMIN (R213). -/
def execVscanmin (d a : BitVec 8) (q : BitVec 2) (e : BitVec 1) (s : State) := scan .min d a q e s
/-- VSCANMAX (R213). -/
def execVscanmax (d a : BitVec 8) (q : BitVec 2) (e : BitVec 1) (s : State) := scan .max d a q e s

/-! ## Interleaving (R214) -/

/-- A base code of n registers: v with base + n − 1 ≤ 0x7F, or t with base + n − 1 ≤ 0x87. -/
def badRange (c n : Nat) : Bool :=
  !((decide (c ≤ 0x7F) && decide (c + n ≤ 0x80)) || (decide (0x80 ≤ c) && decide (c + n ≤ 0x88)))

/-- VZIP and VUNZIP: where the stream element that lane position p of destination r receives comes from, as source
register and position. -/
def interleave (origin : Nat → Nat → Nat → Nat → Nat × Nat) (n : BitVec 2) (d a : BitVec 8) (s : State) :
    Host.Outcome State Fault Refusal :=
  let k := n.toNat + 1
  let codes (b : BitVec 8) : List Nat := (List.range k).map (fun i => b.toNat + i)
  issue { role := .vector, vr := if badRange a.toNat k then [] else codes a, vw := if badRange d.toNat k then [] else codes d,
          bad := badRange a.toNat k || badRange d.toNat k } (fun c g run s =>
    let op : CrossOp :=
      { srcs := codes a, accept := fun _ => true, resTag := id, size := g.partSize, vdst := codes d,
        f := fun rf _ base ms =>
          let at? (l r : Nat) : Nat × Nat := let (c, p) := origin k g.partSize r (l - base); (a.toNat + c, base + p)
          plainPart
            (fun l => (List.range k).map (fun r =>
              let (c, m) := at? l r
              if ms.contains m then (g.srcVal run rf c m).getD 0 else 0))
            (fun l => ((List.range k).map (at? l)).filter (fun x => ms.contains x.2)) }
    op.run c g s) s

/-- VZIP (R214): stream element e = r × P + p lies in source e mod n at position e / n. -/
def execVzip (n : BitVec 2) (d a : BitVec 8) (s : State) :=
  interleave (fun k size r p => ((r * size + p) % k, (r * size + p) / k)) n d a s
/-- VUNZIP (R214): stream element e = p × n + r lies in source e / P at position e mod P. -/
def execVunzip (n : BitVec 2) (d a : BitVec 8) (s : State) :=
  interleave (fun k size r p => ((p * k + r) / size, (p * k + r) % size)) n d a s

end Sys2Proof.Machine
end

