-- ==== Sys2Proof/Machine/Control.lean ====
section
/-! DEFINITION. Branches, barriers, events, partitions, register growth and traps (R169 to R191). -/

namespace Sys2Proof.Machine

/-! ## Branches (R169 to R175) -/

/-- The word after the run's ENDRUN (R170, R172). -/
def Run.after (r : Run) : DWord := r.clause + BitVec.ofNat 64 (4 * (r.words.length + 1))

/-- A word address at a signed word offset from the branch (R77). -/
def offsetFrom {n : Nat} (a : DWord) (o : BitVec n) : DWord := a + (o.signExtend 64 <<< 2)

/-- The issuing units go to an address. -/
def State.branchTo (s : State) (c : Cur) (target : DWord) : State :=
  s.onCur c (fun g => g.mapUnits c.units (fun _ _ u => { u with pc := target, via := c.addr }))

/-- The condition of BRS on a word. -/
def brsTakes (cond : Nat) (v : Word) : Bool :=
  match cond with
  | 0 => true
  | 1 => decide (v = 0)
  | 2 => decide (v ≠ 0)
  | 3 => decide (v.toInt < 0)
  | 4 => decide (0 ≤ v.toInt)
  | 5 => decide (0 < v.toInt)
  | _ => decide (v.toInt ≤ 0)

/-- BRS (R169). Without a condition its register is not read, but must lie within the allocation all the same (R152). -/
def execBrs (c : BitVec 4) (sg : BitVec 8) (o : BitVec 14) (s : State) : Host.Outcome State Fault Refusal :=
  issueD (fun _ g _ => { sr := if c = 0 then [] else [(sg.toNat, 1)], bad := !g.sOk (sg.toNat, 1), pair := true }) (fun cur g _ s =>
    if brsTakes c.toNat (g.rf.S sg.toNat) then .jump (s.branchTo cur (offsetFrom cur.addr o)) else .ok s) s

/-- Units of a gang part by PC (R168): those at each PC form a gang of their own, with the age of the gang they leave at the word
that parts them. -/
def Group.partUnits (g : Group) (us : List (Nat × Bool × PathUnit)) (now : Nat) : Group :=
  let pcs := (us.map (·.2.2.pc)).eraseDups
  pcs.foldl (fun (g : Group) pc =>
    let id := g.gangCtr
    let mine := (us.filter (fun u => u.2.2.pc == pc)).map (fun u => (u.1, u.2.1))
    { g.mapUnits mine (fun _ _ u => { u with gang := id }) with gangCtr := id + 1, gangs := g.gangs ++ [Gang.new id now] }) g

/-- The gang parts when its word sends the units that issue it to different PCs (R168): it keeps its first PC's units, each
other PC of its units gets a gang. -/
def Group.partGang (g : Group) (k now : Nat) (issuing : List (Nat × Bool)) : Group :=
  let sent := ((g.units.filter (fun u => issuing.contains (u.1, u.2.1))).map (·.2.2.pc)).eraseDups
  if sent.length ≤ 1 then g else
  let us := g.gangUnits k
  g.partUnits (us.filter (fun u => some u.2.2.pc != us.head?.map (·.2.2.pc))) now

/-- Some units of a word fault and do not branch, the others have branched (R170, R172): those leave the run, and the word
stands for the faulting ones, should it replay (R189). -/
def Group.keepFaulting (g : Group) (c : Cur) (bad : List (Nat × Bool)) (moved : List (Nat × Bool)) (now : Nat) : Group :=
  let gone := g.units.filter (fun u => moved.contains (u.1, u.2.1) && !bad.contains (u.1, u.2.1))
  (g.partUnits gone now).onGang c.gang (fun k => { k with run := k.run.map (fun (r : Run) => { r with units := bad }) })

/-- One unit's DBR (R170): the slice after it, or none for DIVDEPTH. -/
def Slice.dbr (sl : Slice) (b : Bool) (take : Mask) (target ft rj via : DWord) : Option Slice :=
  let u := sl.unit b
  let t := u.mask &&& take
  let n := u.mask &&& ~~~take
  if n = 0 then some (sl.setUnit b { u with pc := target, via := via })
  else if t = 0 then some (sl.setUnit b { u with pc := ft, via := via })
  else if !sl.dual then
    some { sl with dual := true, rj := rj, stack := [],
                   a := { u with pc := target, via := via, mask := t }, b := { u with pc := ft, via := via, mask := n } }
  else if 6 ≤ sl.stack.length then none
  else some { sl.setUnit b { u with pc := target, via := via, mask := t } with
                stack := sl.stack ++ [{ owner := b, rj := rj, ft := ft, n := n, m := u.mask, ran := false }] }

/-- Lanes whose predicate differs between visible lane and shadow, or is damaged (R431, R440, R194). -/
def Group.predFault (g : Group) (q : Nat) (lanes : List Nat) : Option FaultInfo :=
  let bad := lanes.filter (fun l => (g.rf :: g.sh.toList).any (fun rf => q != 7 && rf.qbad.contains (q * 64 + l)))
  let diff := match g.sh with | some sh => lanes.filter (fun l => g.rf.Q q l != sh.Q q l) | none => []
  if !bad.isEmpty then some { code := 0x21, datum := 0x20, lanes := maskOf bad }
  else if !diff.isEmpty then some { code := 0x1A, datum := 5, lanes := maskOf diff } else none

/-- DBR (R170). -/
def execDbr (q : BitVec 3) (n : BitVec 1) (t j : BitVec 11) (s : State) : Host.Outcome State Fault Refusal :=
  issue {} (fun c g run s =>
    let lanes := lanesOf c.lanes
    match g.predFault q.toNat lanes with
    | some f => .fault f s
    | none =>
      let take := maskOf (lanes.filter (fun l => g.rf.Q q.toNat l != (n == 1)))
      let target := offsetFrom c.addr t
      let rj := c.addr + (j.setWidth 64 <<< 2)
      let one (sl : Slice) (b : Bool) : Option Slice := sl.dbr b take target run.after rj c.addr
      let deep := c.units.filter (fun u => match g.slices[u.1]? with
        | some sl => (one sl u.2).isNone
        | none => false)
      let g' := c.units.foldl (fun (g : Group) u => match g.slices[u.1]? with
        | some sl => g.setSlice u.1 ((one sl u.2).getD sl)
        | none => g) g
      let split := (c.units.filter (fun u => (g.slices[u.1]?).any (fun sl => !sl.dual))).map (fun u => (u.1, true))
      if !deep.isEmpty then
        .fault { code := 0x0C, lanes := g.unitLanes deep }
          (s.onCur c (fun _ => g'.keepFaulting c deep (c.units ++ split) s.now))
      else .jump (s.onCur c (fun _ => g'.partGang c.gang s.now (c.units ++ split)))) s

/-- CALL (R172): a unit whose return stack is full raises CALLDEPTH and does not branch. -/
def execCall (o : BitVec 26) (s : State) : Host.Outcome State Fault Refusal :=
  issue {} (fun c g run s =>
    let us := g.units.filter (fun u => c.units.contains (u.1, u.2.1))
    let deep := (us.filter (fun u => decide (8 ≤ u.2.2.ret.length))).map (fun u => (u.1, u.2.1))
    let g' := g.mapUnits (c.units.filter (fun u => !deep.contains u)) (fun _ _ u =>
      { u with pc := offsetFrom c.addr o, via := c.addr, ret := u.ret ++ [run.after] })
    if !deep.isEmpty then .fault { code := 0x0D, lanes := g.unitLanes deep } (s.onCur c (fun _ => g'.keepFaulting c deep c.units s.now))
    else .jump (s.onCur c (fun _ => g'))) s

/-- RET (R172): each unit to its own return address, and the gang parts; a unit whose return stack is empty raises CALLDEPTH
and does not branch. -/
def execRet (s : State) : Host.Outcome State Fault Refusal :=
  issue {} (fun c g _ s =>
    let us := g.units.filter (fun u => c.units.contains (u.1, u.2.1))
    let empty := (us.filter (fun u => u.2.2.ret.isEmpty)).map (fun u => (u.1, u.2.1))
    let g' := g.mapUnits (c.units.filter (fun u => !empty.contains u)) (fun _ _ u =>
      { u with pc := u.ret.getLast?.getD 0, via := c.addr, ret := u.ret.dropLast })
    if !empty.isEmpty then .fault { code := 0x0D, lanes := g.unitLanes empty } (s.onCur c (fun _ => g'.keepFaulting c empty c.units s.now))
    else .jump (s.onCur c (fun _ => g'.partGang c.gang s.now c.units))) s

/-- LOOP (R173). -/
def execLoop (sg : BitVec 8) (o : BitVec 18) (s : State) : Host.Outcome State Fault Refusal :=
  issue { sr := [(sg.toNat, 1)], sw := [(sg.toNat, 1)], pair := true } (fun c g _ s =>
    let v := g.rf.S sg.toNat - 1
    let s := s.onCur c (fun g => g.files (fun r => r.setS sg.toNat (r.S sg.toNat - 1)))
    if v ≠ 0 then .jump (s.branchTo c (offsetFrom c.addr o)) else .ok s) s

/-- BRX (R174). -/
def execBrx (a : BitVec 8) (s : State) : Host.Outcome State Fault Refusal :=
  issue { sr := [(a.toNat, 2)], bad := odd a, pair := true } (fun c g _ s =>
    let t := g.rf.S64 a.toNat
    if t.toNat % 4 ≠ 0 then .fault { code := 0x08, lanes := c.lanes, faddr := t } s
    else if !canonical t then .fault { code := 0x11, lanes := c.lanes, faddr := t } s
    else .jump (s.branchTo c t)) s

/-- The lanes of a unit finish (R175): they leave every mask and stack entry of their slice; a slot without lanes has
reached its rejoin. -/
def Slice.exit (sl : Slice) (b : Bool) : Slice :=
  let u := sl.unit b
  let keepMask (m : Mask) : Mask := m &&& ~~~u.mask
  let sl := { sl with stack := sl.stack.map (fun (e : Recon) => { e with n := keepMask e.n, m := keepMask e.m }) }
  if !sl.dual then sl.setUnit b { u with mask := 0, st := .finished }
  else (sl.setUnit b { u with mask := 0 }).settleEmpty 16

/-- The lanes of listed units finish; slices whose two slots now wait at their rejoin have still to merge. -/
def Group.exitUnits (g : Group) (us : List (Nat × Bool)) : Group :=
  us.foldl (fun (g : Group) u => match g.slices[u.1]? with
    | some sl => g.setSlice u.1 (sl.exit u.2)
    | none => g) g

/-- EXIT (R175): inside an open level OPERAND with datum 0x81 (R417). Where it brings two slots to their rejoin with return
stacks of different depth, CALLDEPTH for the slice's lanes (R171). -/
def execExit (s : State) : Host.Outcome State Fault Refusal :=
  issue {} (fun c _ _ s =>
    if s.levelOpen c then .fault { code := 0x03, datum := 0x81, lanes := c.lanes } s
    else markEvent c eventEnd [] (fun s =>
      let s := s.onCur c (fun g => g.exitUnits c.units)
      match s.curGroup? c with
      | none => .jump s
      | some g =>
        if g.badMerge ≠ 0 then .fault { code := 0x0D, lanes := g.badMerge } s
        else .jump (s.onCur c (fun g => { g with slices := g.slices.map (fun (sl : Slice) => sl.merge.getD sl) }))) s) s

/-- REGANG (R176): the issuing units issue nothing after their run until every named slice has. -/
def execRegang (a : BitVec 8) (m : BitVec 1) (s : State) : Host.Outcome State Fault Refusal :=
  issue { sr := if m = 1 then [(a.toNat, 1)] else [] } (fun c g _ s =>
    let named := g.named (if m = 1 then (g.rf.S a.toNat).toNat else 0)
    .ok (s.onCur c (fun g => g.mapUnits c.units (fun _ _ u => { u with st := .regang named named })))) s

/-! ## Barriers and events (R177 to R181) -/

/-- BAR (R177): blocks until the team's barrier completes (BARRIER_COMPLETE). -/
def execBar (s : State) : Host.Outcome State Fault Refusal :=
  issue {} (fun c _ _ s => .stay (s.setWait c .barrier)) s

/-- A barrier that no group has opened. -/
def Barp.fresh : Barp := { gen := 0, expected := none, arrived := [], closed := [] }

/-- The state of barrier b of a team. -/
def Team.barp (t : Team) (b : Nat) : Barp := t.barps.getD b Barp.fresh

/-- Changes barrier b of a team. -/
def Team.setBarp (t : Team) (b : Nat) (x : Barp) : Team :=
  { t with barps := setAt (t.barps ++ List.replicate (b + 1 - t.barps.length) Barp.fresh) b x }

/-- Every live unit of a group waits in a gang for which p holds. -/
def Group.allWait (g : Group) (p : Wait → Bool) : Bool :=
  !g.units.isEmpty && g.units.all (fun u => match g.gang? u.2.2.gang with
    | some k => p k.wait && (match k.run with | some r => r.units.contains (u.1, u.2.1) | none => false)
    | none => false)

/-- A gang waits in a generation of BARP b. -/
def Wait.atBarp (b gen : Nat) (w : Wait) : Bool := match w with | .barp k e _ => k == b && e == gen | _ => false

/-- The count that an arriving group names is one that the barrier accepts (R178). -/
def Barp.accepts (x : Barp) (ngroups n : Nat) : Bool :=
  n != 0 && decide (n ≤ ngroups) && (x.expected.isNone || x.expected == some n)

/-- A generation whose arrivals have reached its count is complete: the next one opens with its first arrival, and units that
have issued the BARP in a group that has not arrived belong to it (R178). -/
def Team.closeBarp (t : Team) (b : Nat) : Team :=
  let x := t.barp b
  match x.expected with
  | none => t
  | some n =>
    if x.arrived.length < n then t else
    { t.setBarp b { gen := x.gen + 1, expected := none, arrived := [], closed := x.closed ++ [(x.gen, x.arrived)] } with
      groups := t.groups.map (fun (g : Group) => if x.arrived.contains g.id then g else
        g.mapGangs (fun k => match k.wait with
          | .barp c e n => if c = b ∧ e = x.gen then { k with wait := .barp b (x.gen + 1) n } else k
          | _ => k)) }

/-- A group arrives at a barrier with a count (R178). -/
def Team.arriveBarp (t : Team) (b g n : Nat) : Team :=
  let x := t.barp b
  (t.setBarp b { x with expected := some n, arrived := x.arrived ++ [g] }).closeBarp b

/-- BARP (R178): the group arrives when the last of its live units has issued the word, with the count that this one names; a
count that the barrier does not accept raises OPERAND, and the group does not arrive. -/
def execBarp (a : BitVec 8) (b : BitVec 4) (s : State) : Host.Outcome State Fault Refusal :=
  issue { sr := [(a.toNat, 1)] } (fun c g _ s =>
    match s.teams.find c.team with
    | none => .ok s
    | some t =>
      let n := (g.rf.S a.toNat).toNat
      let x := t.barp b.toNat
      let s' := s.setWait c (.barp b.toNat x.gen n)
      if !((s'.curGroup? c).any (fun g => g.allWait (Wait.atBarp b.toNat x.gen))) then .stay s'
      else if !x.accepts t.ngroups n then .fault { code := 0x03, lanes := c.lanes } s
      else .stay (s'.onTeam c.team (fun t => t.arriveBarp b.toNat g.id n))) s

/-- SIGEV (R179): a release fence at team scope, then the bits are set. -/
def execSigev (a b : BitVec 8) (s : State) : Host.Outcome State Fault Refusal :=
  issue { sr := [(a.toNat, 1), (b.toNat, 1)] } (fun c g _ s =>
    match s.teams.find c.team with
    | none => .ok s
    | some t =>
      let dst := g.rf.S b.toNat
      if dst ≠ 0xFFFFFFFF ∧ t.ngroups ≤ dst.toNat then .fault { code := 0x03, lanes := c.lanes } s
      else if !releaseDone s t g 1 s.opCtr then .stay s
      else .ok (s.onTeam c.team (fun t => { t with groups := t.groups.map (fun (x : Group) =>
        if dst = 0xFFFFFFFF ∨ x.id = dst.toNat then { x with evpend := x.evpend ||| (g.rf.S a.toNat &&& 0xFF) } else x) }))) s

/-- Bits of EVPEND that can be set in a context (R163, R179). -/
def eventBits (ctx : Nat) : Word := if ctx = 0 then 0x3FF else 0xFF

/-- An acquire at a scope for the group's younger accesses (R50): held as a fence until its conditions hold. -/
def State.acquire (s : State) (c : Cur) (sc : Nat) : State := s.groupOp c.team c.group (.fence 1 sc)

/-- WAITEV (R179). -/
def execWaitev (d a : BitVec 8) (s : State) : Host.Outcome State Fault Refusal :=
  issue { sr := [(a.toNat, 1)], sw := [(d.toNat, 1)] } (fun c g _ s =>
    match s.teams.find c.team with
    | none => .ok s
    | some t =>
      let m := g.rf.S a.toNat
      if m &&& eventBits t.ctx = 0 then .fault { code := 0x03, lanes := c.lanes } s else
      let x := g.evpend &&& m
      if x = 0 then .stay (s.setWait c (.event m))
      else .ok ((s.onCur c (fun g => { g.putS d.toNat x with evpend := g.evpend &&& ~~~x })).acquire c 1)) s

/-- SLEEP (R180): until SLEEP_EXPIRY. -/
def execSleep (a : BitVec 8) (s : State) : Host.Outcome State Fault Refusal :=
  issue { sr := [(a.toNat, 1)] } (fun c g _ s => .stay (s.setWait c (.sleep (s.clock + (g.rf.S a.toNat).toNat)))) s

/-- YIELD (R180). -/
def execYield (s : State) : Host.Outcome State Fault Refusal :=
  issue {} (fun c _ _ s => .ok (s.onCur c (fun g => g.young s.now))) s

/-- ELECT (R181), for the visible lanes and for the shadows (R430). -/
def execElect (d : BitVec 8) (q : BitVec 3) (s : State) : Host.Outcome State Fault Refusal :=
  issue { sw := [(d.toNat, 1)] } (fun c _ _ s =>
    let lanes := lanesOf c.lanes
    let first := lanes.headD 0
    .ok (s.onCur c (fun g => g.files (fun r =>
      lanes.foldl (fun r l => r.setQ q.toNat l (l == first)) (r.setS d.toNat (BitVec.ofNat 32 first)))))) s

/-- SETPART (R182). -/
def execSetpart (p : BitVec 4) (s : State) : Host.Outcome State Fault Refusal :=
  issueD (fun _ g _ => { bad := decide (p.toNat < 2) || decide (g.partMax < p.toNat) })
    (fun c _ _ s => .ok (s.onCur c (fun g => { g with part := p.toNat }))) s

/-! ## Register growth (R183) -/

/-- GROW (R183): blocks until the words are free; a team that was re-placed with its previous allocation raises REGALLOC
(R184). -/
def execGrow (a : BitVec 8) (s : State) : Host.Outcome State Fault Refusal :=
  issue { sr := [(a.toNat, 1)] } (fun c g _ s =>
    let n := (g.rf.S a.toNat).toNat
    let again := match s.teams.find c.team with | some t => t.oldRegs.contains g.id | none => false
    if n % 8 ≠ 0 then .fault { code := 0x03, lanes := c.lanes } s
    else if 128 < n then .fault { code := 0x0A, lanes := c.lanes } s
    else if n ≤ g.vregs then .ok s
    else if again then
      .fault { code := 0x0A, lanes := c.lanes }
        (s.onTeam c.team (fun t => { t with oldRegs := t.oldRegs.filter (· != g.id) }))
    else if growFits s g n then .ok (s.onCur c (fun g' => { g' with vregs := n, rows := g'.rows ++ growWords s g n }))
    else .stay (s.setWait c (.grow n))) s

/-- Registers from vN upward are released: their values and tags go back to what allocation gives. -/
def Group.release (g : Group) (n : Nat) : Group :=
  let cut (rf : RegFile) : RegFile :=
    { rf with v := rf.v.filter (fun e => decide (e.1 < n * 64) || decide (128 * 64 ≤ e.1)) }
  { g.files cut with vregs := n, rows := g.rows.take (4 * n), tags := g.tags.filter (fun e => decide (e.1 < n * 16) || decide (128 * 16 ≤ e.1)) }

/-- SHRINK (R183). -/
def execShrink (a : BitVec 8) (s : State) : Host.Outcome State Fault Refusal :=
  issue { sr := [(a.toNat, 1)] } (fun c g _ s =>
    let n := (g.rf.S a.toNat).toNat
    if n % 8 ≠ 0 ∨ n = 0 then .fault { code := 0x03, lanes := c.lanes } s
    else if g.vregs ≤ n then .ok s
    else if (List.range (g.vregs - n)).any (fun i => g.pending false (n + i)) then
      .fault { code := 0x0B, lanes := c.lanes } s
    else .ok (s.onCur c (fun g => g.release n))) s

/-! ## Traps (R188 to R190) -/

/-- TRAP (R188): a KIND 1 record that names the word after the TRAP. -/
def execTrap (n : BitVec 12) (s : State) : Host.Outcome State Fault Refusal :=
  issue {} (fun c g _ s =>
    .free (deliver ((s.takeSlot c).onCur c (fun g => g.wordDone c.gang false)) c.team c.group c.gang
      (trapRecord g c 1 n.toNat (c.addr + 4) 0 true))) s

/-- SYSCALL (R188): the gang parks, and a KIND 2 record with all its lanes goes to the context's fault queue. -/
def execSyscall (a : BitVec 8) (n : BitVec 12) (s : State) : Host.Outcome State Fault Refusal :=
  issue { sr := [(a.toNat, 2)], bad := odd a } (fun c g _ s =>
    match s.teams.find c.team with
    | none => .ok s
    | some t =>
      let lanes := g.unitLanes ((g.gangUnits c.gang).map (fun u => (u.1, u.2.1)))
      .stay (postTeam (s.setWait c .syscall) t 0
        { trapRecord g c 2 n.toNat c.addr (g.rf.S64 a.toNat) true with lanes := lanes })) s

/-- ERET (R189): ILLEGAL without a shadow. -/
def execEret (sg : BitVec 1) (s : State) : Host.Outcome State Fault Refusal :=
  issue { priv := true } (fun c g _ s =>
    match g.eret (sg == 1) with
    | none => .fault { code := 0x01, lanes := c.lanes } s
    | some _ => .free ((s.takeSlot c).onCur c (fun g => (g.eret (sg == 1)).getD g))) s

/-- HALT (R190): the group stops issue and stays resident, and a KIND 4 record is posted. -/
def execHalt (s : State) : Host.Outcome State Fault Refusal :=
  issue { priv := true } (fun c g _ s =>
    match s.teams.find c.team with
    | none => .ok s
    | some t => .stay (postTeam
        (s.onCur c (fun g => { g with gangs := g.gangs.map (fun (k : Gang) => { k with wait := .halted }) })) t 0
        (trapRecord g c 4 0 c.addr 0 true))) s

/-- ERRINJ (R190, R445). -/
def execErrinj (a : BitVec 8) (s : State) : Host.Outcome State Fault Refusal :=
  issue { priv := true, sr := [(a.toNat, 1)] } (fun c g _ s =>
    match s.teams.find c.team with
    | none => .ok s
    | some t =>
      let w := g.rf.S a.toNat
      if !goodErrinj t.desc.protect w then .fault { code := 0x03, lanes := c.lanes } s
      else .ok (s.onCur c (fun g => { g with errinj := w &&& errinjMask }))) s

end Sys2Proof.Machine
end

