-- ==== Sys2Proof/Machine/Access.lean ====
section
/-! DEFINITION. The words of the access engine and the atomics (R218 to R251, R298 to R301): what each lane accesses, the
checks of each lane, and what is handed to the engines. -/

namespace Sys2Proof.Machine

/-! ## Forms -/

/-- A memory word: kind, whether it is of the scratch-window group (R218), TAG, WID (none: uniform), data operand, offset
operand and base pair. -/
structure Access where
  kind : MemKind
  window : Bool := false
  tag : Nat := 0
  wid : Option Nat := none
  d : Nat := 0
  a : Nat := 0x8F
  p : Nat := 0

/-- The space of a code (R30). -/
def Space.ofCode (c : Nat) : Space :=
  match c with
  | 0 => .global
  | 1 => .scratch
  | 2 => .remote
  | 3 => .drawer
  | 4 => .sync
  | _ => .tile

/-- Registers of a count code (R102). -/
def rcntRegs (c : Nat) : Nat := if c = 0 then 1 else if c = 1 then 2 else 4

/-- The word that holds the modifiers in force: the attached MPFX or the group's MDEF (R103). -/
def modWord (g : Group) (run : Run) : Nat := (run.mpfx.getD g.mdef).toNat

/-- The modifiers of a memory word; PROBE always translates as global (R218). -/
def Access.mods (x : Access) (g : Group) (run : Run) : Mods :=
  if x.kind = .probe then ⟨0, 0, .global, 0, 0, 0⟩ else
  let w := modWord g run
  let sp := Space.ofCode (natBits w 17 3)
  ⟨natBits w 23 3, natBits w 20 3, if x.window && sp == .global then .scratch else sp, natBits w 14 3, natBits w 11 3,
   natBits w 9 2⟩

def Access.uniform (x : Access) : Bool := x.kind == .loadU || x.kind == .storeU

/-- Results come back to registers (R86: FA). -/
def MemKind.returns : MemKind → Bool
  | .load => true
  | .loadU => true
  | .atom _ => true
  | .probe => true
  | _ => false

/-- Operation number of an atomic. -/
def MemKind.atomOp : MemKind → Nat
  | .atom o => o
  | .atomn o => o
  | _ => 0

/-- Registers per lane. -/
def Access.regs (x : Access) (m : Mods) : Nat :=
  if x.kind.isAtomic then (if x.wid = some 3 then 2 else 1) else if x.kind = .probe ∨ x.kind = .pref then 1 else rcntRegs m.rcnt

/-- Lane bytes (R220, R225, R300); none where the table has no entry. -/
def Access.size (x : Access) (m : Mods) : Option Nat :=
  if x.kind = .probe ∨ x.kind = .pref then some 1 else
  if x.kind.isAtomic then some (if x.wid = some 3 then 8 else 4) else
  let n := rcntRegs m.rcnt
  match x.wid with
  | none => some (4 * n)
  | some 0 => if n = 1 then some 1 else none
  | some 1 => if n = 1 then some 2 else none
  | some 2 => some (4 * n)
  | some _ => if n = 1 then none else some (4 * n)

/-- Space values that the word accepts (R218, R298). -/
def Access.spaceOk (x : Access) (m : Mods) : Bool :=
  match x.kind with
  | .probe => true
  | .pref => m.space == .global
  | .atom _ => m.space == .global
  | .atomn _ => m.space == .global
  | _ => if x.window then m.space == .scratch || m.space == .sync
         else m.space == .global || m.space == .drawer || m.space == .tile

/-- Orders that the word accepts (R48). -/
def Access.orderOk (x : Access) (m : Mods) : Bool :=
  match x.kind with
  | .load => [0, 1, 4].contains m.order
  | .loadU => [0, 1, 4].contains m.order
  | .atom _ => decide (m.order ≤ 4)
  | .probe => true
  | .pref => true
  | _ => [0, 2, 4].contains m.order

/-- Uses that the word accepts (R56), but for the tag that a commutative one needs. -/
def Access.useOk (x : Access) (m : Mods) : Bool :=
  m.use == 0 ||
  (m.order == 0 && (m.space == .global || m.space == .drawer) &&
   match x.kind with
   | .load => [1, 4, 5].contains m.use
   | .store => m.use == 1
   | .atom _ => [1, 3, 4].contains m.use
   | .atomn o => m.use == 1 || (m.use == 2 && [0, 2, 3, 4, 5, 6].contains o)
   | _ => false)

/-- The data operand names as many registers as the word needs (R222, R298). -/
def Access.dataOk (x : Access) (n : Nat) : Bool :=
  if x.uniform ∨ x.kind = .pref then true else
  if x.d < 0x80 then decide (x.d + n ≤ 0x80) else
  if x.d < 0x88 then !x.kind.returns && decide (x.d + n ≤ 0x88) else decide (x.d ≤ 0x8B)

/-- The compare operand of a cas names what it needs (R298). -/
def Access.hopOk (x : Access) (g : Group) (run : Run) : Bool :=
  match run.hopnd with
  | none => true
  | some h =>
    if x.wid ≠ some 3 then true else
    let c := h.toNat
    if c < 0x80 then decide (c + 1 < g.vregs) else
    if c < 0x88 then decide (c + 1 < 0x88) else
    if 0xC0 ≤ c then decide (c - 0xC0 + 1 < g.sregs) else true

/-- OPERAND conditions that the word, its hints and MDEF show (R218, R220, R222, R225, R298, R230, R48, R56). -/
def Access.bad (x : Access) (g : Group) (run : Run) : Bool :=
  let m := x.mods g run
  !x.spaceOk m || !x.orderOk m || !x.useOk m || !x.dataOk (x.regs m) || !x.hopOk g run ||
  (x.kind.isStore && m.cpol == 5) ||
  (x.kind.isAtomic && x.wid == some 3 && decide (9 ≤ x.kind.atomOp)) ||
  (match x.size m with
   | none => true
   | some n => (m.space == .sync && n != 16) || (m.space == .tile && decide (n < 4)) ||
       (x.kind == .load && decide (n < 4) && !([0, 1, 8, 9].contains x.tag)))

/-- Registers that v[x] reaches from the lanes, as ranges of n. -/
def Group.windowRanges (g : Group) (lanes : List Nat) (c n : Nat) : List (Nat × Nat) :=
  if c < 0x88 ∨ 0x8B < c then [] else
  (lanes.filterMap (fun l =>
    let i := (g.rf.X (c - 0x88) l).toNat
    if i + n ≤ g.winlen ∧ g.winbase + i + n ≤ g.vregs then some (g.winbase + i, n) else none)).eraseDups

/-- The v registers of a data operand as ranges. -/
def Group.dataRanges (g : Group) (lanes : List Nat) (c n : Nat) : List (Nat × Nat) :=
  if c < 0x80 then [(c, n)] else g.windowRanges lanes c n

/-- What a memory word uses (R76). -/
def Access.uses (x : Access) (c : Cur) (g : Group) (run : Run) : Uses :=
  let m := x.mods g run
  let n := x.regs m
  let lanes := lanesOf c.lanes
  let dr := g.dataRanges lanes x.d n
  let dt := if 0x80 ≤ x.d ∧ x.d < 0x88 then (List.range n).map (x.d + ·) else [x.d]
  let hop : HopUse := if x.kind.atomOp = 8 ∧ x.kind.isAtomic then .needs else .refuse
  let h := if hop = .needs then (run.hopnd.map (·.toNat)).getD 0x8F else 0x8F
  let hr := if h < 0x80 ∨ (0x88 ≤ h ∧ h ≤ 0x8B) then g.dataRanges lanes h n else []
  let ht := if 0x80 ≤ h ∧ h < 0x88 then (List.range n).map (h + ·) else []
  let hs := if 0xC0 ≤ h then [(h - 0xC0, n)] else []
  let base : Uses := { role := if x.uniform then .all else .vector, bad := x.bad g run, mpfx := x.kind != .probe,
                       sr := [(2 * x.p, 2)], vr := if x.uniform then [] else [x.a] }
  let reads : Uses := { base with vr := base.vr ++ dt, vrs := dr }
  let atom : Uses := { reads with vr := reads.vr ++ ht, vrs := dr ++ hr, sr := reads.sr ++ hs, hopnd := hop }
  match x.kind with
  | .load => { base with vw := [x.d], vws := dr, long := some true }
  | .probe => { base with vw := [x.d], vws := dr, long := some true }
  | .store => { reads with long := some false }
  | .loadU => { base with sw := [(x.d, n)], long := some true }
  | .storeU => { base with sr := base.sr ++ [(x.d, n)], long := some false }
  | .atom _ => { atom with vw := [x.d], vws := dr, long := some true }
  | .atomn _ => { atom with long := some false }
  | .pref => base

/-! ## Values and addresses of a lane -/

/-- n words from an operand code on, in one lane of one file (R223, R298). -/
def Group.words (g : Group) (run : Run) (rf : RegFile) (c n lane : Nat) : List Word :=
  (List.range n).map (fun j =>
    if c = 0x8F then (let w := run.imm.getD 0; if j = 0 then w else if w.toInt < 0 then 0xFFFFFFFF else 0)
    else if 0xC0 ≤ c then rf.S (c - 0xC0 + j)
    else match g.regAt rf c lane with | some r => rf.V (r + j) lane | none => 0)

/-- The address that a lane forms (R219). -/
def Access.addr (x : Access) (g : Group) (run : Run) (rf : RegFile) (lane : Nat) : DWord :=
  let disp : DWord := match run.imm with | some i => i.signExtend 64 | none => 0
  let off : DWord := if x.a = 0x8F then 0 else ((g.srcVal run rf x.a lane).getD 0).signExtend 64
  rf.S64 (2 * x.p) + off + disp

/-- The bytes that a lane stores, or gives to an atomic. -/
def Access.data (x : Access) (g : Group) (run : Run) (m : Mods) (rf : RegFile) (lane : Nat) : List Byte :=
  let n := (x.size m).getD 1
  if x.kind = .storeU then ((List.range (x.regs m)).map (fun j => rf.S (x.d + j))).flatMap (fun w => bytesLE 4 w.toNat)
  else if x.kind.isStore then ((g.words run rf x.d (x.regs m) lane).flatMap (fun w => bytesLE 4 w.toNat)).take n
  else []

/-- The tag of the data of an atomic in a lane. -/
def Access.dataTag (x : Access) (g : Group) (lane : Nat) : Nat := (g.srcTag x.d lane).getD 0

/-- The compare value of a cas; for any other atomic the tag of the lane's data, which selects the reading (R299). -/
def Access.cmpVal (x : Access) (g : Group) (run : Run) (m : Mods) (rf : RegFile) (lane : Nat) : Nat :=
  if x.kind.atomOp = 8 then
    match run.hopnd with
    | some h => leVal ((g.words run rf h.toNat (x.regs m) lane).flatMap (fun w => bytesLE 4 w.toNat))
    | none => 0
  else x.dataTag g lane

/-! ## Checks of a lane (R243, R315) -/

/-- v[x] leaves the index window in some copy of the lane (R216, R222). -/
def Group.outside (g : Group) (c n lane : Nat) : Bool :=
  decide (0x88 ≤ c) && decide (c ≤ 0x8B) && (g.rf :: g.sh.toList).any (fun rf =>
    let i := (rf.X (c - 0x88) lane).toNat
    !(decide (i + n ≤ g.winlen) && decide (g.winbase + i + n ≤ g.vregs)))

/-- Tags that an atomic accepts (R299). -/
def atomTagOk (op : Nat) (wide : Bool) (t : Nat) : Bool :=
  if op ≤ 3 then (if wide then decide (t ≤ 1) else decide (t ≤ 2))
  else if op ≤ 6 then t == 0 || t == 1 || t == 9
  else if op ≤ 8 then decide (t ≤ 9)
  else t == 1

/-- Tags of n registers from a code on, in a lane. -/
def Group.tagsAt (g : Group) (c n lane : Nat) : List Nat :=
  if isRegCode c then
    match g.regAt g.rf c lane with
    | some r => (List.range n).map (fun j => g.tag (r + j) (g.sliceOf lane))
    | none => []
  else []

/-- A write of a tag to n registers from a code on would split the tag of the lane's slice (R122). -/
def Group.splits (g : Group) (lanes : List Nat) (c n tag lane : Nat) : Bool :=
  match g.regAt g.rf c lane with
  | none => false
  | some r =>
    let sl := g.sliceOf lane
    let mine := lanes.filter (fun l => g.sliceOf l == sl)
    (List.range n).any (fun j => g.tag (r + j) sl != tag &&
      decide ((mine.filter (fun l => match g.regAt g.rf c l with
        | some k => decide (k ≤ r + j) && decide (r + j < k + n)
        | none => false)).length < g.perSlice))

/-- The tag of some register would be split in the lane's slice: every active lane of the slice faults (R122). -/
def Group.sliceSplits (g : Group) (lanes : List Nat) (c n tag lane : Nat) : Bool :=
  lanes.any (fun l => g.sliceOf l == g.sliceOf lane && g.splits lanes c n tag l)

/-- Damaged operands of n registers from a code on: the datum of R194. -/
def Group.dirtyAt (g : Group) (c n lane num : Nat) : Option Nat :=
  if !isRegCode c then none else
  let files := g.rf :: g.sh.toList
  if decide (0x88 ≤ c) && files.any (fun rf => rf.xbad.contains ((c - 0x88) * 64 + lane)) then some 0x20 else
  match g.regAt g.rf c lane with
  | none => none
  | some r => if files.any (fun rf => (List.range n).any (fun j => !rf.vOk (r + j) lane)) then some num else none

/-- A slot of a team's bank map (R254); a slot beyond those asked for reads as detached. -/
def Team.slot (t : Team) (i : Nat) : SlotState := t.slots.getD i .detached

/-- Form of an address in its space, then its slot or tile (R30, R371): code and datum. -/
def addrFault (t : Team) (g : Group) (sp : Space) (a : DWord) : Option (Nat × Nat) :=
  match sp with
  | .global => if canonical a then none else some (0x11, 0)
  | .drawer => if canonical a then none else some (0x11, 0)
  | .remote => some (0x11, 0)
  | .tile =>
    if 2 ^ 17 ≤ a.toNat then some (0x11, 0) else
    if t.desc.matCount = 0 then some (0x18, 0xFF) else
    if t.tokens.getD (a.toNat / 2 ^ 15) none = some g.id then none else some (0x18, a.toNat / 2 ^ 15)
  | _ =>
    if 2 ^ 19 ≤ a.toNat then some (0x11, 0) else
    match t.slot (a.toNat / 32768) with
    | .attached _ => none
    | _ => some (0x13, a.toNat / 32768)

/-- The first fault of a lane before translation: code and datum. -/
def Access.laneFault (x : Access) (t : Team) (g : Group) (run : Run) (m : Mods) (lanes : List Nat) (lane : Nat) :
    Option (Nat × Nat) :=
  let n := x.regs m
  let size := (x.size m).getD 1
  let hop := if x.kind.isAtomic then (run.hopnd.map (·.toNat)).getD 0xC0 else 0xC0
  let usesD := !x.uniform && x.kind != .pref
  if (!x.uniform && g.outside x.a 1 lane) || (usesD && g.outside x.d n lane) || g.outside hop n lane then some (0x07, 0) else
  if x.kind.isAtomic &&
      (let ts := g.tagsAt x.d n lane ++ (if x.kind.atomOp = 8 ∧ x.wid = some 3 then g.tagsAt hop n lane else [])
       ts.any (fun k => k != ts.headD 0 || !atomTagOk x.kind.atomOp (x.wid == some 3) k)) then some (0x05, 0) else
  if (x.kind == .load && g.sliceSplits lanes x.d n x.tag lane) || (x.kind == .probe && g.sliceSplits lanes x.d 1 1 lane) then
    some (0x06, 0) else
  let dirty := [if x.uniform then none else g.dirtyAt x.a 1 lane 1,
                if usesD && x.kind.isStore then g.dirtyAt x.d n lane 3 else none,
                if usesD && !x.kind.isStore && decide (0x88 ≤ x.d) then
                  (if (g.rf :: g.sh.toList).any (fun rf => rf.xbad.contains ((x.d - 0x88) * 64 + lane)) then some 0x20 else none)
                else none,
                g.dirtyAt hop n lane 4]
  match dirty.find? (·.isSome) with
  | some d => some (0x21, d.getD 0)
  | none =>
    let a := x.addr g run g.rf lane
    if a.toNat % size ≠ 0 then some (0x08, 0) else
    if x.kind = .probe then none else addrFault t g m.space a

/-- Lane-pair: address, data or compare value differ between a lane and its shadow (R431). -/
def Access.pairDiff (x : Access) (g : Group) (run : Run) (m : Mods) (dat dats : Nat → List Byte) (lanes : List Nat) :
    Option FaultInfo :=
  match g.sh with
  | none => none
  | some sh =>
    let bad := lanes.filter (fun l => !g.outside x.d (x.regs m) l &&
      (x.addr g run g.rf l != x.addr g run sh l || dat l != dats l ||
       (x.kind.isAtomic && x.cmpVal g run m g.rf l != x.cmpVal g run m sh l)))
    if bad.isEmpty then none
    else some { code := 0x1A, datum := if x.uniform then 6 else 1, lanes := maskOf bad,
                faddr := x.addr g run g.rf (bad.headD 0) }

/-! ## Compared data (R446, SITE 2) -/

/-- Inverts a bit of a lane's first data word. -/
def flipData (bit : Nat) (bs : List Byte) : List Byte :=
  bs.zipIdx.map (fun (b : Byte × Nat) => if b.2 = bit / 8 then b.1 ^^^ BitVec.twoPow 8 (bit % 8) else b.1)

/-! ## Blocks (R226, R234) -/

/-- Bytes of a block of a space. -/
def Space.unit : Space → Nat
  | .global => 256
  | .drawer => 256
  | .remote => 256
  | .tile => 512
  | _ => 64

/-- Spaces whose traffic the two copies of a core-pair team share (R434). -/
def Space.shared (sp : Space) : Bool := sp == .global || sp == .drawer

/-- The aligned range that a lane's access lies in (R226): of virtual addresses where they are translated. -/
def LaneAcc.range (a : LaneAcc) (sp : Space) : Nat := if sp.translated then a.va.toNat / 256 else a.pa / sp.unit

/-- What FIFO entry a block belongs to: its operation and its aligned range (R226). -/
def Block.entry (b : Block) : Nat × Nat :=
  (b.op, if b.space.translated then b.va.toNat / 256 else (b.cells.headD (0, 0)).1 / b.space.unit)

/-- Entries of a list of blocks. -/
def entries (bs : List Block) : Nat := (bs.map (·.entry)).eraseDups.length

/-- The bytes that the lanes of one store write, each with its lane's aligned range: of lanes that write the same byte only the
highest does (R221). -/
def storeCells (sp : Space) : List LaneAcc → List (Nat × Host.Cell)
  | [] => []
  | a :: rest => ((cellsAt a.pa a.data).filter (fun c => !rest.any (fun x => decide (x.pa ≤ c.1) && decide (c.1 < x.pa + x.data.length) &&
      (sp != .global || x.vc == a.vc)))).map (fun c => (a.range sp, c)) ++ storeCells sp rest

/-- A store of a lane list: one block for each aligned range, in the order of the lowest lane that touches it. The fault of a
uniform store names every active lane of the issuing unit (R225). -/
def storeBlocks (o : Op) (m : MemOp) (ctx clock : Nat) (first : Nat) (accs : List LaneAcc) : List Block :=
  let cells := storeCells m.space accs
  let keys := ((accs.map (fun a => a.range m.space)).eraseDups).filter (fun k => cells.any (fun c => c.1 == k))
  keys.zipIdx.map (fun k =>
    let mine := accs.filter (fun a => a.range m.space == k.1)
    let a0 := mine.headD ⟨0, 0, 0, 0, 0, false, 0, .walk, [], 0, 0⟩
    { id := first + k.2, op := o.id, team := o.team, group := o.group, kind := .store, space := m.space, lane := a0.lane,
      ctx := ctx, vc := a0.vc, lclass := a0.lclass, device := decide (2 ^ 40 ≤ a0.pa) && m.space == .global,
      bank := a0.pa / 32768, cells := (cells.filter (fun c => c.1 == k.1)).map (·.2), cmp := 0, mods := m.mods,
      level := o.level, iaddr := o.iaddr, gang := o.gang,
      lanes := if m.kind == .storeU then o.lanes else maskOf (mine.map (·.lane)), va := a0.va, psize := a0.psize, born := clock })

/-- An atomic: one block for each lane, in ascending order, so that every lane is its own step (R300). -/
def atomBlocks (o : Op) (m : MemOp) (op : Nat) (ctx clock : Nat) (first : Nat) (accs : List LaneAcc) : List Block :=
  accs.zipIdx.map (fun k =>
    { id := first + k.2, op := o.id, team := o.team, group := o.group, kind := .atomic op (m.bytes == 8), space := m.space,
      lane := k.1.lane, ctx := ctx, vc := k.1.vc, lclass := k.1.lclass, device := decide (2 ^ 40 ≤ k.1.pa), bank := 0,
      cells := cellsAt k.1.pa k.1.data, cmp := k.1.cmp, mods := m.mods, level := o.level,
      iaddr := o.iaddr, gang := o.gang, lanes := laneBit k.1.lane, va := k.1.va, psize := k.1.psize, born := clock })

/-- The blocks of an operation's lanes. -/
def opBlocks (o : Op) (m : MemOp) (ctx clock first : Nat) (accs : List LaneAcc) : List Block :=
  match m.kind with
  | .atom op => atomBlocks o m op ctx clock first accs
  | .atomn op => atomBlocks o m op ctx clock first accs
  | _ => storeBlocks o m ctx clock first accs

/-- The blocks fit into the group's FIFO of 16 entries; more than 16 go in when it is empty. -/
def fifoFits (g : Group) (bs : List Block) : Bool := g.fifo.isEmpty || decide (entries g.fifo + entries bs ≤ 16)

/-! ## Results of a lane -/

/-- A load's bytes in a register (R220). -/
def extendData (tag : Nat) (bs : List Byte) : Word :=
  let v := leVal bs
  if tag = 0 then BitVec.ofInt 32 (signed (8 * bs.length) v) else BitVec.ofNat 32 v

/-- Words of bytes, lowest first. -/
def wordsOf (n : Nat) (bs : List Byte) : List Word := (List.range n).map (fun j => BitVec.ofNat 32 (leVal ((bs.drop (4 * j)).take 4)))

/-- What a lane's data write: visible and shadow files, tags of the slice (R223, R225, R250, R300, R431). -/
def Group.bindLane (g : Group) (kind : MemKind) (tag regs lane reg : Nat) (bs : List Byte) : Group :=
  match kind with
  | .loadU => g.putSs reg (wordsOf regs bs)
  | _ =>
    let ws := if kind = .load ∧ bs.length < 4 then [extendData tag bs] else wordsOf regs bs
    let g := g.files (fun rf => ws.zipIdx.foldl (fun rf w => rf.setV (reg + w.2) lane w.1) rf)
    match kind with
    | .load => (List.range regs).foldl (fun g j => g.setTag (reg + j) (g.sliceOf lane) tag) g
    | .probe => g.setTag reg (g.sliceOf lane) 1
    | _ => g

/-- Order of the codes in the record of a memory word (R243, R315); PAGE and LINKSTALL are named by none of these. -/
def memOrder : List Nat := [0x07, 0x03, 0x05, 0x06, 0x21, 0x08, 0x11, 0x13, 0x18, 0x12, 0x1C, 0x17]

/-- The record of the faulted lanes of a memory word (R243, R244): lanes that wait on PAGE or LINKSTALL are named too. -/
def memFaultInfo (uniform : Option Mask) (accs : List LaneAcc) : Option FaultInfo :=
  let fs := accs.filterMap (fun a => match a.st with | .faulted c d => some (a, c, d) | _ => none)
  let soft := accs.filter (fun a => a.st.soft)
  match memOrder.find? (fun k => fs.any (fun f => f.2.1 == k)) with
  | none => none
  | some k =>
    let mine := fs.filter (fun f => f.2.1 == k)
    let names := maskOf (fs.map (fun f => f.1.lane) ++ soft.map (·.lane))
    some { code := k, datum := (mine.map (fun f => f.2.2)).headD 0, lanes := uniform.getD names,
           faddr := (mine.map (fun f => f.1.va)).headD 0, replay := !soft.isEmpty }

/-! ## The value channel (R433) -/

/-- Lanes as the value channel carries them: lane, address, fault code and datum, data. -/
def channelLanes (accs : List LaneAcc) : List Nat :=
  accs.flatMap (fun a => match a.st with
    | .faulted c d => [a.lane, a.va.toNat, c, d, 0]
    | _ => [a.lane, a.va.toNat, 0, 0, leVal a.data])

/-- The quintuples of a channel entry. -/
def unchannel : List Nat → List (Nat × Nat × Nat × Nat × Nat)
  | l :: a :: c :: d :: v :: r => (l, a, c, d, v) :: unchannel r
  | _ => []

/-! ## Issue -/

/-- Blocks enter the compare engine, one event for each (R436). -/
def enterBlocks (s : State) (o : Op) (m : MemOp) (bs : List Block) : State :=
  bs.foldl (fun s b =>
    let mine := m.accs.filter (fun a => a.st == .ready && (if m.kind.isAtomic then a.lane == b.lane else
      a.range m.space == b.entry.2))
    let va := (mine.map (·.va)).headD 0
    let words := [m.bytes] ++ mine.flatMap (fun a => [a.va.toNat, leVal a.data, a.cmp])
    s.onTeam o.team (fun t => t.enterEvent (t.residentClocks s.clock) o.group (if m.kind.isAtomic then 2 else 1) o.iaddr
      (maskOf (mine.map (·.lane))) words va (some b) none)) s

/-- A memory operation with lanes in a given state. -/
def MemOp.setLanes (m : MemOp) (p : LaneAcc → Bool) (st : LaneState) : MemOp :=
  { m with accs := m.accs.map (fun (a : LaneAcc) => if p a then { a with st := st } else a) }

/-- The lanes that are ready go to the engines: stores and atomics into the FIFO or the compare engine, loads to
LOAD_REPLY. None when they have to stall. -/
def sendLanes (s : State) (t : Team) (g : Group) (o : Op) (m : MemOp) : Option State :=
  if !m.kind.isStore then some (s.setBody o.id (.mem m)) else
  let ready := m.accs.filter (fun a => a.st == .ready)
  let bs := opBlocks o m t.ctx s.clock s.opCtr ready
  let m' := m.setLanes (fun a => a.st == .ready) (match m.kind with
    | .atom _ => .miss
    | .atomn _ => if t.paired then .bound else .miss
    | _ => .bound)
  let s' := { s with opCtr := s.opCtr + bs.length }
  if t.paired then
    if !slackRoom t bs.length then none else
    if t.copy = .trailing ∧ m.space.shared ∧ leadSent s t g.id < t.eventsSent g.id + bs.length then none else
    let s' := (enterBlocks s' o m bs).setBody o.id (.mem m')
    some (if t.copy = .leading ∧ m.kind ≠ .atom m.kind.atomOp then s'.completeOp o.id else s')
  else
    if !fifoFits g bs then none else
    let s' := (s'.onGroup t.id g.id (fun g => { g with fifo := g.fifo ++ bs })).setBody o.id (.mem m')
    some s'

/-- Arms the monitors of a parked operation, and parks its gang: on a timer when a slice has no monitor free (R245). -/
def parkLanes (s : State) (c : Cur) (ctx op : Nat) (entries : List Nat) : State :=
  let (s, all) := entries.foldl (fun (x : State × Bool) e =>
    let (s, ok) := armMonitor x.1 (x.1.ctx ctx).phvc e (.op op)
    (s, x.2 && ok)) (s, true)
  s.setWait c (if all then .parked op else .timer op (s.clock + 65536))

/-- What the leading copy of a core-pair team puts into the value channel for a word of shared space: for an atomic that returns
values as it is handed over, for any other access when its lanes are over or it faults (R433). -/
def leadChannel (s : State) (t : Team) (c : Cur) (o : Op) (m : MemOp) (ended fault : Bool) : State :=
  if !(t.copy == .leading && m.space.shared) then s else
  if m.kind.isAtomic && m.kind.returns then fillChannel s t.id o.id ([2, o.id] ++ channelLanes m.accs)
  else if m.kind.returns then (if ended then fillChannel s t.id o.id (1 :: channelLanes m.accs) else s)
  else if fault then s.onTeam t.id (fun x => { x with cmp := { x.cmp with values := x.cmp.values ++
      [(c.group, faultEntry t c (channelLanes (m.accs.filter (fun a => match a.st with | .faulted .. => true | _ => false))))] } })
  else s

/-- The record of a park (R245): PAGE when some lane took it, LINKSTALL otherwise. -/
def parkInfo (uniform : Option Mask) (accs : List LaneAcc) : FaultInfo :=
  let soft := accs.filter (fun a => a.st.soft)
  let page := soft.filter (fun a => match a.st with | .parked _ => true | _ => false)
  let named := if page.isEmpty then soft else page
  { code := if page.isEmpty then 0x16 else 0x10, lanes := uniform.getD (maskOf (soft.map (·.lane))),
    faddr := (named.map (·.va)).headD 0, replay := true }

/-- The outcome of every lane that matters is known, or no lane has faulted or parked: the word faults, parks, stalls or goes
(R243 to R245). A word that waits for data waits with its gang while a lane has faulted or parked and another's outcome is
open, so that one record names them all; an instruction that delivers a fault completes there (R224). -/
def Access.go (x : Access) (c : Cur) (t : Team) (g : Group) (s : State) (o : Op) (m : MemOp) : Eff :=
  let uniform := if x.uniform then some c.lanes else none
  let fault := memFaultInfo uniform m.accs
  let soft := m.accs.any (fun a => a.st.soft)
  let pages := m.accs.filterMap (fun a => match a.st with | .parked e => some e | _ => none)
  if t.paired && m.kind.isStore && fault.isNone && soft then
    .stay (parkLanes ((if m.posted then s else postTeam s t 1 (faultRecord g c true (parkInfo uniform m.accs))).setBody o.id
      (.mem { m with posted := true })) c t.ctx o.id pages.eraseDups)
  else
  let m1 := if fault.isSome then m.setLanes (fun a => a.st.soft) .dropped else m
  match sendLanes s t g o (if m.kind == .store || m.kind == .storeU then m1 else m) with
  | none => .stay (countStall (s.setWait c .none) t)
  | some s =>
    let m := match (s.ops.find o.id).map (fun (k : Op) => k.body) with | some (.mem k) => k | _ => m1
    let s := if m.kind.isAtomic && m.kind.returns then leadChannel s t c o m false false else s
    let open? := m.accs.any (fun a => !a.st.ended && !a.st.soft)
    if (fault.isSome || soft) && open? then .stay (s.setWait c (.translate o.id)) else
    match fault with
    | some f => .fault f ((leadChannel s t c o m true true).completeOp o.id)
    | none =>
      if soft then
        let s := if m.posted then s else postTeam s t 1 (faultRecord g c true (parkInfo uniform m.accs))
        .stay (parkLanes (s.setBody o.id (.mem { m with posted := true })) c t.ctx o.id pages.eraseDups)
      else .ok s

/-- Line requests that a core has outstanding (R227): blocks of its groups' loads of translated space whose data have not come. -/
def lineRequests (s : State) (core : Nat) : Nat :=
  ((s.ops.flatMap (fun o => match o.2.body, s.group? o.2.team o.2.group with
    | .mem m, some g => if g.core = core ∧ m.space.translated ∧ !m.kind.isStore ∧ m.kind ≠ .probe then
        (m.accs.filter (fun a => !a.st.ended && !a.st.soft)).map (fun a => (o.1, a.range m.space)) else []
    | _, _ => [])).eraseDups).length

/-- The access engine has request entries for the blocks of a word (R227). -/
def requestRoom (s : State) (core : Nat) (m : MemOp) : Bool :=
  m.kind.isStore || !m.space.translated || m.kind == .probe ||
  decide (lineRequests s core + ((m.accs.map (fun a => a.range m.space)).eraseDups).length ≤ 512)

/-- The lanes of a word as it first issues: addresses, data, and the faults that need no translation. -/
def Access.accs (x : Access) (t : Team) (g : Group) (run : Run) (m : Mods) (lanes : List Nat) (dat : Nat → List Byte)
    (own : Bool) : List LaneAcc :=
  lanes.map (fun l =>
    let va := x.addr g run g.rf l
    let reg := if x.uniform then x.d else (g.regAt g.rf x.d l).getD 0
    let pa := match m.space with
      | .tile => va.toNat
      | .scratch => (match t.slot (va.toNat / 32768) with | .attached b => b * 32768 + va.toNat % 32768 | _ => 0)
      | .sync => (match t.slot (va.toNat / 32768) with | .attached b => b * 32768 + va.toNat % 32768 | _ => 0)
      | _ => if own then 0 else va.toNat
    { lane := l, va := va, pa := pa, vc := 0, lclass := 0, sealed := false, reg := reg,
      st := match x.laneFault t g run m lanes l with
        | some (c, d) => if x.kind = .pref then .dropped else .faulted c d
        | none => if m.space.translated && own then .walk else .ready,
      data := dat l, cmp := if x.kind.isAtomic then x.cmpVal g run m g.rf l else 0, psize := 0 })

/-- The trailing copy of a core-pair team takes a load of shared space from the value channel (R433). -/
def Access.follow (x : Access) (c : Cur) (t : Team) (g : Group) (s : State) (m : Mods) (accs : List LaneAcc)
    (vals : List Nat) : Eff :=
  let qs := unchannel vals
  let same := decide (qs.map (fun q => (q.1, q.2.1)) = accs.map (fun a => (a.lane, a.va.toNat)))
  if !same then .fault { code := 0x1A, datum := 1, lanes := c.lanes, faddr := (accs.map (·.va)).headD 0 } s else
  let s := takeChannel s t g.id
  let size := (x.size m).getD 1
  let accs' := accs.zip qs |>.map (fun (p : LaneAcc × (Nat × Nat × Nat × Nat × Nat)) =>
    if p.2.2.2.1 = 0 then { p.1 with st := .bound, data := bytesLE size p.2.2.2.2.2 }
    else { p.1 with st := .faulted p.2.2.2.1 p.2.2.2.2.1 })
  let s := s.onCur c (fun g => accs'.foldl (fun (g : Group) a =>
    if a.st = .bound then g.bindLane x.kind x.tag (x.regs m) a.lane a.reg a.data else g) g)
  match memFaultInfo (if x.uniform then some c.lanes else none) accs' with
  | some f => .fault f s
  | none => .ok s

/-- First issue of a memory word. -/
def Access.start (x : Access) (c : Cur) (t : Team) (g : Group) (run : Run) (s : State) : Eff :=
  let m := x.mods g run
  let lanes := if x.uniform then (lanesOf c.lanes).take 1 else lanesOf c.lanes
  let (inj, ej) := if x.kind.isStore then g.dataInjection t.copy (lanesOf c.lanes) else (none, g.errinj)
  let flip (sh : Bool) (l : Nat) (bs : List Byte) : List Byte := match inj with
    | some (k, side, bit) => if (x.uniform || k == l) && side == sh then flipData bit bs else bs
    | none => bs
  let dat (l : Nat) : List Byte := flip false l (x.data g run m g.rf l)
  let dats (l : Nat) : List Byte := match g.sh with | some sh => flip true l (x.data g run m sh l) | none => dat l
  let (replay, t1) := if x.kind.isAtomic then t.replayLog g.id c.addr (if x.kind.returns then logAtom else logAtomn) else (none, t)
  let logged := match replay with | some e => e.olds | none => []
  let full := replay.isSome && lanes.all (fun l => logged.any (fun o => o.1 == l))
  let s0 := (s.putTeam c.team t1).onCur c (fun g => { g with errinj := ej })
  match x.pairDiff g run m dat dats lanes with
  | some f => .fault f s0
  | none =>
    if x.kind.isAtomic && m.use == 2 && lanes.any (fun l => 1 < x.dataTag g l) then
      .fault { code := 0x03, lanes := c.lanes } s0 else
    if x.kind.isStore && m.space == .drawer && !t.levels.isEmpty then
      .fault { code := 0x03, datum := 0x80, lanes := c.lanes } s0 else
    let follows := t.copy == .trailing && m.space.shared && x.kind != .probe && x.kind != .pref && !full
    let leads := t.copy == .leading && m.space.shared && (x.kind.returns && x.kind != .probe) && !full
    let accs := (x.accs t g run m lanes dat (!follows)).map (fun (a : LaneAcc) =>
      match logged.find? (fun o => o.1 == a.lane) with
      | some o => { a with st := .bound, data := bytesLE ((x.size m).getD 4) o.2 }
      | none => a)
    let head := if follows then channelHead s t g.id else none
    let mem (accs : List LaneAcc) (lead : Option Nat) : MemOp :=
      { kind := x.kind, space := m.space, mods := m, bytes := (x.size m).getD 1, tag := x.tag, regs := x.regs m, accs := accs,
        posted := false, lead := lead, loose := false }
    let body (accs : List LaneAcc) (lead : Option Nat) : OpBody := .mem (mem accs lead)
    if !follows && !requestRoom s g.core (mem accs none) then .stay s else
    if leads && decide (512 ≤ (t.cmp.values.filter (fun v => v.1 == g.id)).length) then .stay s else
    if follows && !x.kind.isStore then
      match head with
      | some (1 :: vals) => x.follow c t g s m accs vals
      | some (2 :: _ :: vals) => x.follow c t g s m accs vals
      | some (0 :: _) => .stay s
      | some _ => .fault { code := 0x1A, datum := 2, lanes := c.lanes } s
      | none => .stay s
    else if follows && !x.kind.returns && (leadFault s t c).isNone && decide (leadSent s t g.id ≤ t.eventsSent g.id) then .stay s
    else if follows && x.kind.returns && (match head with | some (1 :: _) => false | some (2 :: _) => false | _ => true) then .stay s
    else
      let old := match head with
        | some (1 :: v) => v
        | some (2 :: _ :: v) => v
        | some (3 :: _) => (leadFault s t c).getD []
        | _ => []
      let qs := unchannel old
      let accs := if follows then accs.map (fun (a : LaneAcc) => match qs.find? (fun q => q.1 == a.lane) with
          | some q => if q.2.2.1 ≠ 0 then { a with st := .faulted q.2.2.1 q.2.2.2.1 } else a
          | none => a) else accs
      let takes := follows && (x.kind.returns || !qs.isEmpty)
      let lead := if follows && x.kind.returns then (match head with | some (2 :: k :: _) => some k | _ => none) else none
      let s := if takes then takeChannel s0 t g.id else s0
      let (id, s) := if x.kind = .pref then s.newOp c none (body accs none) else s.longOp c run x.kind.returns (body accs lead)
      let s := if leads then s.onTeam t.id (fun t => { t with cmp := { t.cmp with values := t.cmp.values ++ [(g.id, [0, id])] } }) else s
      if x.kind = .pref then .ok s else
      let s := if x.kind.returns then s.onCur c (fun g => (accs.filter (fun a => a.st == .bound)).foldl
        (fun (g : Group) a => g.bindLane x.kind x.tag (x.regs m) a.lane a.reg a.data) g) else s
      let room := if x.kind.isAtomic && replay.isNone && accs.any (fun a => !a.st.ended) then
          s.logOnce c (some (if x.kind.returns then logAtom else logAtomn)) (if x.kind.returns then lanes.length else 0)
        else some s
      let zs := if x.kind.isStore && m.space == .tile then
          ((accs.filter (fun a => a.st == .ready)).map (fun a => a.pa / 2 ^ 15)).eraseDups else []
      if zs.any (fun z => t.halves.any (t.tileUnsaved z) && tileWaits s0 t z s0.opCtr) then .stay s0 else
      let room := room.bind (fun s => match s.teams.find c.team with
        | some t => (saveTiles s t zs).map (fun t => s.putTeam c.team t)
        | none => some s)
      match room.bind (fun s => keepWrites (x.uses c g run) c g (s.onRun c (fun r => { r with op := some id }))) with
      | none => .fault { code := 0x1C, datum := 2, lanes := c.lanes } s0
      | some s =>
        if x.kind = .probe ∧ !accs.any (fun a => a.st.ended) then .ok s else
        if accs.any (fun a => a.st == .walk) then .stay (s.setWait c (.translate id)) else
        match s.ops.find id, s.teams.find c.team with
        | some o, some t => (match o.body with | .mem m => x.go c t g s o m | _ => .ok s)
        | _, _ => .ok s

/-- A memory word: its first issue, or its going on after translation, a park or a stall. -/
def Access.own (x : Access) (c : Cur) (g : Group) (run : Run) (s : State) : Eff :=
  match s.teams.find c.team with
  | none => .ok s
  | some t =>
    match run.op with
    | none => x.start c t g run s
    | some id =>
      match s.ops.find id with
      | some o => (match o.body with
          | .mem m => if m.accs.any (fun a => a.st == .walk) then .stay (s.setWait c (.translate id)) else x.go c t g s o m
          | _ => .ok s)
      | none => .ok s

/-- Issue of a memory word. -/
def memWord (x : Access) (s : State) : Host.Outcome State Fault Refusal := issueD x.uses x.own s

/-! ## LD, ST, LDS, STS (R222), uniform accesses (R225), PREF (R247), PROBE (R250), atomics (R298) -/

/-- LD (R223). -/
def execLd (t : BitVec 4) (wt : BitVec 2) (d a : BitVec 8) (p : BitVec 4) (s : State) : Host.Outcome State Fault Refusal :=
  memWord { kind := .load, tag := t.toNat, wid := some wt.toNat, d := d.toNat, a := a.toNat, p := p.toNat } s
/-- ST (R223). -/
def execSt (t : BitVec 4) (wt : BitVec 2) (d a : BitVec 8) (p : BitVec 4) (s : State) : Host.Outcome State Fault Refusal :=
  memWord { kind := .store, tag := t.toNat, wid := some wt.toNat, d := d.toNat, a := a.toNat, p := p.toNat } s
/-- LDS (R223). -/
def execLds (t : BitVec 4) (wt : BitVec 2) (d a : BitVec 8) (p : BitVec 4) (s : State) : Host.Outcome State Fault Refusal :=
  memWord { kind := .load, window := true, tag := t.toNat, wid := some wt.toNat, d := d.toNat, a := a.toNat, p := p.toNat } s
/-- STS (R223). -/
def execSts (t : BitVec 4) (wt : BitVec 2) (d a : BitVec 8) (p : BitVec 4) (s : State) : Host.Outcome State Fault Refusal :=
  memWord { kind := .store, window := true, tag := t.toNat, wid := some wt.toNat, d := d.toNat, a := a.toNat, p := p.toNat } s
/-- LDU (R225). -/
def execLdu (d : BitVec 9) (p : BitVec 4) (s : State) : Host.Outcome State Fault Refusal :=
  memWord { kind := .loadU, d := d.toNat, p := p.toNat } s
/-- STU (R225). -/
def execStu (d : BitVec 9) (p : BitVec 4) (s : State) : Host.Outcome State Fault Refusal :=
  memWord { kind := .storeU, d := d.toNat, p := p.toNat } s
/-- LDSU (R225). -/
def execLdsu (d : BitVec 9) (p : BitVec 4) (s : State) : Host.Outcome State Fault Refusal :=
  memWord { kind := .loadU, window := true, d := d.toNat, p := p.toNat } s
/-- STSU (R225). -/
def execStsu (d : BitVec 9) (p : BitVec 4) (s : State) : Host.Outcome State Fault Refusal :=
  memWord { kind := .storeU, window := true, d := d.toNat, p := p.toNat } s
/-- PREF (R247); T says which caches are asked. -/
def execPref (t : BitVec 2) (a : BitVec 8) (p : BitVec 4) (s : State) : Host.Outcome State Fault Refusal :=
  memWord { kind := .pref, tag := t.toNat, a := a.toNat, p := p.toNat } s
/-- PROBE (R250). -/
def execProbe (d a : BitVec 8) (p : BitVec 4) (s : State) : Host.Outcome State Fault Refusal :=
  memWord { kind := .probe, tag := 1, d := d.toNat, a := a.toNat, p := p.toNat } s
/-- ATOM (R300). -/
def execAtom (o : BitVec 4) (wt : BitVec 2) (d a : BitVec 8) (p : BitVec 4) (s : State) : Host.Outcome State Fault Refusal :=
  memWord { kind := .atom o.toNat, wid := some wt.toNat, d := d.toNat, a := a.toNat, p := p.toNat } s
/-- ATOMN (R300). -/
def execAtomn (o : BitVec 4) (wt : BitVec 2) (d a : BitVec 8) (p : BitVec 4) (s : State) : Host.Outcome State Fault Refusal :=
  memWord { kind := .atomn o.toNat, wid := some wt.toNat, d := d.toNat, a := a.toNat, p := p.toNat } s

/-! ## FENCE (R248), INVL1 (R249), INVPG (R251) -/

/-- FENCE (R248): an operation that is outstanding until its conditions hold; a relaxed one completes at issue. -/
def execFence (s : State) : Host.Outcome State Fault Refusal :=
  issueD (fun _ _ run => { mpfx := true, long := some false, bad := match run.mpfx with
      | some w => decide (natBits w.toNat 9 11 ≠ 0)
      | none => false })
    (fun c g run s =>
      let w := modWord g run
      if natBits w 23 3 = 0 then .ok s else .ok (s.longOp c run false (.fence (natBits w 23 3) (natBits w 20 3))).2) s

/-- The cores whose L1 portions serve a group: all eight of a fused cluster (R233). -/
def State.l1Cores (s : State) (core : Nat) : List Nat :=
  if core < 1792 ∧ (s.cluster (core / 8)).fused then (List.range 8).map (core / 8 * 8 + ·) else [core]

/-- Drops L1 lines of a core that a predicate picks. -/
def State.dropL1 (s : State) (core : Nat) (p : L1Line → Bool) : State :=
  let c := s.core core
  s.putCore core { c with l1 := c.l1.filter (fun l => !p l) }

/-- Drops every line of the L1s that serve a core, sealed lines excepted (R249, R407). -/
def State.invalidateL1 (s : State) (core : Nat) : State :=
  (s.l1Cores core).foldl (fun s k => s.dropL1 k (fun l => !l.sealed)) s

/-- INVL1 (R249): the sets are cleared at issue, and it completes after 64 clocks. -/
def execInvl1 (s : State) : Host.Outcome State Fault Refusal :=
  issue { role := .vector, long := some false } (fun c g run s =>
    .ok ((s.invalidateL1 g.core).longOp c run false (.at (s.clock + 64))).2) s

/-- INVPG (R251): OPERAND for a bad kind word at step 7; it completes when the sweep is done. -/
def execInvpg (a b : BitVec 8) (s : State) : Host.Outcome State Fault Refusal :=
  issue { priv := true, role := .vector, sr := [(a.toNat, 2), (b.toNat, 1)], bad := odd a, long := some false } (fun c g run s =>
    let w := (g.rf.S b.toNat).toNat
    if natBits w 10 22 ≠ 0 ∨ natBits w 6 2 ≠ 0 then .fault { code := 0x03, lanes := c.lanes } s
    else .ok (s.longOp c run false (.invpg (natBits w 8 2) (natBits w 0 6) (g.rf.S64 a.toNat) none 0)).2) s

end Sys2Proof.Machine
end

