-- ==== Sys2Proof/Machine/Slices.lean ====
section
/-! DEFINITION. The words of the slice engine (R287 to R315): conditional multi-line stores, sealing and write-once
buffers, discard and flush, the definition and change of virtual caches, and what the slices do to complete them. -/

namespace Sys2Proof.Machine

/-! ## Ranges -/

/-- The pages that a range covers, each with its leaf, or what stops the translation. -/
inductive Cover where
  | ok (ps : List (Leaf × Piece))
  | page (va : DWord) (entry : Nat)
  | fault (code datum : Nat) (va : DWord)

/-- Walks every page of a range in ascending order (R306, R311). -/
def cover (s : State) (ctx : Nat) (need : Need) : Nat → Nat → Nat → Cover
  | 0, _, _ => .ok []
  | n + 1, va, len =>
    if len = 0 then .ok [] else
    match walk s ctx (BitVec.ofNat 64 va) need with
    | .page e => .page (BitVec.ofNat 64 va) e
    | .fault c d => .fault c d (BitVec.ofNat 64 va)
    | .ok l =>
      let size := min len (l.size - va % l.size)
      match cover s ctx need n (va + size) (len - size) with
      | .ok ps => .ok ((l, { va := va, pa := l.pa, size := size, vc := l.vc, lclass := l.lclass, psize := l.size }) :: ps)
      | c => c

/-- Pages a range can touch. -/
def coverFuel (len : Nat) : Nat := len / 65536 + 2

def Piece.has (p : Piece) (pa : Nat) : Bool := decide (p.pa ≤ pa) && decide (pa < p.pa + p.size)

def inPieces (ps : List Piece) (pa : Nat) : Bool := ps.any (fun p => p.has pa)

/-- Home sectors of the pieces, each under the VC of its piece. -/
def pieceKeys (s : State) (ps : List Piece) : List Nat :=
  (s.homes.filter (fun e => ps.any (fun p => e.1 / 2 ^ 34 == p.vc && p.has (e.1 % 2 ^ 34 * 64)))).map (·.1)

/-- A sector that a team other than the given one wrote inside a level (R70), or that still waits for the fill behind a
partial write (R236). -/
def keyHeld (s : State) (team key : Nat) : Bool :=
  match s.homes.find key with
  | some x => (match x.st with
    | .prov t _ => t != team
    | .pending m => m != 0
    | _ => false)
  | none => false

/-- Translations that overlap a virtual range of a context leave every place that keeps them, and so do the pointers to tables that
the range goes through (R251). -/
def State.dropTlb (s : State) (ctx va len : Nat) : State :=
  s.dropCached (fun e => overlaps ctx va len e.ctx e.base e.size) (fun p => overlaps ctx va len p.ctx p.base p.size)

/-- L1 lines of a physical range that a predicate picks leave every L1 of the module. -/
def State.dropL1Range (s : State) (ps : List Piece) (p : L1Line → Bool) : State :=
  { s with cores := s.cores.map (fun c => (c.1, { c.2 with l1 := c.2.l1.filter (fun l =>
      !(p l && ps.any (fun x => decide (x.pa < l.line * 256 + 256) && decide (l.line * 256 < x.pa + x.size)))) })) }

/-- Reservations on lines that overlap the pieces are lost (R303). -/
def State.loseResv (s : State) (ps : List Piece) : State :=
  s.allGroups (fun _ g => { g with resv := g.resv.map (fun (r : Resv) =>
    let n := match s.vcs.find r.vc with | some v => lineBytes v.lsize | none => 64
    if ps.any (fun x => x.vc == r.vc && decide (x.pa < r.line * n + n) && decide (r.line * n < x.pa + x.size)) then
      { r with lost := true } else r) })

/-! ## Splinters and leaf rewrites (R242, R238) -/

/-- Replaces a large leaf by a table of the next level from the splinter pool; none when the pool is empty. -/
def splinter (s : State) (ctx : Nat) (l : Leaf) : Option State :=
  let c := s.ctx ctx
  if c.splcount = 0 then none else
  let block := c.splbase + 4096 * (c.splcount - 1)
  let size := if l.size = 2 ^ 30 then 2 ^ 21 else 2 ^ 16
  let s := s.putCtx ctx { c with splcount := c.splcount - 1 }
  let s := engineWrite s c.phvc block ((List.range (l.size / size)).flatMap (fun i => bytesLE 8 (l.pte + i * size)))
  let s := engineWrite s c.phvc l.at? (bytesLE 8 (block + 1))
  some (s.dropTlb ctx l.base l.size)

/-- Splinters that a range needs: every large page it covers only in part, down to the level where its ends fall between
pages. -/
def splintersOf (ps : List (Leaf × Piece)) : Nat :=
  ps.foldl (fun n x =>
    if x.1.size = 2 ^ 16 ∨ x.2.size = x.1.size then n
    else if x.1.size = 2 ^ 21 then n + 1
    else
      let lo := x.2.va
      let hi := x.2.va + x.2.size
      let ends := (if lo % 2 ^ 21 = 0 then [] else [lo / 2 ^ 21]) ++ (if hi % 2 ^ 21 = 0 then [] else [hi / 2 ^ 21])
      n + 1 + ends.eraseDups.length) 0

/-- Splinters the pages of a virtual range that it covers only in part; none when the pool runs out. -/
def splitRange (s : State) (ctx : Nat) : Nat → Nat → Nat → Option State
  | 0, _, _ => some s
  | n + 1, va, len =>
    if len = 0 then some s else
    match walk s ctx (BitVec.ofNat 64 va) .any with
    | .ok l =>
      let size := min len (l.size - va % l.size)
      if l.size = 2 ^ 16 ∨ size = l.size then splitRange s ctx n (va + size) (len - size)
      else match splinter s ctx l with
        | some s => splitRange s ctx n va len
        | none => none
    | _ => some s

/-- Rewrites every leaf of a virtual range by one 64-bit write each; a leaf that the function leaves alone is not written. -/
def rewriteLeaves (s : State) (ctx : Nat) (f : Nat → Nat) : Nat → Nat → Nat → State
  | 0, _, _ => s
  | n + 1, va, len =>
    if len = 0 then s else
    match walk s ctx (BitVec.ofNat 64 va) .any with
    | .ok l =>
      let size := min len (l.size - va % l.size)
      let s := if f l.pte = l.pte then s else engineWrite s (s.ctx ctx).phvc l.at? (bytesLE 8 (f l.pte))
      rewriteLeaves s ctx f n (va + size) (len - size)
    | _ => rewriteLeaves s ctx f n (va + min len 65536) (len - min len 65536)

/-- A leaf with its SEALED bit set or cleared. -/
def withSeal (on : Bool) (e : Nat) : Nat :=
  if natBit e 7 then (if on then e else e - 128) else (if on then e + 128 else e)

/-- A leaf that names another VC. -/
def withVc (vc e : Nat) : Nat := e % 2 ^ 56 + vc * 2 ^ 56

/-- The virtual range of pieces. -/
def piecesVa (ps : List Piece) : Nat × Nat := ((ps.map (·.va)).headD 0, ps.foldl (fun n p => n + p.size) 0)

/-! ## Operands of the words -/

/-- OPERAND of a word issued inside an open level (R314). -/
def inLevel (c : Cur) (s : State) (own : Eff) : Eff :=
  if s.levelOpen c then .fault { code := 0x03, datum := 0x43, lanes := c.lanes } s else own

/-- A range overlaps a live write-once buffer of the context (R306). -/
def overlapsWob (s : State) (ctx va len : Nat) : Bool :=
  s.wobs.any (fun w => w.2.live && w.2.ctx == ctx && decide (w.2.va < va + len) && decide (va < w.2.va + w.2.len))

/-- Whether the tables that the walks of a range read are at hand (R286). -/
def wakeRange (s : State) (ctx : Nat) : Nat → Nat → Nat → Bool × State
  | 0, _, _ => (true, s)
  | n + 1, va, len =>
    if len = 0 then (true, s) else
    match s.wakeWalk ctx (BitVec.ofNat 64 va) with
    | (false, s) => (false, s)
    | (true, s) =>
      match walk s ctx (BitVec.ofNat 64 va) .any with
      | .ok l =>
        let size := min len (l.size - va % l.size)
        wakeRange s ctx n (va + size) (len - size)
      | _ => (true, s)

/-- A translation that ends in a park, a fault, or pages that a word goes on with. -/
def withCover (c : Cur) (g : Group) (run : Run) (t : Team) (s : State) (need : Need) (va len : Nat)
    (own : State → List (Leaf × Piece) → Shared) : Shared :=
  match wakeRange s t.ctx (coverFuel len) va len with
  | (false, s) => .hold s
  | (true, s) =>
  match cover s t.ctx need (coverFuel len) va len with
  | .page a e => .hold (parkWord c t g run s a e)
  | .fault code d a => .fault { code := code, datum := d, lanes := c.lanes, faddr := a } s
  | .ok ps => own s ps

/-- The pool holds the splinters that a range needs; if not, PROT with datum 2, posted as well (R242). -/
def withPool (c : Cur) (g : Group) (t : Team) (s : State) (va : Nat) (ps : List (Leaf × Piece)) (own : Shared) : Shared :=
  if splintersOf ps ≤ (s.ctx t.ctx).splcount then own else
    let f : FaultInfo := { code := 0x11, datum := 2, lanes := c.lanes, faddr := BitVec.ofNat 64 va }
    .fault f (postTeam s t 1 (faultRecord g c true f))

/-- The pool has run out when an operation comes to its splinters: PROT with datum 2, posted as well, and the operation is over
(R242). -/
def poolEmpty (s : State) (t : Team) (g : Group) (o : Op) (va : Nat) : State :=
  let f : FaultInfo := { code := 0x11, datum := 2, lanes := o.lanes, faddr := BitVec.ofNat 64 va }
  let r : Record := { code := 0x11, kind := 0, inrun := true, replay := false, sysmode := g.sysmode, double := false,
                      group := g.id, num := 2, iaddr := o.iaddr, lanes := o.lanes, faddr := f.faddr }
  (takeLate (postTeam s t 1 r) o f).completeOp o.id

/-! ## CMLR, CMLS (R302 to R305) -/

/-- The n addresses of a CMLR or CMLS. -/
def cmlAddrs (g : Group) (a n : Nat) : List DWord := (List.range n).map (fun i => g.rf.S64 (a + 2 * i))

/-- The lines that the addresses name under their VCs: the sector's piece and its line. -/
def lineKey (s : State) (p : Piece) : Nat × Nat :=
  match s.vcs.find p.vc with
  | some v => (p.vc, p.pa / lineBytes v.lsize)
  | none => (p.vc, p.pa / 64)

/-- Translates the n addresses in order (R302). -/
def cmlCover (s : State) (ctx : Nat) (need : Need) : List DWord → Cover
  | [] => .ok []
  | a :: as =>
    match walk s ctx a need with
    | .page e => .page a e
    | .fault c d => .fault c d a
    | .ok l =>
      match cmlCover s ctx need as with
      | .ok ps => .ok ((l, { va := a.toNat, pa := l.pa, size := 64, vc := l.vc, lclass := l.lclass,
                                psize := l.size }) :: ps)
      | x => x

/-- The part that CMLR and CMLS share: alignment, translation, distinct lines. -/
def cmlWord (c : Cur) (g : Group) (run : Run) (x : Once) (need : Need) (as : List DWord) (body : List Piece → OpBody)
    (s : State) : Eff :=
  match as.find? (fun a => a.toNat % 64 != 0) with
  | some a => .fault { code := 0x08, lanes := c.lanes, faddr := a } s
  | none =>
    match as.find? (fun a => !canonical a) with
    | some a => .fault { code := 0x11, lanes := c.lanes, faddr := a } s
    | none =>
      onceWord c g run x (fun t s =>
        match as.foldl (fun (x : Bool × State) a => let y := x.2.wakeWalk t.ctx a; (x.1 && y.1, y.2)) (true, s) with
        | (false, s) => .hold s
        | (true, s) =>
        match cmlCover s t.ctx need as with
        | .page a e => .hold (parkWord c t g run s a e)
        | .fault code d a => .fault { code := code, datum := d, lanes := c.lanes, faddr := a } s
        | .ok ps =>
          let ls := ps.map (fun p => lineKey s p.2)
          if ls.eraseDups.length ≠ ls.length then .fault { code := 0x03, datum := 0x44, lanes := c.lanes } s
          else .go (body (ps.map (·.2))) s) s

/-- CMLR (R303). -/
def execCmlr (a : BitVec 8) (n : BitVec 2) (s : State) : Host.Outcome State Fault Refusal :=
  issue { role := .copyVector, sr := [(a.toNat, 2 * (n.toNat + 1))], bad := odd a, pair := true, long := some false }
    (fun c g run s =>
      let as := cmlAddrs g a.toNat (n.toNat + 1)
      cmlWord c g run { words := as.map (·.toNat), faddr := as.headD 0 } .load as .cmlr s) s

/-- CMLS (R304): the source lies in one attached slot. -/
def execCmls (d a : BitVec 8) (n : BitVec 2) (s : State) : Host.Outcome State Fault Refusal :=
  issue { role := .copyVector, sr := [(a.toNat, 2 * (n.toNat + 1) + 1)], sw := [(d.toNat, 1)], bad := odd a, pair := true,
          long := some true }
    (fun c g run s =>
      let k := n.toNat + 1
      let as := cmlAddrs g a.toNat k
      let src := (g.rf.S (a.toNat + 2 * k)).toNat
      let slot? := match s.teams.find c.team with | some t => t.slot (src / 32768) | none => .detached
      let x : Once := { fa := true, d := d.toNat, words := src :: as.map (·.toNat), faddr := as.headD 0 }
      if src % 64 ≠ 0 then .fault { code := 0x08, lanes := c.lanes, faddr := BitVec.ofNat 64 src } s else
      if as.any (fun a => a.toNat % 64 != 0) then cmlWord c g run x .store as (.cmls d.toNat src) s else
      if 2 ^ 19 ≤ src then .fault { code := 0x11, lanes := c.lanes, faddr := BitVec.ofNat 64 src } s else
      if as.any (fun a => !canonical a) then cmlWord c g run x .store as (.cmls d.toNat src) s else
      match slot? with
      | .attached _ =>
        if 32768 < src % 32768 + 64 * k then
          .fault { code := 0x13, datum := src / 32768, lanes := c.lanes, faddr := BitVec.ofNat 64 src } s
        else cmlWord c g run x .store as (.cmls d.toNat src) s
      | _ => .fault { code := 0x13, datum := src / 32768, lanes := c.lanes, faddr := BitVec.ofNat 64 src } s) s

/-- Of the reservations of one slice beyond its 256 the oldest is lost (R303). -/
def capResv (s : State) (slice : Nat) : State :=
  let at? (r : Resv) : Bool := !r.lost && (match s.vcs.find r.vc with
    | some v => v.slice (r.line * lineBytes v.lsize) == slice
    | none => false)
  let all : List (Nat × Nat × Resv × Nat) := s.teams.flatMap (fun t => t.2.groups.flatMap (fun g =>
    (g.resv.zipIdx.filter (fun r => at? r.1)).map (fun r => (t.1, g.id, r))))
  match all with
  | [] => s
  | x :: xs =>
    if all.length ≤ 256 then s else
    let old := xs.foldl (fun (a y : Nat × Nat × Resv × Nat) => if y.2.2.1.due < a.2.2.1.due then y else a) x
    s.onGroup old.1 old.2.1 (fun g => { g with resv := g.resv.zipIdx.map (fun (r : Resv × Nat) =>
      if r.2 = old.2.2.2 then { r.1 with lost := true } else r.1) })

/-- CMLR at its slices, after the group's older acquires: the group's previous set goes, the lines are reserved, and an acquire at
pkg scope is made. None while it waits. -/
def cmlrDone (s : State) (o : Op) (lines : List Piece) : Option State :=
  if acquiresOut s o.team o.group o.id then none else
  if lines.any (fun p => (s.vcs.find p.vc).isNone) then
    some ((takeLate s o { code := 0x11, datum := 0x50, lanes := o.lanes }).completeOp o.id) else
  let rs : List Resv := lines.map (fun p => { line := (lineKey s p).2, vc := p.vc, lost := false, due := s.clock + 65536 })
  let s := s.onGroup o.team o.group (fun g => { g with resv := rs, acqt := s.clock })
  let s := lines.foldl (fun s p => match s.vcs.find p.vc with | some v => capResv s (v.slice p.pa) | none => s) s
  some (finishOp s o.id [] 512)

/-- The bank that a slot of a team still reaches: attached, or draining for a give or a free (R66). -/
def Team.reaches (t : Team) (slot : Nat) : Option Nat :=
  match t.slot slot with
  | .attached b => some b
  | .leaving b => some b
  | _ => none

/-- Bytes of a bank of a team from a slot offset. -/
def slotBytes (s : State) (t : Team) (b off n : Nat) : List Byte :=
  Memory.readN ((s.cluster t.pool).bank b).mem n (off % 32768)

/-- Some 8-byte word of a bank's range is uncorrectable (R268, R285). -/
def bankBad (s : State) (pool b off n : Nat) : Bool :=
  ((s.cluster pool).bank b).bad.any (fun w => decide (off % 32768 / 8 ≤ w) && decide (w ≤ (off % 32768 + n - 1) / 8))

/-- Writes n sectors at one instant inside the team's open level. -/
def writeSectors (s : State) (team lvl : Nat) (ps : List (Piece × List Byte)) : HomeResult :=
  if ps.any (fun p => provBlocked s team (homeKey p.1.vc p.1.pa)) then .wait else
  ps.foldl (fun r p => match r with
    | .done s => homeWrite s team lvl p.1.vc (cellsAt p.1.pa p.2) 0
    | r => r) (.done s)

/-- CMLS at its slices (R304); none while it has to wait. -/
def cmlsDone (s : State) (o : Op) (d src : Nat) (lines : List Piece) : Option State :=
  match s.teams.find o.team, s.group? o.team o.group with
  | some t, some g =>
    if storesOut s g t.id o.id false true || heldOut s t g o.id true || acquiresOut s t.id g.id o.id then none else
    let named := lines.map (fun p => ((lineKey s p).2, p.vc))
    let finish (s : State) (v : Nat) : State :=
      finishOp (s.onGroup o.team o.group (fun g => { g with acqt := s.clock })) o.id [v] d
    if g.resv.map (fun r => (r.line, r.vc)) ≠ named then some (finish s 0x10) else
    let gone (r : Resv) : Bool := r.lost || decide (r.due ≤ s.clock)
    let lost := g.resv.zipIdx.foldl (fun n r => if gone r.1 then n + 2 ^ r.2 else n) 0
    let free (s : State) : State := s.onGroup o.team o.group (fun g => { g with resv := [] })
    if lost ≠ 0 then some (finish (free s) lost) else
    if !releaseDone s t g 4 o.id then none else
    if lines.any (fun p => (s.vcs.find p.vc).isNone) then
      some ((takeLate s o { code := 0x11, datum := 0x50, lanes := o.lanes }).completeOp o.id) else
    match t.reaches (src / 32768) with
    | some b =>
      let (here, s) := lines.foldl (fun (x : Bool × State) p => let y := x.2.wakeSlice p.vc p.pa; (x.1 && y.1, y.2)) (s.wakeBank t.pool b)
      if !here then some s else
      if bankBad s t.pool b src (64 * lines.length) then
        some ((takeLate s o { code := 0x17, datum := b, lanes := o.lanes, faddr := BitVec.ofNat 64 src }).completeOp o.id) else
      let s := s.correctBank t.pool b (src % 32768) (64 * lines.length)
      let bs := slotBytes s t b src (64 * lines.length)
      match writeSectors s t.id t.levels.length (lines.zipIdx.map (fun p => (p.1, (bs.drop (64 * p.2)).take 64))) with
      | .wait => none
      | .overflow => some ((takeLate s o { code := 0x1C, datum := 0, lanes := o.lanes }).completeOp o.id)
      | .done s => some (finish (free (lines.foldl (fun (s : State) p => hitRegions s t.ctx p.va p.size) s)) 0)
    | none => some ((takeLate s o { code := 0x13, datum := src / 32768, lanes := o.lanes }).completeOp o.id)
  | _, _ => some (s.completeOp o.id)

/-! ## SEAL, UNSEAL (R306 to R308) -/

/-- Length and alignment of a range in units of 64 KiB (R306): OPERAND, the write-once buffers, then ALIGN. -/
def sealRange (c : Cur) (s : State) (va len : Nat) (own : Eff) : Eff :=
  let ctx := match s.teams.find c.team with | some t => t.ctx | none => 0
  if len = 0 ∨ len % 65536 ≠ 0 then .fault { code := 0x03, lanes := c.lanes } s
  else if overlapsWob s ctx va len then .fault { code := 0x03, datum := 0x40, lanes := c.lanes } s
  else if va % 65536 ≠ 0 then .fault { code := 0x08, lanes := c.lanes, faddr := BitVec.ofNat 64 va } s
  else own

/-- SEAL and UNSEAL. -/
def sealWord (on : Bool) (a b : BitVec 8) (s : State) : Host.Outcome State Fault Refusal :=
  issue { role := .copyVector, sr := [(a.toNat, 2), (b.toNat, 1)], bad := odd a, pair := true, long := some false }
    (fun c g run s =>
      let va := (g.rf.S64 a.toNat).toNat
      let len := (g.rf.S b.toNat).toNat
      inLevel c s (sealRange c s va len
        (onceWord c g run { words := [va, len], faddr := BitVec.ofNat 64 va } (fun t s =>
          withCover c g run t s .both va len (fun s ps =>
            withPool c g t s va ps (.go (.seal (ps.map (·.2)) on none) s))) s))) s

/-- SEAL (R307). -/
def execSeal (a b : BitVec 8) (s : State) : Host.Outcome State Fault Refusal := sealWord true a b s

/-- UNSEAL (R308). -/
def execUnseal (a b : BitVec 8) (s : State) : Host.Outcome State Fault Refusal := sealWord false a b s

/-- Steps 2 to 4 of R307: splinters, rewritten leaves, invalidated translations; none when the pool ran out meanwhile. -/
def resealLeaves (s : State) (ctx : Nat) (ps : List Piece) (on : Bool) : Option State :=
  let (va, len) := piecesVa ps
  match splitRange s ctx (2 * coverFuel len + 8) va len with
  | none => none
  | some s => some ((rewriteLeaves s ctx (withSeal on) (coverFuel len) va len).dropTlb ctx va len)

/-- Step 5 of R307 and the sweep of R308: dirty sectors go out and present ones become sealed, or untracked L1 copies go
and sealed sectors become clean; none while a sector is held. -/
def resealSectors (s : State) (team : Nat) (ps : List Piece) (on : Bool) : Option State :=
  let ks := pieceKeys s ps
  if ks.any (keyHeld s team) then none else
  let s := if on then s else s.dropL1Range ps (·.sealed)
  some (ks.foldl (fun s k => match s.homes.find k with
    | some x =>
      let s := if on && x.st == .dirty then queueVcWrite s (k / 2 ^ 34) (sectorCells k x) x.poison else s
      let st : SectorState := match x.st with
        | .clean => if on then .sealed else .clean
        | .dirty => if on then .sealed else .dirty
        | .sealed => if on then .sealed else .clean
        | y => y
      { s with homes := s.homes.put k { x with st := st } }
    | none => s) s)

/-- What a SEAL or UNSEAL does next; none while it has to wait. A SEAL is a release first; both wait until what has been
translated with the old entries is performed. -/
def sealDone (s : State) (o : Op) (ps : List Piece) (on : Bool) (since : Option Nat) : Option State :=
  match s.teams.find o.team, s.group? o.team o.group with
  | some t, some g =>
    let (va, len) := piecesVa ps
    match since with
    | none =>
      if on && !releaseDone s t g 4 o.id then none else
      (match resealLeaves s t.ctx ps on with
      | some s => some (s.setBody o.id (.seal ps on (some s.opCtr)))
      | none => some (poolEmpty s t g o va))
    | some n =>
      if pageBusy s false n (overlaps t.ctx va len) then none
      else (resealSectors s t.id ps on).map (fun s => finishOp s o.id [] 512)
  | _, _ => some (s.completeOp o.id)

/-! ## WOBSEAL, WOBREL (R309, R310) -/

/-- WOBSEAL (R309). -/
def execWobseal (d a : BitVec 8) (s : State) : Host.Outcome State Fault Refusal :=
  issue { role := .copyVector, sr := [(a.toNat, 4)], sw := [(d.toNat, 1)], bad := odd a, pair := true, long := some true }
    (fun c g run s =>
      let va := (g.rf.S64 a.toNat).toNat
      let len := (g.rf.S (a.toNat + 2)).toNat
      let n := (g.rf.S (a.toNat + 3)).toNat
      inLevel c s (if n = 0 ∨ 65535 < n then .fault { code := 0x03, lanes := c.lanes } s else
        sealRange c s va len
          (onceWord c g run { fa := true, d := d.toNat, words := [va, len, n], faddr := BitVec.ofNat 64 va } (fun t s =>
            withCover c g run t s .both va len (fun s ps =>
              withPool c g t s va ps (.go (.wobseal d.toNat n none (ps.map (·.2)) none) s))) s))) s

/-- A free write-once buffer entry of a slice. -/
def freeWob (s : State) (slice : Nat) : Option Nat :=
  ((List.range 16).map (slice * 16 + ·)).find? (fun k => match s.wobs.find k with | some w => !w.live | none => true)

/-- The handle of a write-once buffer entry (R309). -/
def wobHandle (key gen : Nat) : Nat := key / 16 * 2 ^ 16 + gen % 256 * 2 ^ 8 + key % 16

/-- What a WOBSEAL does next; none while it has to wait. -/
def wobsealDone (s : State) (o : Op) (d n : Nat) (key : Option Nat) (ps : List Piece) (since : Option Nat) : Option State :=
  match s.teams.find o.team, s.group? o.team o.group with
  | some t, some g =>
    let (va, len) := piecesVa ps
    match since with
    | none =>
      if !releaseDone s t g 4 o.id then none else
      let slice := match ps with
        | p :: _ => (match s.vcs.find p.vc with | some v => v.slice p.pa | none => 0)
        | [] => 0
      (match freeWob s slice with
      | none => some (finishOp s o.id [0xFFFFFFFF] d)
      | some k =>
        match resealLeaves s t.ctx ps true with
        | none => some (poolEmpty s t g o va)
        | some s =>
          let gen := match s.wobs.find k with | some w => (w.gen + 1) % 256 | none => 0
          let s := { s with wobs := s.wobs.put k { gen := gen, live := true, ctx := t.ctx, va := va, len := len, count := n } }
          some (s.setBody o.id (.wobseal d n (some k) ps (some s.opCtr))))
    | some m =>
      if pageBusy s false m (overlaps t.ctx va len) then none
      else (resealSectors s t.id ps true).map (fun s =>
        let k := key.getD 0
        finishOp s o.id [wobHandle k (match s.wobs.find k with | some w => w.gen | none => 0)] d)
  | _, _ => some (s.completeOp o.id)

/-- WOBREL (R310). -/
def execWobrel (a : BitVec 8) (s : State) : Host.Outcome State Fault Refusal :=
  issue { role := .copyVector, sr := [(a.toNat, 1)], pair := true, long := some false } (fun c g run s =>
    let h := (g.rf.S a.toNat).toNat
    inLevel c s (onceWord c g run { words := [h] } (fun t s =>
      let key := natBits h 16 7 * 16 + natBits h 0 4
      let bad (d : Nat) : Shared := .fault { code := 0x11, datum := d, lanes := c.lanes } s
      match s.wobs.find key with
      | some w =>
        if natBits h 23 9 ≠ 0 ∨ natBits h 4 4 ≠ 0 ∨ !w.live ∨ w.gen ≠ natBits h 8 8 then bad 0x41
        else if w.ctx ≠ t.ctx then bad 0x42
        else .go (.wobrel key 0 0 []) s
      | none => bad 0x41) s)) s

/-! ## DISCARD, FLUSH (R311 to R313) -/

/-- The 4 KiB blocks of pieces. -/
def blocksOf (ps : List Piece) : List Nat :=
  (ps.flatMap (fun p => (List.range ((p.size + 4095) / 4096)).map (fun i => p.pa / 4096 + i))).eraseDups

/-- A fill of a block that is under way delivers nothing any more, and a write-back of it that has sent no slot is
cancelled (R312). -/
def cancelBlock (l : Link) (blk : Nat) : Link :=
  let fill (r : LinkRead) : Bool := r.block / 16 == blk && (match r.who with | .fill _ => true | _ => false)
  { l with reads := (l.reads.filter (fun r => !(fill r && r.left == 0))).map (fun (r : LinkRead) => if fill r then { r with mask := 0 } else r),
           sent := l.sent.map (fun (r : LinkRead) => if fill r then { r with mask := 0 } else r),
           writes := l.writes.filter (fun w => !(w.vc.isSome && w.done.isNone && !w.begun &&
             (match w.cells with | c :: _ => c.1 / 4096 == blk | [] => false))) }.rearm

/-- Steps 1 to 4 of R312: sectors and copies go, and the zero commands are queued in the link group of the issuing core's die (R460);
none while a sector is held. -/
def discardPieces (s : State) (team op die : Nat) (ps : List Piece) : Option State :=
  let ks := pieceKeys s ps
  if ks.any (fun k => match s.homes.find k with
    | some x => (match x.st with | .prov t _ => t != team | _ => false)
    | none => false) then none else
  let s := { s with homes := s.homes.filter (fun e => !ks.contains e.1) }
  let s := (s.dropL1Range ps (fun _ => true)).loseResv ps
  some ((blocksOf ps).foldl (fun (s : State) b =>
    let s := { s with links := s.links.map (fun (l : Nat × Link) => (l.1, cancelBlock l.2 b)) }
    let l : Link := s.link die
    s.putLink die { l with zeros := l.zeros ++ [{ block := b, op := op, due := s.nextSlot, sentAt := none }] }) s)

/-- Some zero command of an operation has not been confirmed yet. -/
def zerosOut (s : State) (op : Nat) : Bool := s.links.any (fun l => l.2.zeros.any (fun z => z.op == op))

/-- DISCARD and FLUSH. -/
def sweepWord (disc : Bool) (a b : BitVec 8) (s : State) : Host.Outcome State Fault Refusal :=
  issue { role := .copyVector, sr := [(a.toNat, 2), (b.toNat, 1)], bad := odd a, pair := true, long := some false }
    (fun c g run s =>
      let va := (g.rf.S64 a.toNat).toNat
      let len := (g.rf.S b.toNat).toNat
      let unit := if disc then 4096 else 64
      let own : Eff :=
        if len = 0 then .fault { code := 0x03, lanes := c.lanes } s
        else if va % unit ≠ 0 ∨ len % unit ≠ 0 then .fault { code := 0x08, lanes := c.lanes, faddr := BitVec.ofNat 64 va } s
        else onceWord c g run { words := [va, len], faddr := BitVec.ofNat 64 va } (fun t s =>
          withCover c g run t s (if disc then .store else .load) va len (fun s ps =>
            match ps.find? (fun p => decide (2 ^ 40 ≤ p.2.pa)) with
            | some p =>
              if disc then .fault { code := 0x11, datum := 0x45, lanes := c.lanes, faddr := BitVec.ofNat 64 p.2.va } s
              else .go (.flush ((ps.map (·.2)).filter (fun p => decide (p.pa < 2 ^ 40))) false) s
            | none => if disc then .go (.discard (ps.map (·.2)) false) s else .go (.flush (ps.map (·.2)) false) s)) s
      if disc then inLevel c s own else own) s

/-- DISCARD (R312). -/
def execDiscard (a b : BitVec 8) (s : State) : Host.Outcome State Fault Refusal := sweepWord true a b s

/-- FLUSH (R313). -/
def execFlush (a b : BitVec 8) (s : State) : Host.Outcome State Fault Refusal := sweepWord false a b s

/-- What a DISCARD does next; none while it has to wait. -/
def discardDone (s : State) (o : Op) (ps : List Piece) (sent : Bool) : Option State :=
  match s.teams.find o.team, s.group? o.team o.group with
  | some t, some g =>
    if sent then (if zerosOut s o.id then none else some (finishOp s o.id [] 512))
    else if !releaseDone s t g 4 o.id then none
    else (discardPieces s t.id o.id t.die ps).map (fun s => s.setBody o.id (.discard ps true))
  | _, _ => some (s.completeOp o.id)

/-- What a FLUSH does next: dirty sectors go out with the operation as waiter and stay as clean, and it ends when the drawer has
acknowledged every write of the range, those that were on their way before among them (R55); none while it waits. -/
def flushDone (s : State) (o : Op) (ps : List Piece) (sent : Bool) : Option State :=
  match s.teams.find o.team, s.group? o.team o.group with
  | some t, some g =>
    if sent then
      (if s.links.any (fun l => (l.2.writes ++ l.2.unacked).any (fun w => w.waiter == some o.id ||
          (w.vc.isSome && w.cells.any (fun c => ps.any (fun p => w.vc == some p.vc && p.has c.1))))) then none
       else some (finishOp s o.id [] 512))
    else
    let ks := pieceKeys s ps
    if !releaseDone s t g 4 o.id || ks.any (keyHeld s t.id) then none else
    let s := ks.foldl (fun s k => match s.homes.find k, s.vcs.find (k / 2 ^ 34) with
      | some x, some v => if x.st ≠ .dirty then s else
          let s := queueWrite s (s.homeDie (k / 2 ^ 34) (k % 2 ^ 34 * 64)) v.lclass (sectorCells k x) (some (k / 2 ^ 34))
            x.poison (some o.id)
          { s with homes := s.homes.put k { x with st := .clean } }
      | _, _ => s) s
    some (s.setBody o.id (.flush ps true))
  | _, _ => some (s.completeOp o.id)

/-- What a WOBREL does next (R310): the group's older loads; the count; and with the last one a release, UNSEAL and DISCARD of the
range. None while it waits; it waits for an invalid entry of the range to be made valid. -/
def wobrelDone (s : State) (o : Op) (key phase since : Nat) (ps : List Piece) : Option State :=
  match s.teams.find o.team, s.group? o.team o.group, s.wobs.find key with
  | some t, some g, some w =>
    match phase with
    | 0 =>
      if loadsOut s o.team o.group o.id true then none else
      if 1 < w.count then
        some (finishOp { s with wobs := s.wobs.put key { w with count := w.count - 1 } } o.id [] 512)
      else some ({ s with wobs := s.wobs.put key { w with count := 0 } }.setBody o.id (.wobrel key 1 0 []))
    | 1 =>
      if !releaseDone s t g 4 o.id then none else
      (match cover s w.ctx .any (coverFuel w.len) w.va w.len with
      | .page _ _ => none
      | .fault code d va => some ((takeLate s o { code := code, datum := d, lanes := o.lanes, faddr := va }).completeOp o.id)
      | .ok ps =>
        let ps := ps.map (·.2)
        match resealLeaves s w.ctx ps false with
        | some s => some (s.setBody o.id (.wobrel key 2 s.opCtr ps))
        | none => some (poolEmpty s t g o w.va))
    | 2 =>
      if pageBusy s false since (overlaps w.ctx w.va w.len) then none else
      (discardPieces (s.dropL1Range ps (·.sealed)) t.id o.id t.die ps).map (fun s => s.setBody o.id (.wobrel key 3 since ps))
    | _ =>
      if zerosOut s o.id then none else
      some (finishOp { s with wobs := s.wobs.put key { w with live := false } } o.id [] 512)
  | _, _, _ => some (s.completeOp o.id)

/-! ## Cache definition records (R288, R289) -/

/-- Little-endian field of a record's bytes. -/
def field (bs : List Byte) (off n : Nat) : Nat := leVal ((bs.drop off).take n)

/-- The first bad field of a CDR: its byte offset. -/
def cdrBad (bs : List Byte) (resize : Bool) : Option Nat :=
  let b (i : Nat) := field bs i 1
  let n := b 5
  let ent (i : Nat) := field bs (0x10 + 4 * i) 4
  let kind0 := natBits (ent 0) 3 2
  if natBits (b 1) 6 2 ≠ 0 then some 1
  else if natBits (b 2) 0 2 = 3 ∨ natBits (b 2) 2 2 ≠ 0 then some 2
  else if natBits (b 3) 0 2 = 3 ∨ natBits (b 3) 2 2 = 3 ∨ natBits (b 3) 4 4 ≠ 0 then some 3
  else if natBits (b 4) 6 2 ≠ 0 then some 4
  else if 12 < n ∨ (resize ∧ n = 0) then some 5
  else if ((bs.drop 6).take 10).any (· != 0) then some 6
  else
    ((List.range 12).find? (fun i =>
      let e := ent i
      if n ≤ i then e != 0 else
      natBits e 0 3 != 0 || natBits e 3 2 == 3 || ((natBits e 3 2 == 0) != (kind0 == 0)) ||
      natBits e 5 12 == 0 || natBits e 17 8 == 0 || decide (128 < natBits e 25 7 + natBits e 17 8))).map (0x10 + 4 * ·)

/-- The shares of a CDR in the order of R290. -/
def cdrShares (bs : List Byte) : List Nat :=
  (List.range (field bs 5 1)).flatMap (fun i =>
    let e := field bs (0x10 + 4 * i) 4
    let up := if natBits e 3 2 = 2 then 1 else 0
    (List.range (natBits e 17 8)).flatMap (fun k =>
      ((List.range 12).filter (fun b => natBit e (5 + b))).map (fun b => (natBits e 25 7 + k) * 24 + b * 2 + up)))

/-- Whether a CDR's shares are whole banks (0) or halves (1). -/
def cdrHalf (bs : List Byte) : Nat := if natBits (field bs 0x10 4) 3 2 = 0 then 0 else 1

/-- Half banks that a share takes up. -/
def shareUnits (half sh : Nat) : List Nat := if half = 0 then [sh, sh + 1] else [sh]

/-- Half banks of a VC, those it is leaving included. -/
def Vc.units (v : Vc) : List Nat :=
  v.shares.flatMap (shareUnits v.half) ++ (match v.old with | some o => o.leaving ++ o.uncleared | none => [])

/-- Half banks that a VC holds or that a resize queued for it has been promised: a share belongs to one VC at a time (R287). -/
def Vc.claims (v : Vc) : List Nat :=
  v.units ++ v.queued.flatMap (fun q => (cdrShares q.1).flatMap (shareUnits (cdrHalf q.1)))

/-- The first share of a CDR that is in conflict (R293). -/
def shareConflict (s : State) (vc : Nat) (half : Nat) (shares : List Nat) : Option Nat :=
  let others := (s.vcs.filter (fun v => v.1 != vc)).flatMap (fun v => v.2.claims)
  let units := shares.flatMap (shareUnits half)
  shares.find? (fun sh => (shareUnits half sh).any (fun u => others.contains u || decide (1 < (units.filter (· == u)).length)))

/-- Auxiliary datum of BANKSHARE. -/
def shareDatum (sh : Nat) : Nat := sh / 24 * 16 + sh / 2 % 12

/-- Shares that are cleared before they join a VC of a context (R297): some half bank was last held by another. -/
def toClear (s : State) (ctx half : Nat) (shares : List Nat) : List Nat :=
  shares.filter (fun sh => (shareUnits half sh).any (fun u => s.shareCtx.getD u 0 != ctx))

/-- Clearing of shares begins: 64 B per clock, after the bank has left retention (R286, R297). -/
def startClear (s : State) (half : Nat) (shares : List Nat) : List (Nat × Nat) × State :=
  shares.foldl (fun (x : List (Nat × Nat) × State) sh =>
    let s := (x.2.wakeSliceBank (shareBank sh)).2
    let start := match s.sliceRet.getD (shareBank sh) .active with | .leaving due => max due s.clock | _ => s.clock
    (x.1 ++ [(sh, start + (if half = 0 then 4096 else 2048))], s)) ([], s)

/-- The VC that a CDR describes; none of its shares is being cleared. -/
def cdrVc (bs : List Byte) : Vc :=
  { ctx := field bs 1 1, lsize := natBits (field bs 2 1) 0 2, assoc := natBits (field bs 2 1) 4 4,
    wpol := natBits (field bs 3 1) 0 2, repl := natBits (field bs 3 1) 2 2, lclass := field bs 4 1, half := cdrHalf bs,
    shares := cdrShares bs, clearing := [], old := none, moved := [], queued := [] }

/-- A VC is defined as a CDR describes it (R293). -/
def defineVc (s : State) (n : Nat) (bs : List Byte) : State :=
  let w := cdrVc bs
  let (cl, s) := startClear s w.half (toClear s w.ctx w.half w.shares)
  { s with vcs := s.vcs.put n { w with clearing := cl } }

/-- Half banks leave a VC and remember its context (R297). -/
def freeUnits (s : State) (ctx : Nat) (us : List Nat) : State :=
  { s with shareCtx := us.foldl (fun m u => m.setD u ctx 0) s.shareCtx }

/-- Half banks of a VC that have not joined it. -/
def Vc.clearUnits (v : Vc) : List Nat := v.clearing.flatMap (fun c => shareUnits v.half c.1)

/-! ## VCQUERY, VCDEF, VCRESIZE (R292 to R297) -/

/-- The two words of VCQUERY (R296). -/
def vcWords (s : State) (ctx n : Nat) : List Nat :=
  match s.vcs.find n with
  | some v =>
    if v.ctx ≠ ctx then [0, 0] else
    [2 ^ 31 + (if v.old.isSome then 2 ^ 30 else 0) + v.lsize * 2 ^ 28 + v.assoc * 2 ^ 24 + v.wpol * 2 ^ 22 + v.repl * 2 ^ 20 +
       v.lclass * 2 ^ 14,
     v.clearing.length * 2 ^ 16 + (v.shares.length - v.clearing.length)]
  | none => [0, 0]

/-- VCQUERY (R296). -/
def execVcquery (d a : BitVec 8) (s : State) : Host.Outcome State Fault Refusal :=
  issue { role := .copyVector, sr := [(a.toNat, 1)], sw := [(d.toNat, 2)], bad := odd d, pair := true, long := some true }
    (fun c g run s =>
      let n := (g.rf.S a.toNat).toNat
      let ctx := match s.teams.find c.team with | some t => t.ctx | none => 0
      if 255 < n then .fault { code := 0x03, lanes := c.lanes } s else
      withChannel c (vcWords s ctx n) (fun _ => true) (fun ws s => .ok (s.longOp c run true (.ret d.toNat ws)).2) s) s

/-- A CDR's bytes at an address, translated as a global load. -/
def withCdr (c : Cur) (g : Group) (run : Run) (s : State) (va : DWord) (own : Team → List Byte → State → Eff) : Eff :=
  match s.teams.find c.team with
  | none => .ok s
  | some t =>
    if va.toNat % 64 ≠ 0 then .fault { code := 0x08, lanes := c.lanes, faddr := va } s else
    match s.wakeWalk t.ctx va with
    | (false, s) => .stay s
    | (true, s) =>
    match walk s t.ctx va .load with
    | .page e => .stay (parkWord c t g run s va e)
    | .fault code d => .fault { code := code, datum := d, lanes := c.lanes, faddr := va } s
    | .ok l =>
      match s.wakeSlice l.vc l.pa with
      | (false, s) => .stay s
      | (true, s) =>
      if homePoison s l.vc l.pa then .fault { code := 0x17, lanes := c.lanes, faddr := va } s
      else own t (homeBytes s l.vc 64 l.pa) (run.unpark s)

/-- VCDEF (R293). -/
def execVcdef (a : BitVec 8) (s : State) : Host.Outcome State Fault Refusal :=
  issue { priv := true, role := .copyVector, sr := [(a.toNat, 2)], bad := odd a, long := some false } (fun c g run s =>
    inLevel c s (withCdr c g run s (g.rf.S64 a.toNat) (fun _ bs s =>
      let operand (d : Nat) : Eff := .fault { code := 0x03, datum := d, lanes := c.lanes } s
      let n := field bs 0 1
      match cdrBad bs false with
      | some d => operand d
      | none =>
        if field bs 5 1 = 0 then
          if (s.vcs.find n).isNone then operand 0x13 else .ok (s.longOp c run false (.vcundef n)).2
        else if (s.vcs.find n).isSome then operand 0x10
        else if 16 ≤ (s.vcs.filter (fun v => v.2.ctx == field bs 1 1)).length then operand 0x11
        else if !(s.ctx (field bs 1 1)).v then operand 0x12
        else
          match shareConflict s n (cdrHalf bs) (cdrShares bs) with
          | some sh => .fault { code := 0x14, datum := shareDatum sh, lanes := c.lanes } s
          | none => .ok ((defineVc s n bs).longOp c run false .done).2))) s

/-- Bytes that partial writes have left in fill-pending sectors of a VC go to the drawer: its write policy no longer keeps them
(R236, R291). -/
def flushPending (s : State) (n : Nat) : State :=
  s.homes.foldl (fun (s : State) e => match e.2.st with
    | .pending m =>
      let cells : List Host.Cell := ((List.range 64).filter (fun j => m.getLsbD j)).map (fun j =>
        (e.1 % 2 ^ 34 * 64 + j, e.2.bytes.getD j 0))
      if e.1 / 2 ^ 34 = n then queueVcWrite s n cells false else s
    | _ => s) s

/-- The shares of a new CDR take over (R294): lines that are there and whose home changes have still to be handed over;
a line that is not there has its new home at once, and its reservations are lost. Shares already in service stay so. -/
def startResize (s : State) (n : Nat) (v : Vc) (bs : List Byte) (op : Nat) : State :=
  let w := cdrVc bs
  let s := if v.wpol = 0 ∧ w.wpol ≠ 0 then flushPending s n else s
  let had := v.shares.flatMap (shareUnits v.half)
  let has := w.shares.flatMap (shareUnits w.half)
  let leaving := had.filter (fun u => !has.contains u)
  let raw := v.clearUnits
  let joins (sh : Nat) : Bool := (shareUnits w.half sh).all (fun u =>
    if had.contains u then !raw.contains u else s.shareCtx.getD u 0 == w.ctx)
  let still := v.clearing.filter (fun c => v.half == w.half && w.shares.contains c.1)
  let (cl, s) := startClear s w.half (w.shares.filter (fun sh => !joins sh && !still.any (fun c => c.1 == sh)))
  let new : Vc := { w with
    old := some { shares := v.shares, half := v.half, assoc := v.assoc, leaving := leaving.filter (fun u => !raw.contains u),
                  uncleared := leaving.filter raw.contains, op := op },
    queued := v.queued, clearing := still ++ cl }
  let rehomed (line : Nat) : Bool :=
    let pa := line * lineBytes v.lsize
    v.share pa != new.share pa || v.half != w.half || v.assoc != w.assoc
  let ks := (s.homes.filter (fun e => e.1 / 2 ^ 34 == n && e.2.st != .invalid)).map (·.1)
  let lines := ((ks.map (keyLine v)).eraseDups).filter rehomed
  let s := s.allGroups (fun _ g => { g with resv := g.resv.map (fun (r : Resv) =>
    if r.vc = n ∧ rehomed r.line ∧ ¬ lines.contains r.line then { r with lost := true } else r) })
  { s with vcs := s.vcs.put n { new with moved := lines } }

/-- VCRESIZE with MOVE = 0 (R294). -/
def execVcresize (a : BitVec 8) (s : State) : Host.Outcome State Fault Refusal :=
  issue { priv := true, role := .copyVector, sr := [(a.toNat, 2)], bad := odd a, long := some false } (fun c g run s =>
    inLevel c s (withCdr c g run s (g.rf.S64 a.toNat) (fun _ bs s =>
      let operand (d : Nat) : Eff := .fault { code := 0x03, datum := d, lanes := c.lanes } s
      let n := field bs 0 1
      match cdrBad bs true with
      | some d => operand d
      | none =>
        match s.vcs.find n with
        | none => operand 0x14
        | some v =>
          if v.ctx ≠ field bs 1 1 ∨ v.lsize ≠ natBits (field bs 2 1) 0 2 then operand 0x14 else
          match shareConflict s n (cdrHalf bs) (cdrShares bs) with
          | some sh => .fault { code := 0x14, datum := shareDatum sh, lanes := c.lanes } s
          | none =>
            let (id, s) := s.longOp c run false (.vcresize n)
            if v.old.isSome then .ok { s with vcs := s.vcs.put n { v with queued := v.queued ++ [(bs, id)] } }
            else .ok (startResize s n v bs id)))) s

/-- VCRESIZE.move (R295). -/
def execVcresizeMove (a : BitVec 8) (s : State) : Host.Outcome State Fault Refusal :=
  issue { priv := true, role := .copyVector, sr := [(a.toNat, 4)], bad := odd a, long := some false } (fun c g run s =>
    match s.teams.find c.team with
    | none => .ok s
    | some t =>
      let va := (g.rf.S64 a.toNat).toNat
      let len := (g.rf.S (a.toNat + 2)).toNat
      let target := (g.rf.S (a.toNat + 3)).toNat
      inLevel c s (
        if len = 0 ∨ len % 65536 ≠ 0 then .fault { code := 0x03, lanes := c.lanes } s
        else if va % 65536 ≠ 0 then .fault { code := 0x08, lanes := c.lanes, faddr := BitVec.ofNat 64 va } s
        else
          let prot : FaultInfo := { code := 0x11, lanes := c.lanes, faddr := BitVec.ofNat 64 va }
          match s.vcs.find target with
          | none => .fault prot s
          | some tv =>
            match withCover c g run t s .any va len (fun s ps =>
              if ps.any (fun p => match s.vcs.find p.2.vc with | some v => v.ctx != tv.ctx | none => true) then .fault prot s
              else withPool c g t s va ps (.go (.vcmove (ps.map (·.2)) target none) s)) with
            | .hold s => .stay s
            | .fault f s => .fault f s
            | .go b s => .ok ((run.unpark s).longOp c run false b).2)) s

/-- A VC is undefined (R293): every dirty sector goes out, every sector goes, and once the drawer has every write the shares are
free; none while it waits. -/
def vcundefDone (s : State) (o : Op) (n : Nat) : Option State :=
  match s.vcs.find n with
  | none => some (s.completeOp o.id)
  | some v =>
    let ks := (s.homes.filter (fun e => e.1 / 2 ^ 34 == n)).map (·.1)
    if ks.any (fun k => match s.homes.find k with
      | some x => (match x.st with | .prov _ _ => true | .pending m => m != 0 | _ => false)
      | none => false) then none else
    if !ks.isEmpty then
      some (ks.foldl (fun s k => match s.homes.find k with
        | some x =>
          let s := if x.st = .dirty then queueVcWrite s n (sectorCells k x) x.poison else s
          { s with homes := s.homes.del k }
        | none => s) s)
    else if s.links.any (fun l => (l.2.writes ++ l.2.unacked).any (fun w => w.vc == some n)) then none
    else
      let raw := v.clearUnits ++ (match v.old with | some o => o.uncleared | none => [])
      some ({ freeUnits s v.ctx (v.units.filter (fun u => !raw.contains u)) with vcs := s.vcs.del n }.completeOp o.id)

/-- A resize is over when every line has been handed over: leaving shares are free, and the next one begins (R294). -/
def vcresizeDone (s : State) (o : Op) (n : Nat) : Option State :=
  match s.vcs.find n with
  | none => some (s.completeOp o.id)
  | some v =>
    match v.old with
    | some x =>
      if x.op ≠ o.id ∨ v.moved ≠ [] then none else
      let s := { freeUnits s v.ctx x.leaving with vcs := s.vcs.put n { v with old := none } }
      let s := match v.queued with
        | (bs, k) :: rest => startResize s n { v with old := none, queued := rest } bs k
        | [] => s
      some (s.completeOp o.id)
    | none => none

/-- Evicts lines of an address's set until no more are left than it has ways (R283), the line itself staying. -/
def trimSet (s : State) (vc pa : Nat) : State :=
  match s.vcs.find vc with
  | none => s
  | some v =>
    let ks := setKeys s vc v pa
    let ls := linesOf v ks
    let cand := ls.filter (fun l => l != pa / lineBytes v.lsize && !linePinned s v ks l)
    if ls.length ≤ v.ways pa + 1 then s else
    match cand with
    | [] => s
    | c :: cs => evictLine s vc v ks (cs.foldl (fun a l =>
        let x := lineRank s v ks a
        let y := lineRank s v ks l
        if y.1 < x.1 ∨ (y.1 = x.1 ∧ y.2 < x.2) then l else a) c)

/-- A line is handed over to its new home (R294): its reservations are lost; a pinned line stays until its pin ends, and one whose new
share is still being cleared until that has joined (R297). -/
def handOver (s : State) (n line : Nat) : State :=
  match s.vcs.find n with
  | none => s
  | some v =>
    let ks := (s.homes.filter (fun e => e.1 / 2 ^ 34 == n)).map (·.1)
    let pa := line * lineBytes v.lsize
    let w := { v with moved := v.moved.filter (· != line) }
    if !v.moved.contains line ∨ linePinned s v ks line ∨ w.clears (w.share pa) then s else
    let s := { s with vcs := s.vcs.put n w }
    let s := s.loseResv [{ va := 0, pa := pa, size := lineBytes v.lsize, vc := n, lclass := 0, psize := 0 }]
    trimSet s n pa

/-- A range of another operation whose lines partly go over to a target VC, cut where they do. -/
def Piece.retarget (p : Piece) (hit : Nat → Nat → Bool) (target : Nat) : List Piece :=
  let n := (p.pa % 65536 + p.size + 65535) / 65536
  let cuts := (List.range n).map (fun i =>
    let lo := max p.pa ((p.pa / 65536 + i) * 65536)
    let hi := min (p.pa + p.size) ((p.pa / 65536 + i + 1) * 65536)
    { p with va := p.va + (lo - p.pa), pa := lo, size := hi - lo, vc := if hit p.vc lo then target else p.vc })
  if cuts.all (fun c => c.vc == p.vc) then [p] else cuts

/-- The ranges of an operation after some lines have gone over to a target VC. -/
def OpBody.retarget (b : OpBody) (hit : Nat → Nat → Bool) (target : Nat) : OpBody :=
  let cut (ps : List Piece) : List Piece := ps.flatMap (fun p => p.retarget hit target)
  match b with
  | .cmlr ps => .cmlr (cut ps)
  | .cmls d src ps => .cmls d src (cut ps)
  | .discard ps sent => .discard (cut ps) sent
  | .flush ps sent => .flush (cut ps) sent
  | .seal ps on n => .seal (cut ps) on n
  | .wobseal d c k ps n => .wobseal d c k (cut ps) n
  | .wobrel k ph n ps => .wobrel k ph n (cut ps)
  | .vcmove ps v n => .vcmove (cut ps) v n
  | .mem m => .mem { m with accs := m.accs.map (fun (a : LaneAcc) =>
      if m.space == .global && hit a.vc a.pa then { a with vc := target } else a) }
  | b => b

/-- Accesses and blocks translated with the old entry go to the lines' new home (R295). -/
def retarget (s : State) (ps : List Piece) (target : Nat) : State :=
  let hit (vc pa : Nat) : Bool := ps.any (fun p => p.vc == vc && p.has pa)
  let blk (b : Block) : Block := match b.cells with
    | (a, _) :: _ => if b.space == .global && hit b.vc a then { b with vc := target } else b
    | [] => b
  let ev (e : CmpEvent) : CmpEvent := { e with block := e.block.map blk }
  let size (vc : Nat) : Nat := match s.vcs.find vc with | some v => lineBytes v.lsize | none => 64
  let held (r : Resv) : Resv := if hit r.vc (r.line * size r.vc) then
    { r with vc := target, line := r.line * size r.vc / size target } else r
  { s with
    ops := s.ops.map (fun (o : Nat × Op) => (o.1, { o.2 with body := o.2.body.retarget hit target }))
    teams := s.teams.map (fun t => (t.1, { t.2 with
      groups := t.2.groups.map (fun (g : Group) => { g with fifo := g.fifo.map blk, resv := g.resv.map held }),
      cmp := { t.2.cmp with held := t.2.cmp.held.map ev, seen := t.2.cmp.seen.map ev } }))
    cores := s.cores.map (fun c => (c.1, { c.2 with merge := c.2.merge.map blk, comm := c.2.comm.map blk }))
    links := s.links.map (fun l =>
      let w (x : LinkWrite) : LinkWrite := match x.cells, x.vc with
        | (a, _) :: _, some v => if hit v a then { x with vc := some target } else x
        | _, _ => x
      (l.1, { l.2 with writes := l.2.writes.map w, unacked := l.2.unacked.map w })) }

/-- VCRESIZE.move at the slices (R295): the lines go over to the target VC with their sectors' states, the leaves are
rewritten and invalidated, and it is over when what has been translated with the old entries is performed; none while a line is
pinned or it waits. -/
def vcmoveDone (s : State) (o : Op) (ps : List Piece) (target : Nat) (since : Option Nat) : Option State :=
  match s.teams.find o.team, s.group? o.team o.group with
  | some t, some g =>
    let (va, len) := piecesVa ps
    match since with
    | some n => if pageBusy s false n (overlaps t.ctx va len) then none else some (s.completeOp o.id)
    | none =>
    let ks := pieceKeys s ps
    if ks.any (sectorPinned s) then none else
    match splitRange s t.ctx (2 * coverFuel len + 8) va len with
    | none => some (poolEmpty s t g o va)
    | some s =>
      let s := s.loseResv ps
      let s := ks.foldl (fun s k => match s.homes.find k with
        | some x =>
          let s := { s with homes := s.homes.del k }
          let pa := k % 2 ^ 34 * 64
          (match makeRoom s target pa with
           | some s => { s with homes := s.homes.put (homeKey target pa) x }
           | none => if x.st = .dirty then queueVcWrite s target (sectorCells k x) x.poison else s)
        | none => s) s
      let s := retarget s ps target
      let s := (rewriteLeaves s t.ctx (withVc target) (coverFuel len) va len).dropTlb t.ctx va len
      some (s.setBody o.id (.vcmove ps target (some s.opCtr)))
  | _, _ => some (s.completeOp o.id)

end Sys2Proof.Machine
end

