-- ==== Sys2Proof/Machine/Banks.lean ====
section
/-! DEFINITION. The words and events of the bank switch (R253 to R278): bank maps, gives, retention, sync words and message
rings. -/

namespace Sys2Proof.Machine

/-! ## Banks of a pool -/

/-- Banks of a pool: 64 of a cluster, 16 of a command core (R253, R13). -/
def poolSize (pool : Nat) : Nat := if 224 ≤ pool then 16 else 64

/-- Banks of a pool in a state that a predicate picks, lowest first. -/
def banksIn (s : State) (pool : Nat) (p : BankState → Bool) : List Nat :=
  (List.range (poolSize pool)).filter (fun b => p ((s.cluster pool).bank b).st)

def BankState.isZeroing : BankState → Bool
  | .zeroing _ _ => true
  | _ => false

/-- Places in the order of release of the banks of a pool that are zeroed, and how many zeroings are under way. -/
def zeroRanks (c : Cluster) : List Nat × Nat :=
  c.banks.foldl (fun x b => match b.2.st with
    | .zeroing r st => (r :: x.1, if st.isSome then x.2 + 1 else x.2)
    | _ => x) ([], 0)

/-- A bank goes back to its pool and is zeroed, at once or after those released before it (R256); zeroing needs no exit from
retention (R267). -/
def State.releaseBank (s : State) (pool b : Nat) : State :=
  let (ranks, n) := zeroRanks (s.cluster pool)
  s.onBank pool b (fun x => { x with
    st := .zeroing (ranks.foldl max 0 + 1) (if n < 8 then some s.clock else none), ret := .active })

/-- Sets a slot of a team's bank map. -/
def Team.setSlot (t : Team) (i : Nat) (st : SlotState) : Team := { t with slots := setAt t.slots i st }

/-- Attaches a bank to a slot of a team. -/
def State.attach (s : State) (team slot b : Nat) : State :=
  match s.teams.find team with
  | some t => (s.putTeam team (t.setSlot slot (.attached b))).onBank t.pool b (fun x => { x with st := .attached team slot })
  | none => s

/-- Writes bytes of a bank by offset; a word of 8 bytes that is written whole holds no error any more (R268). -/
def Bank.write (x : Bank) (now : Nat) (cells : List Host.Cell) : Bank :=
  let whole (w : Nat) : Bool := (List.range 8).all (fun i => cells.any (fun c => c.1 == 8 * w + i))
  { x with mem := Memory.writeAll x.mem cells, last := now, bad := x.bad.filter (fun w => !whole w),
           weak := x.weak.filter (fun w => !whole w) }

/-- Banks of a pool that are promised to placements (R256, R354): what its teams still wait for. -/
def promisedIn (s : State) (pool : Nat) : Nat :=
  s.teams.foldl (fun n t => if t.2.phase = .resident ∧ t.2.pool = pool then n + t.2.promised.length else n) 0

/-- The oldest placement of a pool that still waits for banks. -/
def promisedTeam (s : State) (pool : Nat) : Option Team :=
  let ts := (s.teams.filter (fun t => t.2.phase == .resident && t.2.pool == pool && !t.2.promised.isEmpty)).map (·.2)
  match ts with
  | [] => none
  | x :: xs => some (xs.foldl (fun a t => if t.placeSeq < a.placeSeq then t else a) x)

/-- Free banks of a pool go to the placements that they are promised to, lowest bank and oldest placement first, with what was
saved of the slot (R256, R266). With its last bank a leading copy begins, and its trailing copy 256 clocks later (R432). -/
def keepPromises (s : State) (pool : Nat) : Nat → State
  | 0 => s
  | n + 1 =>
    match (banksIn s pool (· == .free)).head?, promisedTeam s pool with
    | some b, some t =>
      (match t.promised with
      | [] => s
      | i :: rest =>
        let (mem, bad) := match t.saved with | some v => (v.banks.getD i [], v.bad.getD i []) | none => ([], [])
        let s := (s.attach t.id i b).onBank pool b (fun x =>
          { x with mem := Memory.writeAll [] mem, bad := bad, weak := [], last := s.clock, ret := .active })
        let s := s.onTeam t.id (fun t => { t with promised := rest, saved := if rest = [] then none else t.saved })
        let s := match t.copy, t.twin with
          | .leading, some k => if rest = [] then s.onTeam k (fun x => if x.started then x else { x with startAt := s.clock + 256 }) else s
          | _, _ => s
        keepPromises s pool n)
    | _, _ => s

/-- A zeroing ends (R256): the bank is free, the next in the order of release begins, and a placement that waits takes the bank. -/
def execBankZeroingDone (s : State) : Host.Outcome State Fault Refusal :=
  onEvent (fun e s =>
    let c := s.cluster e.a
    match (c.bank e.b).st with
    | .zeroing _ (some start) =>
      if s.clock < start + 256 then s else
      let s := s.onBank e.a e.b (fun x => { x with st := .free, mem := [], bad := [], weak := [], last := s.clock, ret := .active })
      let next := (s.cluster e.a).banks.filterMap (fun x => match x.2.st with | .zeroing r none => some (r, x.1) | _ => none)
      let s := match next with
        | [] => s
        | x :: xs =>
          let y := xs.foldl (fun (a z : Nat × Nat) => if z.1 < a.1 then z else a) x
          s.onBank e.a y.2 (fun b => { b with st := .zeroing y.1 (some s.clock) })
      keepPromises s e.a 64
    | _ => s) s

/-- An idle bank enters retention (R267); a free bank, which holds zeros, enters at once. -/
def execBankRetentionEntry (s : State) : Host.Outcome State Fault Refusal :=
  onEvent (fun e s =>
    let c := s.cluster e.a
    let x := c.bank e.b
    let n := c.bsret.toNat
    let idle := natBits n 0 16
    match x.ret with
    | .active =>
      if !natBit n 16 ∨ idle = 0 ∨ s.clock < x.last + idle * 1024 ∨ x.st.isZeroing then s
      else s.onBank e.a e.b (fun x => { x with ret := if x.st = .free then .retained else .entering s.clock })
    | .entering since =>
      if s.clock < since + 2048 then s else s.onBank e.a e.b (fun x => { x with ret := .retained })
    | _ => s) s

/-- A bank has left retention (R267); a free bank leaves at once. -/
def execBankRetentionExitDone (s : State) : Host.Outcome State Fault Refusal :=
  onEvent (fun e s =>
    let x := (s.cluster e.a).bank e.b
    let free := x.st == .free
    match x.ret with
    | .leaving due => if s.clock < due ∧ !free then s else s.onBank e.a e.b (fun x => { x with ret := .active, last := s.clock })
    | .retained => if free then s.onBank e.a e.b (fun x => { x with ret := .active, last := s.clock }) else s
    | _ => s) s

/-! ## Accesses that a slot's release waits for (R66, R259, R263) -/

/-- A block of a team that goes to a bank. -/
def Block.toBank (b : Block) (team bank before : Nat) : Bool :=
  b.team == team && (b.space == .scratch || b.space == .sync) && b.bank == bank && decide (b.id < before)

/-- Blocks of a team for a bank, issued before an operation, that are not performed yet. -/
def bankBlocksOut (s : State) (t : Team) (bank before : Nat) : Bool :=
  t.groups.any (fun g => g.fifo.any (fun b => b.toBank t.id bank before)) ||
  (t.cmp.held ++ t.cmp.seen).any (fun e => match e.block with | some b => b.toBank t.id bank before | none => false) ||
  s.cores.any (fun c => c.2.merge.any (fun b => b.toBank t.id bank before))

/-- An operation still reads or writes a slot's bank on behalf of its group. -/
def opOnSlot (o : Op) (slot bank : Nat) : Bool :=
  match o.body with
  | .mem m => (m.space == .scratch || m.space == .sync) &&
      m.accs.any (fun a => !a.st.ended && a.pa / 32768 == bank)
  | .send _ src _ none _ => src / 32768 == slot
  | .cmls _ src _ => src / 32768 == slot
  | _ => false

/-- Every earlier access of the team's groups to a slot has been performed or has faulted. -/
def slotDrained (s : State) (t : Team) (slot bank before : Nat) (core : Option Nat) : Bool :=
  !bankBlocksOut s t bank before &&
  !s.ops.any (fun o => o.2.team == t.id && decide (o.1 < before) && opOnSlot o.2 slot bank &&
    (match core with
     | none => true
     | some k => (match t.group? o.2.group with | some g => g.core == k | none => false)))

/-- A copy has had a range of the slot's bank accepted and is still at work (R67). -/
def copyOnBank (s : State) (t : Team) (slot bank : Nat) : Bool :=
  s.copies.any (fun c => c.2.team == t.id && c.2.phase != .finished && c.2.banks.any (fun x => x.1 % 16 == slot && x.2 == bank))

/-- A ring is defined in the bank of a slot (R271). -/
def ringIn (s : State) (t : Team) (slot : Nat) : Bool :=
  (s.cluster t.pool).rings.any (fun r => r.2.team == t.id && r.2.base / 32768 == slot)

/-! ## BTAKE, BFREE (R258, R259) -/

/-- A BTAKE for the slot is outstanding. -/
def takingSlot (s : State) (team slot : Nat) : Bool :=
  s.ops.any (fun o => o.2.team == team && (match o.2.body with | .btake k _ => k == slot | _ => false))

/-- Banks of a pool that a BTAKE can take or wait for (R258): free ones, and those being zeroed that no placement is promised. -/
def takeable (s : State) (pool : Nat) : Nat :=
  (banksIn s pool (· == .free)).length + ((banksIn s pool BankState.isZeroing).length - promisedIn s pool)

/-- BTAKE (R258): a core-pair team takes one bank for each copy or none (R434). -/
def execBtake (d : BitVec 8) (sg : BitVec 4) (s : State) : Host.Outcome State Fault Refusal :=
  issue { sw := [(d.toNat, 1)], long := some true, pair := true } (fun c _ run s =>
    match s.teams.find c.team with
    | none => .ok s
    | some t =>
      let slot := sg.toNat
      let need := if t.paired then 2 else 1
      if t.copy ≠ .trailing ∧ (t.slot slot ≠ .detached ∨ takingSlot s t.id slot) then
        .fault { code := 0x03, lanes := c.lanes } s else
      withPlace c
        (fun s =>
          if takeable s t.pool < need then
            let (id, s) := s.longOp c run true (.ret d.toNat [0xFFFFFFFF])
            (id, .ok s)
          else
            let (id, s) := s.longOp c run true (.btake slot d.toNat)
            (id, .ok s))
        (fun vs s => .ok (s.longOp c run true (.ret d.toNat vs)).2) s) s

/-- A BTAKE takes the lowest free banks once there are enough; none while it waits. -/
def btakeDone (s : State) (o : Op) (slot d : Nat) : Option State :=
  match s.teams.find o.team with
  | none => some (s.completeOp o.id)
  | some t =>
    match banksIn s t.pool (· == .free), t.twin with
    | b :: b2 :: _, some k =>
      let s := (s.attach t.id slot b).attach k slot b2
      some (finishOp (fillChannel s t.id o.id [4, o.iaddr.toNat, b]) o.id [b] d)
    | b :: _, none => some (finishOp (s.attach t.id slot b) o.id [b] d)
    | _, _ => none

/-- A BOPEN that no give has matched ends with STATUS 2 and its slot is detached (R259, R261). -/
def cancelOpen (s : State) (id : Nat) : State :=
  match s.ops.find id with
  | some o => (match o.body with
    | .bopen slot d _ _ _ none => finishOp (s.onTeam o.team (fun t => t.setSlot slot .detached)) id [2 * 2 ^ 30] d
    | _ => s)
  | none => s

/-- Whether a BOPEN has been matched. -/
def openMatched (s : State) (id : Nat) : Bool :=
  match s.ops.find id with
  | some o => (match o.body with | .bopen _ _ _ _ _ (some _) => true | _ => false)
  | none => false

/-- BFREE (R259). -/
def execBfree (sg : BitVec 4) (s : State) : Host.Outcome State Fault Refusal :=
  issue { long := some false, pair := true } (fun c _ run s =>
    match s.teams.find c.team with
    | none => .ok s
    | some t =>
      let slot := sg.toNat
      if !t.levels.isEmpty ∨ ringIn s t slot then .fault { code := 0x03, lanes := c.lanes } s else
      match t.slot slot with
      | .detached => .fault { code := 0x13, datum := slot, lanes := c.lanes } s
      | .leaving _ => .fault { code := 0x13, datum := slot, lanes := c.lanes } s
      | .opening id =>
        if openMatched s id then .ok (s.longOp c run false (.bfree slot)).2
        else .ok ((cancelOpen s id).longOp c run false .done).2
      | .attached b => .ok ((s.onTeam t.id (fun t => t.setSlot slot (.leaving b))).longOp c run false (.bfree slot)).2) s

/-- What a BFREE does next; none while it waits for a matched give, for accesses, or for accepted traffic. -/
def bfreeDone (s : State) (o : Op) (slot : Nat) : Option State :=
  match s.teams.find o.team with
  | none => some (s.completeOp o.id)
  | some t =>
    match t.slot slot with
    | .attached b => some (s.onTeam t.id (fun t => t.setSlot slot (.leaving b)))
    | .leaving b =>
      if !slotDrained s t slot b o.id none || copyOnBank s t slot b then none
      else some (((s.onTeam t.id (fun t => t.setSlot slot .detached)).releaseBank t.pool b).completeOp o.id)
    | _ => none

/-! ## BGIVE, BOPEN (R260 to R262) -/

/-- The place of a core in its cluster; 0 on a command core (R253). -/
def Team.coreNo (t : Team) (g : Group) : Nat := if t.command then 0 else g.core % 8

/-- Open BOPENs of a pool on a core and port that nothing has matched, oldest first, with their teams' contexts. -/
def openAt (s : State) (pool core port : Nat) : List (Nat × Nat) :=
  s.ops.filterMap (fun o => match o.2.body, s.teams.find o.2.team with
    | .bopen _ _ p k _ none, some t => if t.pool = pool ∧ p = port ∧ k = core then some (o.1, t.ctx) else none
    | _, _ => none)

/-- Sets the give that a BOPEN is matched with. -/
def setMatch (s : State) (id give : Nat) : State :=
  s.onOp id (fun o => match o.body with
    | .bopen sl d p c sy _ => { o with body := .bopen sl d p c sy (some give) }
    | _ => o)

/-- BGIVE (R260): in the order of R278. -/
def execBgive (p : BitVec 8) (c : BitVec 3) (sg : BitVec 4) (s : State) : Host.Outcome State Fault Refusal :=
  issue { long := some false, pair := true } (fun cur g run s =>
    soloWord cur s (match s.teams.find cur.team with
    | none => .ok s
    | some t =>
      let slot := sg.toNat
      let cl := s.cluster t.pool
      let opens := openAt s t.pool c.toNat p.toNat
      let m := opens.find? (fun x => x.2 == t.ctx)
      let full := m.isNone && decide (16 ≤ cl.gives.length)
      if (t.command ∧ c ≠ 0) ∨ ringIn s t slot ∨ !t.levels.isEmpty then .fault { code := 0x03, lanes := cur.lanes } s
      else if m.isNone ∧ !opens.isEmpty ∧ !full then .fault { code := 0x11, datum := 0x34, lanes := cur.lanes } s
      else match t.slot slot with
        | .attached b =>
          if full then .stay s else
          let s := s.onTeam t.id (fun t => t.setSlot slot (.leaving b))
          let (id, s) := s.longOp cur run false (.bgive slot b c.toNat p.toNat (m.map (·.1)))
          (match m with
          | some x => .ok (setMatch s x.1 id)
          | none =>
            let cl := s.cluster t.pool
            let give : Give := { ctx := t.ctx, core := c.toNat, port := p.toNat, bank := b, gcore := t.coreNo g, op := id,
                                 landed := false }
            .ok (s.putCluster t.pool { cl with gives := cl.gives ++ [give] }))
        | _ => .fault { code := 0x13, datum := slot, lanes := cur.lanes } s)) s

/-- Form of a sync-word offset (R269): ALIGN, then PROT. -/
def syncFault (c : Cur) (off : Nat) : Option FaultInfo :=
  if off % 16 ≠ 0 then some { code := 0x08, lanes := c.lanes, faddr := BitVec.ofNat 64 off }
  else if 2 ^ 19 ≤ off then some { code := 0x11, lanes := c.lanes, faddr := BitVec.ofNat 64 off }
  else none

/-- The optional sync word that a register names (R261, R273). -/
def optSync (c : Cur) (w : Word) : Option Nat × Option FaultInfo :=
  if w = 0xFFFFFFFF then (none, none) else (some w.toNat, syncFault c w.toNat)

/-- BOPEN (R261): the oldest held give of its context for the core and port is matched at once. -/
def execBopen (d p : BitVec 8) (sg : BitVec 4) (s : State) : Host.Outcome State Fault Refusal :=
  issue { sr := [(d.toNat, 1)], sw := [(d.toNat, 1)], long := some true, pair := true } (fun c g run s =>
    soloWord c s (match s.teams.find c.team with
    | none => .ok s
    | some t =>
      let slot := sg.toNat
      let (sync, bad) := optSync c (g.rf.S d.toNat)
      if t.slot slot ≠ .detached ∨ takingSlot s t.id slot then .fault { code := 0x03, lanes := c.lanes } s else
      match bad with
      | some f => .fault f s
      | none =>
        let cl := s.cluster t.pool
        let core := t.coreNo g
        let matched (x : Give) : Bool := s.ops.any (fun o => match o.2.body with
          | .bopen _ _ _ _ _ (some k) => k == x.op
          | _ => false)
        let give := (cl.gives.find? (fun x => x.ctx == t.ctx && x.core == core && x.port == p.toNat && !matched x)).map (·.op)
        let (id, s) := s.longOp c run true (.bopen slot d.toNat p.toNat core sync give)
        let s := s.onTeam t.id (fun t => t.setSlot slot (.opening id))
        .ok (match give with
          | some k => s.onOp k (fun o => match o.body with
              | .bgive sl b co po _ => { o with body := .bgive sl b co po (some id) }
              | _ => o)
          | none => s))) s

/-- One raise of a sync word's 16 bytes (R64): word after the raise by n, with an error code or none. -/
def syncRaise (bs : List Byte) (n : Nat) (err : Option Nat) : List Byte :=
  let target := leVal (bs.take 4)
  let count := leVal ((bs.drop 4).take 4)
  let gen := leVal ((bs.drop 8).take 4)
  let top := leVal ((bs.drop 12).take 4)
  let sum := count + n
  let ovf := decide (2 ^ 32 ≤ sum) || natBit top 0
  let sum := min sum (2 ^ 32 - 1)
  let (errs, last) := match err with
    | some e => (min (natBits top 16 16 + 1) 0xFFFF, e)
    | none => (natBits top 16 16, natBits top 8 8)
  let steps := if target = 0 then 0 else sum / target
  let rest := if target = 0 then sum else sum % target
  bytesLE 4 target ++ bytesLE 4 rest ++ bytesLE 4 ((gen + steps) % 2 ^ 32) ++
  bytesLE 4 (errs * 2 ^ 16 + last % 256 * 2 ^ 8 + (if ovf then 1 else 0))

/-- Whether the bank of a sync word serves a raise at once; a raise is an access like any other (R267). -/
def raiseReady (s : State) (team off : Nat) : Bool × State :=
  match s.teams.find team with
  | some t => (match t.slot (off / 32768) with
    | .attached b => s.wakeBank t.pool b
    | _ => (true, s))
  | none => (true, s)

/-- A raise of the word at a slot offset of a team's window, resolved now (R270): whether its slot is attached. The word is read
for it, and its single-bit errors are corrected (R268). -/
def raiseAt (s : State) (team off n : Nat) (err : Option Nat) : Bool × State :=
  match s.teams.find team with
  | some t => (match t.slot (off / 32768) with
    | .attached b =>
      let o := off % 32768 / 16 * 16
      let s := s.correctBank t.pool b o 16
      (true, s.onBank t.pool b (fun x =>
        { x.write s.clock (cellsAt o (syncRaise (Memory.readN x.mem 16 o) n err)) with bad := x.bad }))
    | _ => (false, s))
  | none => (false, s)

/-- The sync word of a BOPEN can be raised at once when a bank lands in its slot. -/
def landReady (s : State) (bo : Op) (bank : Nat) : Bool × State :=
  match bo.body, s.teams.find bo.team with
  | .bopen slot _ _ _ (some off) _, some t =>
    if off / 32768 = slot then s.wakeBank t.pool bank else raiseReady s bo.team off
  | _, _ => (true, s)

/-- A give lands at a BOPEN (R261). -/
def landAt (s : State) (bo : Op) (bank gcore : Nat) : State :=
  match bo.body with
  | .bopen slot d _ _ sync _ =>
    let s := s.attach bo.team slot bank
    let (ok, s) := match sync with
      | some off => raiseAt s bo.team off 32768 none
      | none => (true, s)
    finishOp s bo.id [(if ok then 0 else 2 ^ 30) + gcore * 2 ^ 8 + bank] d
  | _ => s

/-- The giver's slot is drained: it is detached, and the give is held unless a BOPEN has matched it (R260); none while
accesses are outstanding or a BOPEN waits for it to land. -/
def bgiveDone (s : State) (o : Op) (slot bank : Nat) (m : Option Nat) : Option State :=
  match s.teams.find o.team with
  | none => some (s.completeOp o.id)
  | some t =>
    if m.isSome || !slotDrained s t slot bank o.id none then none else
    let s := (s.onTeam t.id (fun t => t.setSlot slot .detached)).onBank t.pool bank (fun x => { x with st := .transit })
    let cl := s.cluster t.pool
    if !cl.gives.any (fun x => x.op == o.id) then some ((s.releaseBank t.pool bank).completeOp o.id) else
    some ((s.putCluster t.pool { cl with gives := cl.gives.map (fun (x : Give) =>
      if x.op = o.id then { x with landed := true } else x) }).completeOp o.id)

/-- GIVE_LAND (R261): the subject is a matched BGIVE whose drain is over, or a BOPEN matched with a held give. -/
def execGiveLand (s : State) : Host.Outcome State Fault Refusal :=
  onEvent (fun e s =>
    match s.ops.find e.a with
    | none => s
    | some o =>
      match s.teams.find o.team with
      | none => s
      | some t =>
        let cl := s.cluster t.pool
        let drop (s : State) (k : Nat) : State :=
          s.putCluster t.pool { s.cluster t.pool with gives := (s.cluster t.pool).gives.filter (fun x => x.op != k) }
        match o.body with
        | .bgive slot bank _ _ (some bo) =>
          (match s.ops.find bo, s.group? o.team o.group with
          | some b, some g =>
            if !slotDrained s t slot bank o.id none then s else
            match landReady s b bank with
            | (false, s) => s
            | (true, s) =>
            let s := drop (s.onTeam t.id (fun t => t.setSlot slot .detached)) o.id
            (landAt s b bank (t.coreNo g)).completeOp o.id
          | _, _ => s)
        | .bopen _ _ _ _ _ (some k) =>
          (match cl.gives.find? (fun x => x.op == k && x.landed) with
          | some x =>
            (match landReady s o x.bank with
            | (false, s) => s
            | (true, s) => landAt (drop s k) o x.bank x.gcore)
          | none => s)
        | _ => s) s

/-! ## BDRAIN, BQUERY (R263, R264) -/

/-- BDRAIN (R263). -/
def execBdrain (l : BitVec 1) (sg : BitVec 4) (s : State) : Host.Outcome State Fault Refusal :=
  issue { bad := l == 1 && sg != 0, long := some false, pair := true } (fun c _ run s =>
    let slots := if l = 1 then List.range 16 else [sg.toNat]
    .ok (s.longOp c run false (.bdrain slots)).2) s

/-- A BDRAIN is over; none while an earlier access of its core is outstanding. -/
def bdrainDone (s : State) (o : Op) (slots : List Nat) : Option State :=
  match s.teams.find o.team, s.group? o.team o.group with
  | some t, some g =>
    if slots.all (fun i => match t.slot i with
      | .attached b => slotDrained s t i b o.id (some g.core)
      | .leaving b => slotDrained s t i b o.id (some g.core)
      | _ => true) then some (s.completeOp o.id) else none
  | _, _ => some (s.completeOp o.id)

/-- The word that BQUERY writes for a slot. -/
def slotWord (s : State) (t : Team) (slot : Nat) : Nat :=
  let bank (st b : Nat) : Nat := st * 2 ^ 30 + (if ((s.cluster t.pool).bank b).ret = .active then 0 else 2 ^ 29) +
    (if ringIn s t slot then 2 ^ 28 else 0) + b
  match t.slot slot with
  | .detached => 0
  | .attached b => bank 1 b
  | .opening _ => 2 * 2 ^ 30
  | .leaving b => bank 3 b

/-- The word that BQUERY writes for the pool. -/
def poolWord (s : State) (t : Team) : Nat :=
  (banksIn s t.pool (· == .free)).length * 2 ^ 16 +
  ((banksIn s t.pool BankState.isZeroing).length - promisedIn s t.pool) * 2 ^ 8 +
  ((s.cluster t.pool).gives.filter (fun x => x.ctx == t.ctx)).length

/-- BQUERY (R264). -/
def execBquery (d : BitVec 8) (o : BitVec 1) (sg : BitVec 4) (s : State) : Host.Outcome State Fault Refusal :=
  issue { sw := [(d.toNat, 1)], bad := o == 1 && sg != 0, long := some true, pair := true } (fun c _ run s =>
    match s.teams.find c.team with
    | none => .ok s
    | some t => withChannel c [if o = 1 then poolWord s t else slotWord s t sg.toNat] (fun _ => true)
        (fun vs s => .ok (s.longOp c run true (.ret d.toNat vs)).2) s) s

/-! ## Sync words (R269, R270) -/

/-- The bank and offset of a sync word, or the fault of naming it. -/
def syncAt (c : Cur) (t : Team) (off : Nat) : Except FaultInfo Nat :=
  match syncFault c off with
  | some f => .error f
  | none => (match t.slot (off / 32768) with
    | .attached b => .ok b
    | _ => .error { code := 0x13, datum := off / 32768, lanes := c.lanes, faddr := BitVec.ofNat 64 off })

/-- SWINIT and SWADD: an update of the sync word that passes the merge point in order, as a store does (R46, R269). -/
def syncWord (c : Cur) (g : Group) (run : Run) (off : Nat) (kind : BlockKind) (bytes : List Byte) (s : State) : Eff :=
  match s.teams.find c.team with
  | none => .ok s
  | some t =>
    match syncAt c t off with
    | .error f => .fault f s
    | .ok b =>
      let m : MemOp := { kind := .store, space := .sync, mods := ⟨0, 0, .sync, 0, 0, 0⟩, bytes := 16, tag := 0, regs := 4,
                         accs := [], posted := false, lead := none, loose := false }
      let mk (id k : Nat) : Block :=
        { id := k, op := id, team := t.id, group := g.id, kind := kind, space := .sync, lane := 0, ctx := t.ctx, vc := 0,
          lclass := 0, device := false, bank := b, cells := cellsAt (b * 32768 + off % 32768) bytes, cmp := 0,
          mods := m.mods, level := t.levels.length, iaddr := c.addr, gang := c.gang, lanes := c.lanes,
          va := BitVec.ofNat 64 off, psize := 0, born := s.clock }
      if t.paired then
        if !slackRoom t 1 then .stay (countStall s t) else
        let (id, s) := s.longOp c run false (.mem m)
        let blk := mk id s.opCtr
        let s := { s with opCtr := s.opCtr + 1 }
        let words := [off, leVal bytes]
        let s := s.onTeam t.id (fun t => t.enterEvent (t.residentClocks s.clock) g.id eventStore c.addr c.lanes words
          (BitVec.ofNat 64 off) (some blk) none)
        .ok (if t.copy = .leading then s.completeOp id else s)
      else if !fifoFits g [mk 0 0] then .stay s
      else
        let (id, s) := s.longOp c run false (.mem m)
        let blk := mk id s.opCtr
        .ok ({ s with opCtr := s.opCtr + 1 }.onCur c (fun g => { g with fifo := g.fifo ++ [blk] }))

/-- SWINIT (R269). -/
def execSwinit (x a : BitVec 8) (s : State) : Host.Outcome State Fault Refusal :=
  issue { sr := [(x.toNat, 1), (a.toNat, 2)], bad := odd a, long := some false, pair := true } (fun c g run s =>
    let target := g.rf.S a.toNat
    let gen := g.rf.S (a.toNat + 1)
    syncWord c g run (g.rf.S x.toNat).toNat (.swinit target gen)
      (bytesLE 4 target.toNat ++ bytesLE 4 0 ++ bytesLE 4 gen.toNat ++ bytesLE 4 0) s) s

/-- SWADD (R269): the block's bytes only say where it goes; the raise is made at the bank. -/
def execSwadd (x a : BitVec 8) (s : State) : Host.Outcome State Fault Refusal :=
  issue { sr := [(x.toNat, 1), (a.toNat, 1)], long := some false, pair := true } (fun c g run s =>
    let n := (g.rf.S a.toNat).toNat
    syncWord c g run (g.rf.S x.toNat).toNat (.swadd n) (bytesLE 16 n) s) s

/-- The sync word's 16 bytes as SWREAD and SWWAIT read them: after the group's own older blocks to the bank, and not from a
bank in retention; none while they wait. -/
def readSync (s : State) (t : Team) (b off : Nat) : Option (List Byte × State) :=
  if bankBlocksOut s t b s.opCtr then none else
  match s.wakeBank t.pool b with
  | (true, s) => some (Memory.readN ((s.cluster t.pool).bank b).mem 16 (off % 32768), s.correctBank t.pool b (off % 32768) 16)
  | (false, _) => none

/-- A read of a retained bank starts its way out (R267). -/
def wakeFor (s : State) (t : Team) (b : Nat) : State := (s.wakeBank t.pool b).2

/-- Words of a sync word, low to high. -/
def syncWords (bs : List Byte) : List Nat := (List.range 4).map (fun j => leVal ((bs.drop (4 * j)).take 4))

/-- Some word of a bank that a read covers is uncorrectable (R268). -/
def syncUncorr (s : State) (c : Cur) (t : Team) (b off : Nat) : Option FaultInfo :=
  if bankBad s t.pool b off 16 then some { code := 0x17, datum := b, lanes := c.lanes, faddr := BitVec.ofNat 64 off } else none

/-- SWWAIT (R269): blocks until GEN differs from S(D); in the trailing copy until its own word has reached the GEN that the
leading copy returned (R433). An acquire at clus scope (R65). -/
def execSwwait (d x : BitVec 8) (s : State) : Host.Outcome State Fault Refusal :=
  issue { sr := [(x.toNat, 1), (d.toNat, 1)], sw := [(d.toNat, 1)], long := some true, pair := true } (fun c g run s =>
    match s.teams.find c.team with
    | none => .ok s
    | some t =>
      let off := (g.rf.S x.toNat).toNat
      let old := g.rf.S d.toNat
      match syncAt c t off with
      | .error f => .fault f s
      | .ok b =>
        match syncUncorr s c t b off with
        | some f => .fault f s
        | none =>
          match readSync s t b off with
          | none => .stay (wakeFor s t b)
          | some (bs, s) =>
            let gen := (syncWords bs).getD 2 0
            if t.copy ≠ .trailing ∧ gen = old.toNat then .stay (s.setWait c (.sync off old)) else
            withChannel c [gen] (fun vs => decide ((gen + 2 ^ 32 - vs.headD 0) % 2 ^ 32 < 2 ^ 31))
              (fun vs s => .ok ((s.longOp c run true (.ret d.toNat vs)).2.acquire c 3)) s) s

/-- SWREAD (R269): an acquire at clus scope (R65). -/
def execSwread (d x : BitVec 8) (s : State) : Host.Outcome State Fault Refusal :=
  issue { sr := [(x.toNat, 1)], sw := [(d.toNat, 4)], bad := d.toNat % 4 != 0, long := some true, pair := true }
    (fun c g run s =>
      match s.teams.find c.team with
      | none => .ok s
      | some t =>
        let off := (g.rf.S x.toNat).toNat
        match syncAt c t off with
        | .error f => .fault f s
        | .ok b =>
          match syncUncorr s c t b off with
          | some f => .fault f s
          | none =>
            match readSync s t b off with
            | none => .stay (wakeFor s t b)
            | some (bs, s) =>
              let gen := (syncWords bs).getD 2 0
              withChannel c (syncWords bs) (fun vs => decide ((gen + 2 ^ 32 - vs.getD 2 0) % 2 ^ 32 < 2 ^ 31))
                (fun vs s => .ok ((s.longOp c run true (.ret d.toNat vs)).2.acquire c 3)) s) s

/-! ## Rings (R271 to R276) -/

/-- Changes the ring that a handle names. -/
def State.onRing (s : State) (h : Word) (f : Ring → Ring) : State :=
  let cl := s.cluster (h.toNat / 64)
  s.putCluster (h.toNat / 64) { cl with rings := cl.rings.adjust (h.toNat % 64) f }

/-- The ring that a handle names, when its reserved bits are zero. -/
def ringAt (s : State) (h : Word) : Option Ring := if 2 ^ 14 ≤ h.toNat then none else ringOf s h

/-- A ring is undefined, and SENDs that wait on it are refused (R273, R276). -/
def undefineRing (s : State) (h : Word) : State :=
  let cl := s.cluster (h.toNat / 64)
  let s := s.putCluster (h.toNat / 64) { cl with rings := cl.rings.del (h.toNat % 64) }
  { s with ops := s.ops.map (fun (o : Nat × Op) => match o.2.body with
      | .send h' src len (some bs) none => if h' = h then (o.1, { o.2 with body := .send h' src len (some bs) (some 0x30) }) else o
      | _ => o) }

/-- RINGDEF (R273). A command core has no cluster and so no ring entries (R13). -/
def execRingdef (d a : BitVec 8) (s : State) : Host.Outcome State Fault Refusal :=
  issueD (fun _ g _ => { sr := [(a.toNat, 3)] ++ (if g.rf.S (a.toNat + 1) = 0 then [(d.toNat, 1)] else []),
                         sw := [(d.toNat, 1)], long := some true, pair := true })
    (fun c g run s =>
      soloWord c s (match s.teams.find c.team with
      | none => .ok s
      | some t =>
        let base := (g.rf.S a.toNat).toNat
        let size := (g.rf.S (a.toNat + 1)).toNat
        if size = 0 then
          let h := g.rf.S d.toNat
          match ringAt s h with
          | some r =>
            if r.team ≠ t.id then .fault { code := 0x03, lanes := c.lanes } s else
            .ok ((undefineRing s h).longOp c run true .done).2
          | none => .fault { code := 0x03, lanes := c.lanes } s
        else
          let (sync, bad) := optSync c (g.rf.S (a.toNat + 2))
          let pow := [256, 512, 1024, 2048, 4096, 8192, 16384, 32768].contains size
          if !pow ∨ base % size ≠ 0 then .fault { code := 0x08, lanes := c.lanes, faddr := BitVec.ofNat 64 base } s else
          match bad with
          | some f => .fault f s
          | none =>
            if 2 ^ 19 ≤ base then .fault { code := 0x11, lanes := c.lanes, faddr := BitVec.ofNat 64 base } s else
            match t.slot (base / 32768) with
            | .attached _ =>
              let cl := s.cluster t.pool
              let free := if t.command then none else (List.range 64).find? (fun i => (cl.rings.find i).isNone)
              (match free with
              | none => .ok (s.longOp c run true (.ret d.toNat [0xFFFFFFFF])).2
              | some i =>
                let r : Ring := { team := t.id, ctx := t.ctx, base := base, size := size, head := 0, tail := 0, sync := sync,
                                  producer := none }
                .ok ((s.putCluster t.pool { cl with rings := cl.rings.put i r }).longOp c run true
                  (.ret d.toNat [t.pool * 64 + i])).2)
            | _ => .fault { code := 0x13, datum := base / 32768, lanes := c.lanes, faddr := BitVec.ofNat 64 base } s)) s

/-- SEND (R274). -/
def execSend (r a : BitVec 8) (s : State) : Host.Outcome State Fault Refusal :=
  issue { sr := [(r.toNat, 1), (a.toNat, 2)], bad := odd a, long := some false, pair := true } (fun c g run s =>
    match s.teams.find c.team with
    | none => .ok s
    | some t =>
      let src := (g.rf.S a.toNat).toNat
      let len := (g.rf.S (a.toNat + 1)).toNat
      let h := g.rf.S r.toNat
      let at? : DWord := BitVec.ofNat 64 src
      let detached : Eff := .fault { code := 0x13, datum := src / 32768, lanes := c.lanes, faddr := at? } s
      if len = 0 ∨ 4096 < len ∨ len % 64 ≠ 0 then .fault { code := 0x03, lanes := c.lanes } s
      else if src % 64 ≠ 0 then .fault { code := 0x08, lanes := c.lanes, faddr := at? } s
      else if 2 ^ 19 ≤ src then .fault { code := 0x11, lanes := c.lanes, faddr := at? } s
      else if 32768 < src % 32768 + len then detached
      else match t.slot (src / 32768) with
        | .attached _ => onceWord c g run { words := [h.toNat, src, len], faddr := at?, log := some logSend }
            (fun _ s => .go (.send h src len none none) s) s
        | _ => detached) s

/-- A SEND reads its source bytes once its group's older stores have passed the merge point and are at the bank (R274); in a
core-pair team both copies' bytes are compared (R434). None while it waits. -/
def sendRead (s : State) (o : Op) (h : Word) (src len : Nat) : Option State :=
  match s.teams.find o.team with
  | none => some (s.completeOp o.id)
  | some t =>
    let pair := match t.twin.bind s.teams.find with | some k => [t, k] | none => [t]
    let slot := src / 32768
    let wait := pair.any (fun k => (match k.reaches slot with
        | some b => bankBlocksOut s k b (if k.id = t.id then o.id else s.opCtr)
        | none => false) ||
      (match k.group? o.group with
        | some g => let n := if k.id = t.id then o.id else s.opCtr
            storesOut s g k.id n false true || heldOut s k g n true || acquiresOut s k.id g.id n
        | none => false))
    if wait then none else
    let (here, s) := pair.foldl (fun (x : Bool × State) k => match k.reaches slot with
      | some b => let y := x.2.wakeBank k.pool b; (x.1 && y.1, y.2)
      | none => x) (true, s)
    if !here then some s else
    let bytesOf (k : Team) : List Byte := match k.reaches slot with
      | some b => slotBytes s k b src len
      | none => List.replicate len 0
    let bad := (t.reaches slot).filter (fun b => bankBad s t.pool b src len)
    match bad with
    | some b =>
      some ((s.keepLate o { code := 0x17, datum := b, lanes := o.lanes, faddr := BitVec.ofNat 64 src }).completeOp o.id)
    | none =>
      if pair.any (fun k => bytesOf k != bytesOf t) then
        some (takeLate s o { code := 0x1A, datum := 1, lanes := o.lanes, faddr := BitVec.ofNat 64 src })
      else
        let s := pair.foldl (fun (s : State) k => match k.reaches slot with
          | some b => s.correctBank k.pool b (src % 32768) len
          | none => s) s
        some (s.setBody o.id (.send h src len (some (bytesOf t)) none))

/-- An older SEND of the same producer team to the same ring has not been placed or refused yet (R274). -/
def sendAhead (s : State) (o : Op) (h : Word) : Bool :=
  s.ops.any (fun k => k.2.team == o.team && decide (k.1 < o.id) && (match k.2.body with | .send h' _ _ _ _ => h' == h | _ => false))

/-- The refusal of a SEND at its ring's cluster (R274). -/
def sendRefused (s : State) (t : Team) (h : Word) (len : Nat) : Option Nat :=
  match ringAt s h with
  | none => some 0x30
  | some r =>
    if r.ctx ≠ t.ctx then some 0x31
    else if r.producer.isSome ∧ r.producer ≠ some t.id then some 0x32
    else if r.size < len then some 0x33
    else none

/-- A SEND is over: the log of each copy has it, and its flags fall. -/
def sendOver (s : State) (o : Op) : State := finishOp (logDone s o logSend 0 0) o.id [] 512

/-- RING_MESSAGE_DELIVERY (R274): bytes, then TAIL, then the sync word. -/
def execRingMessageDelivery (s : State) : Host.Outcome State Fault Refusal :=
  onEvent (fun e s =>
    match s.ops.find e.a with
    | none => s
    | some o =>
      match o.body, s.teams.find o.team with
      | .send h _ len (some bs) none, some t =>
        if opHeld s o || sendAhead s o h || (sendRefused s t h len).isSome then s else
        (match ringAt s h with
        | none => s
        | some r =>
          match s.teams.find r.team with
          | none => s
          | some k =>
            let s := s.onRing h (fun r => { r with producer := some t.id })
            let used := (r.tail - r.head).toNat
            match k.slot (r.base / 32768) with
            | .attached b =>
              if k.phase ≠ .resident ∨ r.size < used + len then s else
              let (up, s) := match r.sync with | some off => raiseReady s r.team off | none => (true, s)
              (match s.wakeBank k.pool b with
              | (false, s) => s
              | (true, s) =>
                if !up then s else
                let cells := bs.zipIdx.map (fun x => (r.base % 32768 + (r.tail.toNat + x.2) % r.size, x.1))
                let s := s.onBank k.pool b (fun x => x.write s.clock cells)
                let s := s.onRing h (fun r => { r with tail := r.tail + BitVec.ofNat 32 len })
                let s := match r.sync with | some off => (raiseAt s r.team off len none).2 | none => s
                sendOver s o)
            | _ => s)
      | _, _ => s) s

/-- SEND_REFUSAL (R274): a PROT fault with the refusal code waits for the sender's next run. -/
def execSendRefusal (s : State) : Host.Outcome State Fault Refusal :=
  onEvent (fun e s =>
    match s.ops.find e.a with
    | none => s
    | some o =>
      match o.body, s.teams.find o.team with
      | .send h _ len _ no, some t =>
        if opHeld s o || sendAhead s o h then s else
        (match no <|> sendRefused s t h len with
        | none => s
        | some d =>
          let s := (s.pairOf t.id).foldl (fun s i => s.keepLate { o with team := i } { code := 0x11, datum := d, lanes := o.lanes }) s
          sendOver s o)
      | _, _ => s) s

/-- RINGACK (R275): checked against the ring's counts, with older acknowledgements of the ring first. -/
def execRingack (r a : BitVec 8) (s : State) : Host.Outcome State Fault Refusal :=
  issue { sr := [(r.toNat, 1), (a.toNat, 1)], long := some false, pair := true } (fun c g run s =>
    soloWord c s (
      let h := g.rf.S r.toNat
      let n := g.rf.S a.toNat
      match ringAt s h with
      | none => .fault { code := 0x11, datum := 0x35, lanes := c.lanes } s
      | some x =>
        if x.team ≠ c.team then .fault { code := 0x11, datum := 0x35, lanes := c.lanes } s
        else if s.ops.any (fun o => match o.2.body with | .ringack h' _ => h' == h | _ => false) then .stay s
        else if n.toNat % 64 ≠ 0 ∨ (x.tail - x.head).toNat < n.toNat then .fault { code := 0x03, lanes := c.lanes } s
        else .ok (s.longOp c run false (.ringack h n)).2)) s

/-- HEAD moves on after the group's older loads (R69, R275); none while it waits. -/
def ringackDone (s : State) (o : Op) (h n : Word) : Option State :=
  if loadsOut s o.team o.group o.id true then none
  else some ((s.onRing h (fun r => { r with head := r.head + n })).completeOp o.id)

/-- RINGWAIT (R275): blocks until TAIL differs from S(D); an acquire at clus scope. -/
def execRingwait (d r : BitVec 8) (s : State) : Host.Outcome State Fault Refusal :=
  issue { sr := [(r.toNat, 1), (d.toNat, 1)], sw := [(d.toNat, 1)], long := some true, pair := true } (fun c g run s =>
    soloWord c s (
      let h := g.rf.S r.toNat
      let old := g.rf.S d.toNat
      match ringAt s h with
      | none => .fault { code := 0x11, datum := 0x35, lanes := c.lanes } s
      | some x =>
        if x.team ≠ c.team then .fault { code := 0x11, datum := 0x35, lanes := c.lanes } s
        else if x.tail = old then .stay (s.setWait c (.ring h old))
        else .ok ((s.longOp c run true (.ret d.toNat [x.tail.toNat])).2.acquire c 3))) s

end Sys2Proof.Machine
end

