-- ==== Sys2Proof/Machine/Devices.lean ====
section
/-! DEFINITION. Device space on the hub (R29, R344 to R348, R447, R479, R489, R503): what its bytes read as, what a write
does, and the events of such writes. -/

namespace Sys2Proof.Machine

/-! ## Layout (R344, R479, R489) -/

def qmemBase : Nat := 0x10000000000
def qmemSize : Nat := 2 ^ 26
def tableBase : Nat := 0x10004000000
def ctxBase : Nat := 0x10004020000
def lectlAddr : Nat := 0x10004022000
def linkBase : Nat := 0x10010000000
def clusterBase : Nat := 0x10020000000
def sliceBase : Nat := 0x10020010000
def injectBase : Nat := 0x10020020000
def cestackBase : Nat := 0x10020021000
def ccwdBase : Nat := 0x10020022000
def fqlostBase : Nat := 0x10020023000

/-- A queue table entry after module reset: not defined (log entry 9). -/
def Queue.reset : Queue :=
  { v := false, dev := false, stopped := false, prio := 0, ctx := 0, diemask := 0, logsize := 0, base := 0, errcode := 0,
    head := 0, tail := 0, counter := 0, started := [] }

def State.queue (s : State) (q : Nat) : Queue := s.queues.getD q Queue.reset
def State.putQueue (s : State) (q : Nat) (e : Queue) : State := { s with queues := s.queues.put q e }

/-- The CTL word of a queue table entry (R347). -/
def Queue.ctl (e : Queue) : Nat :=
  (if e.v then 1 else 0) + (if e.dev then 2 else 0) + (if e.stopped then 4 else 0) + e.prio * 8 + e.ctx * 2 ^ 6 +
  e.diemask * 2 ^ 12

/-- The 32 bytes of a queue table entry (R347). -/
def Queue.toBytes (e : Queue) : List Byte :=
  bytesLE 4 e.ctl ++ bytesLE 4 e.logsize ++ bytesLE 8 e.base ++ bytesLE 4 e.errcode.toNat ++ bytesLE 12 0

/-- The 128 bytes of a context record (R345). -/
def Ctx.toBytes (c : Ctx) : List Byte :=
  bytesLE 8 ((if c.v then 1 else 0) + (if c.busy then 2 else 0) + (if c.err then 4 else 0) + (if c.custom then 8 else 0) +
    c.owner * 2 ^ 8) ++
  bytesLE 8 c.ptroot ++ bytesLE 8 c.splbase ++ bytesLE 8 c.splcount ++ bytesLE 8 c.peertab ++ bytesLE 8 c.peercount ++
  bytesLE 8 c.fqbase ++ bytesLE 8 c.fqlog ++ bytesLE 4 c.mdef.toNat ++ bytesLE 4 c.wdcfg.toNat ++
  bytesLE 4 c.cmpretry.toNat ++ bytesLE 4 c.phvc ++ bytesLE 48 0

/-- Bytes of a queue's region (R347). -/
def Queue.regionSize (e : Queue) : Nat := 64 * (1 + 2 ^ e.logsize)

/-- The defined queue whose region holds an offset of queue memory. -/
def queueAt (s : State) (off : Nat) : Option (Nat × Queue) :=
  s.queues.find? (fun q => q.2.v && decide (q.2.base ≤ off) && decide (off < q.2.base + q.2.regionSize))

/-- The 64 bytes of a queue's control line as they read (R348). -/
def Queue.control (e : Queue) : List Byte :=
  bytesLE 8 e.tail.toNat ++ bytesLE 8 e.counter ++ bytesLE 4 e.head.toNat ++ bytesLE 44 0

/-- A 32-bit device register as it reads; a write-only one reads as zero (R9), none where no rule lays a register. -/
def regRead (s : State) (a : Nat) : Option Nat :=
  if a = lectlAddr then some s.susplim
  else if linkBase ≤ a ∧ a < linkBase + 8 * 2 ^ 16 then
    let l := s.link ((a - linkBase) / 2 ^ 16)
    let o := (a - linkBase) % 2 ^ 16
    if o = 0 then some (if l.err then 1 else 0)
    else if 0x100 ≤ o ∧ o < 0x200 then some (l.res.getD ((o - 0x100) / 4) 0)
    else none
  else if clusterBase ≤ a ∧ a < clusterBase + 224 * 256 then
    let c := s.cluster ((a - clusterBase) / 256)
    let o := (a - clusterBase) % 256
    if o = 0 then some c.bsret.toNat
    else if o = 4 then some c.clwd.toNat
    else if o = 8 then some c.ceclus.toNat
    else if 0x20 ≤ o ∧ o < 0x40 then some (c.cecore.getD ((o - 0x20) / 4) 0).toNat
    else none
  else if sliceBase ≤ a ∧ a < sliceBase + 128 * 256 then
    let m := (a - sliceBase) / 256
    let o := (a - sliceBase) % 256
    if o = 0 then some (s.slret.getD m 0x00010100).toNat
    else if o = 4 then some (s.ceslice.getD m 0).toNat
    else none
  else if a = injectBase then some s.inject.handle.toNat
  else if a = injectBase + 4 then some (s.inject.group + s.inject.ctx * 2 ^ 16)
  else if a = injectBase + 8 then some 0
  else if a = injectBase + 12 then some s.inject.status
  else if cestackBase ≤ a ∧ a < cestackBase + 48 then some (s.drawer.cestack.getD ((a - cestackBase) / 4) 0).toNat
  else if ccwdBase ≤ a ∧ a < ccwdBase + 32 then some (s.ccwd.getD ((a - ccwdBase) / 4) 0x0400).toNat
  else if fqlostBase ≤ a ∧ a < fqlostBase + 256 then some (s.ctx ((a - fqlostBase) / 4)).fqlost
  else none

/-- A byte of device space as it reads. -/
def devByte (s : State) (pa : Nat) : Byte :=
  if qmemBase ≤ pa ∧ pa < qmemBase + qmemSize then
    let off := pa - qmemBase
    match queueAt s off with
    | some (_, e) => if off - e.base < 64 then e.control.getD (off - e.base) 0 else Memory.read s.qmem off
    | none => Memory.read s.qmem off
  else if tableBase ≤ pa ∧ pa < ctxBase then
    (s.queue ((pa - tableBase) / 32)).toBytes.getD ((pa - tableBase) % 32) 0
  else if ctxBase ≤ pa ∧ pa < lectlAddr then
    (s.ctx ((pa - ctxBase) / 128)).toBytes.getD ((pa - ctxBase) % 128) 0
  else match regRead s (pa / 4 * 4) with
    | some w => BitVec.ofNat 8 (w / 2 ^ (8 * (pa % 4)))
    | none => Config.deviceByte s.now pa

/-- n bytes of device space. -/
def devBytes (s : State) (pa n : Nat) : List Byte := (List.range n).map (fun i => devByte s (pa + i))

/-! ## Writes -/

/-- The byte that a write puts at an address. -/
def written (cells : List Host.Cell) (a : Nat) : Option Byte := lastCell cells a

/-- Bytes with those that a write covers replaced, from a base address on. -/
def overlay (cells : List Host.Cell) (base : Nat) (bs : List Byte) : List Byte :=
  bs.zipIdx.map (fun b => (written cells (base + b.2)).getD b.1)

/-- Counts an error of the hub (R338, R348). -/
def State.hubError (s : State) : State := { s with fabric := { s.fabric with errors := s.fabric.errors + 1 } }

/-- TAIL of a queue moves to a value when it is in range (R348). -/
def kick (s : State) (q : Nat) (v : DWord) : State :=
  let e := s.queue q
  let tail : Word := v.setWidth 32
  if 2 ^ 32 ≤ v.toNat ∨ 2 ^ e.logsize < (tail - e.head).toNat then s.hubError
  else s.putQueue q { e with tail := tail }

/-- A write of 8 aligned bytes of a queue's control line (R348). -/
def controlWrite (s : State) (q : Nat) (e : Queue) (base : Nat) (cells : List Host.Cell) : State :=
  if base - qmemBase ≠ e.base then s
  else if e.dev ∨ (List.range 4).any (fun i => (written cells (base + i)).isNone) then s.hubError
  else kick s q (BitVec.ofNat 64 (leVal ((List.range 8).map (fun i => (written cells (base + i)).getD 0))))

/-- The fields of a queue table entry from its bytes, with STOPPED as the byte has it. -/
def Queue.fromBytes (e : Queue) (bs : List Byte) : Queue :=
  let ctl := field bs 0 4
  { e with v := natBit ctl 0, dev := natBit ctl 1, stopped := natBit ctl 2, prio := natBits ctl 3 3, ctx := natBits ctl 6 6,
           diemask := natBits ctl 12 8, logsize := natBits (field bs 4 4) 0 5, base := field bs 8 8 }

/-- A definition keeps the limits of R347 and overlaps no other queue's region. -/
def queueGood (s : State) (q : Nat) (e : Queue) (bs : List Byte) : Bool :=
  natBits (field bs 0 4) 20 12 == 0 && decide (2 ≤ field bs 4 4) && decide (field bs 4 4 ≤ 16) && e.base % 64 == 0 &&
  decide (e.base + e.regionSize ≤ qmemSize) && field bs 0x14 12 == 0 && (s.ctx e.ctx).v &&
  s.queues.all (fun o => o.1 == q || !o.2.v || decide (o.2.base + o.2.regionSize ≤ e.base) ||
    decide (e.base + e.regionSize ≤ o.2.base))

/-- A queue is undefined: grids that it has started go on, and their completion counts nowhere. -/
def Queue.undefine (e : Queue) : Queue :=
  { e with v := false, started := (e.started.filter (fun r => r.kind == 1 && r.result.isNone)).map (fun (r : Started) =>
      { r with index := r.index + 2 ^ 32, inc := 0, flags := 0, status := 0 }) }

/-- A write to a queue table entry (R347). -/
def entryWrite (s : State) (q : Nat) (cells : List Host.Cell) : State :=
  let e := s.queue q
  let base := tableBase + 32 * q
  let bs := overlay cells base { e with stopped := false }.toBytes
  let n := e.fromBytes bs
  let stopped := e.stopped && !n.stopped
  if e.v then
    if n.v then
      if n.dev ≠ e.dev ∨ n.ctx ≠ e.ctx ∨ field bs 4 4 ≠ e.logsize ∨ n.base ≠ e.base then s
      else s.putQueue q { e with prio := n.prio, diemask := n.diemask, stopped := stopped }
    else s.putQueue q { n.undefine with stopped := stopped }
  else if n.v then
    if queueGood s q n bs then s.putQueue q { n with stopped := stopped, head := 0, tail := 0, counter := 0 } else s
  else s.putQueue q { n with stopped := stopped }

/-- No field of a context record holds a reserved value (R345). -/
def ctxGood (bs : List Byte) : Bool :=
  let ctl := field bs 0 8
  natBits ctl 4 4 == 0 && natBits ctl 16 48 == 0 && field bs 8 8 % 2048 == 0 && field bs 0x10 8 % 4096 == 0 &&
  field bs 0x1C 4 == 0 && field bs 0x20 8 % 32 == 0 && decide (field bs 0x28 4 ≤ 4096) && field bs 0x2C 4 == 0 &&
  field bs 0x30 8 % 4096 == 0 && decide (6 ≤ field bs 0x38 4) && decide (field bs 0x38 4 ≤ 16) && field bs 0x3C 4 == 0 &&
  goodMdef (BitVec.ofNat 32 (field bs 0x40 4)) && field bs 0x40 4 == (field bs 0x40 4 &&& 0x03FFFE00) &&
  decide (field bs 0x44 4 < 2 ^ 16) && decide (field bs 0x48 4 < 16) && field bs 0x4D 51 == 0

/-- The fields of a context record from its bytes. -/
def Ctx.fromBytes (c : Ctx) (bs : List Byte) : Ctx :=
  let ctl := field bs 0 4
  { c with v := natBit ctl 0, err := natBit ctl 2, custom := natBit ctl 3, owner := natBits ctl 8 8, ptroot := field bs 8 8,
           splbase := field bs 0x10 8, splcount := field bs 0x18 4, peertab := field bs 0x20 8, peercount := field bs 0x28 4,
           fqbase := field bs 0x30 8, fqlog := field bs 0x38 4, mdef := BitVec.ofNat 32 (field bs 0x40 4),
           wdcfg := BitVec.ofNat 32 (field bs 0x44 4), cmpretry := BitVec.ofNat 32 (field bs 0x48 4), phvc := field bs 0x4C 1 }

/-- A number that names no team. -/
def noTeam : Nat := 2 ^ 40

/-- An export window closes (R340): its generation moves on. -/
def closeWindow (s : State) (w : Nat) : State :=
  { s with fabric := { s.fabric with windows := s.fabric.windows.adjust w (fun x =>
      { x with valid := false, gen := (x.gen + 1) % 256, revoked := some s.clock }) } }

/-- A copy ends with an error before it has moved everything (R326). -/
def Copy.fail (k : Copy) (code sub : Nat) : Copy :=
  { k with todo := [], parts := [], phase := .active, code := if k.code = 0 then code else k.code,
           sub := if k.code = 0 then sub else k.sub }

/-- A BOPEN has been matched with a held give: the give is that BOPEN's (R262). -/
def giveTaken (s : State) (x : Give) : Bool :=
  s.ops.any (fun o => match o.2.body with | .bopen _ _ _ _ _ (some k) => k == x.op | _ => false)

/-- A context is destroyed (R345): V clears, BUSY sets, and what it owned ends. Images that the finaliser holds stay, whichever
context loaded them (DESIGN CHOICE: R117 gives a held image no end; log entry 21). -/
def destroyCtx (s : State) (c : Nat) : State :=
  let s := s.putCtx c { s.ctx c with v := false, busy := true }
  let s := { s with copies := s.copies.map (fun (k : Nat × Copy) =>
    (k.1, if k.2.ctx = c ∧ k.2.phase ≠ CopyPhase.finished then k.2.fail 0x20 4 else k.2)) }
  let s := s.clusters.foldl (fun (s : State) (e : Nat × Cluster) =>
    let held := e.2.gives.filter (fun (x : Give) => x.ctx == c && !giveTaken s x)
    let s := held.foldl (fun s x => if x.landed then s.releaseBank e.1 x.bank else s) s
    s.putCluster e.1 { s.cluster e.1 with gives := (s.cluster e.1).gives.filter (fun (x : Give) => !held.contains x) }) s
  let s := { s with queues := s.queues.map (fun (q : Nat × Queue) => (q.1, if q.2.v && q.2.ctx == c then q.2.undefine else q.2)) }
  let s := (s.fabric.windows.filter (fun w => w.2.valid && w.2.ctx == c)).foldl (fun s w => closeWindow s w.1) s
  let s := (s.vcs.filter (fun v => v.2.ctx == c)).foldl (fun s v => s.hiddenOp noTeam (.vcundef v.1)) s
  ((s.teams.filter (fun t => t.2.ctx == c)).map (·.1)).foldl terminateTeam s

/-- A write to a context record (R345). -/
def ctxWrite (s : State) (c : Nat) (cells : List Host.Cell) : State :=
  let x := s.ctx c
  if x.busy then s else
  let bs := overlay cells (ctxBase + 128 * c) { x with err := false, busy := false }.toBytes
  let bs := bs.zipIdx.map (fun (b : Byte × Nat) => if b.2 = 0 then b.1 &&& 0xFD else b.1)
  if !ctxGood bs then s.putCtx c { x with err := true } else
  let n := x.fromBytes bs
  if n.v ∧ s.mgmt.mismatch then s else
  let n := { n with err := x.err && !n.err }
  if n.v ∧ !x.v then
    let n := if n.custom then n else { n with mdef := 0, wdcfg := 0x0100, cmpretry := 2 }
    s.putCtx c { n with fqseq := 0 }
  else if x.v ∧ !n.v then destroyCtx (s.putCtx c { n with v := true }) c
  else s.putCtx c n

/-- Applies or queues a value of the injection port (R447). -/
def injectWrite (s : State) (w : Word) : State :=
  let p := s.inject
  let done (st : Nat) (p : Inject) : State := { s with inject := { p with status := st } }
  if natBits p.handle.toNat 20 12 = 0xFFF then
    if !goodErrinj 1 w then done 3 p
    else done 1 { p with pending := p.pending ++ [(p.ctx % 64, natBits p.handle.toNat 0 20, p.group, w &&& errinjMask)] }
  else
    match s.teams.find? (fun t => t.2.handle == p.handle && (t.2.group? p.group).isSome) with
    | none => done 2 p
    | some t =>
      if !goodErrinj t.2.desc.protect w then done 3 p
      else done 1 { p with armed := p.armed ++ (s.pairOf t.1).map (fun i => (i, p.group, w &&& errinjMask)) }

/-- RES of a class is written when the limits of R479 hold; else ERR is set. -/
def clsresWrite (s : State) (g c v : Nat) : State :=
  let l := s.link g
  let res := l.res.setD c v 0
  if 1024 < v ∨ 1024 < res.foldl (fun n x => n + x.2) 0 then s.putLink g { l with err := true }
  else s.putLink g { l with res := res }

/-- A 32-bit register takes a value, with its bytes outside the write as they were (R503); w1 holds the bits written as 1. -/
def regWrite (s : State) (a v w1 : Nat) : State :=
  let word : Word := BitVec.ofNat 32 v
  if a = lectlAddr then { s with susplim := v % 2 ^ 16 }
  else if linkBase ≤ a ∧ a < linkBase + 8 * 2 ^ 16 then
    let g := (a - linkBase) / 2 ^ 16
    let o := (a - linkBase) % 2 ^ 16
    if o = 0 then (if natBit w1 0 then s.putLink g { s.link g with err := false } else s)
    else if 0x100 ≤ o ∧ o < 0x200 then clsresWrite s g ((o - 0x100) / 4) (natBits v 0 11)
    else s
  else if clusterBase ≤ a ∧ a < clusterBase + 224 * 256 then
    let k := (a - clusterBase) / 256
    let c := s.cluster k
    let o := (a - clusterBase) % 256
    if o = 0 then s.putCluster k { c with bsret := word &&& 0x1FFFF }
    else if o = 4 then
      let trip := if natBit w1 16 then 0 else c.clwd &&& 0x10000
      (s.putCluster k { c with clwd := (word &&& 0xFFFF) ||| trip }).watchCommand (k / 28)
    else if o = 8 then s.putCluster k { c with ceclus := word &&& 0xFFFF }
    else if 0x20 ≤ o ∧ o < 0x40 then s.putCluster k { c with cecore := c.cecore.setD ((o - 0x20) / 4) (word &&& 0xFFFF) 0 }
    else s
  else if sliceBase ≤ a ∧ a < sliceBase + 128 * 256 then
    let m := (a - sliceBase) / 256
    let o := (a - sliceBase) % 256
    if o = 0 then { s with slret := s.slret.setD m (word &&& 0x1FFFF) 0x00010100 }
    else if o = 4 then { s with ceslice := s.ceslice.setD m (word &&& 0xFFFF) 0 }
    else s
  else if a = injectBase then { s with inject := { s.inject with handle := word } }
  else if a = injectBase + 4 then
    { s with inject := { s.inject with group := natBits v 0 16, ctx := natBits v 16 6 } }
  else if cestackBase ≤ a ∧ a < cestackBase + 48 then
    { s with drawer := { s.drawer with cestack := s.drawer.cestack.setD ((a - cestackBase) / 4) (word &&& 0xFFFF) 0 } }
  else if ccwdBase ≤ a ∧ a < ccwdBase + 32 then
    { s with ccwd := s.ccwd.setD ((a - ccwdBase) / 4) (word &&& 0xFFFF) 0x0400 }
  else if fqlostBase ≤ a ∧ a < fqlostBase + 256 then
    s.putCtx ((a - fqlostBase) / 4) { s.ctx ((a - fqlostBase) / 4) with fqlost := v % 2 ^ 32 }
  else s

/-- What kind of write a part of device space takes; the names are those of the events. -/
inductive DevKind where
  | memory
  | kick
  | queueDefine
  | queueUndefine
  | queueEntry
  | ctxDefine
  | ctxDestroy
  | ctxRecord
  | injection
  | clsres
  | register
  deriving DecidableEq, Repr

/-- The part of device space that an address belongs to, by its first address and size. -/
def devUnit (pa : Nat) : Nat × Nat :=
  if pa < qmemBase + qmemSize then (pa / 8 * 8, 8)
  else if tableBase ≤ pa ∧ pa < ctxBase then (pa / 32 * 32, 32)
  else if ctxBase ≤ pa ∧ pa < lectlAddr then (pa / 128 * 128, 128)
  else (pa / 4 * 4, 4)

/-- The kind of a write of cells to the part at a base. -/
def devKind (s : State) (base : Nat) (cells : List Host.Cell) : DevKind :=
  if base < qmemBase + qmemSize then
    match queueAt s (base - qmemBase) with
    | some (_, e) => if base - qmemBase - e.base < 64 then .kick else .memory
    | none => .memory
  else if tableBase ≤ base ∧ base < ctxBase then
    let q := (base - tableBase) / 32
    match written cells base with
    | some b => if b.getLsbD 0 && !(s.queue q).v then .queueDefine
                else if !b.getLsbD 0 && (s.queue q).v then .queueUndefine else .queueEntry
    | none => .queueEntry
  else if ctxBase ≤ base ∧ base < lectlAddr then
    let c := (base - ctxBase) / 128
    match written cells base with
    | some b => if b.getLsbD 0 && !(s.ctx c).v then .ctxDefine
                else if !b.getLsbD 0 && (s.ctx c).v then .ctxDestroy else .ctxRecord
    | none => .ctxRecord
  else if injectBase ≤ base ∧ base < injectBase + 16 then .injection
  else if linkBase ≤ base ∧ base < linkBase + 8 * 2 ^ 16 then .clsres
  else .register

/-- A write of cells to one part of device space. -/
def unitWrite (s : State) (base : Nat) (cells : List Host.Cell) : State :=
  if base < qmemBase + qmemSize then
    let off := base - qmemBase
    let plain : State := { s with qmem := Memory.writeAll s.qmem (cells.map (fun c => (c.1 - qmemBase, c.2))) }
    match queueAt s off with
    | some (q, e) => if off - e.base < 64 then controlWrite s q e base cells else plain
    | none => plain
  else if tableBase ≤ base ∧ base < ctxBase then entryWrite s ((base - tableBase) / 32) cells
  else if ctxBase ≤ base ∧ base < lectlAddr then ctxWrite s ((base - ctxBase) / 128) cells
  else if base = injectBase + 8 then
    if (List.range 4).all (fun i => (written cells (base + i)).isSome) then
      injectWrite s (BitVec.ofNat 32 (leVal (overlay cells base (bytesLE 4 0))))
    else s
  else
    let old := (regRead s base).getD 0
    regWrite s base (leVal (overlay cells base (bytesLE 4 old))) (leVal (overlay cells base (bytesLE 4 0)))

/-- The parts of device space that a write covers, in the order in which it names them. -/
def devUnits (cells : List Host.Cell) : List (Nat × List Host.Cell) :=
  ((cells.map (fun c => devUnit c.1)).eraseDups).map (fun u =>
    (u.1, cells.filter (fun c => decide (u.1 ≤ c.1) && decide (c.1 < u.1 + u.2))))

/-- A write of cells to device space. -/
def devWrite (s : State) (cells : List Host.Cell) : State :=
  (devUnits cells).foldl (fun s u => unitWrite s u.1 u.2) s

/-- A write whose parts are of one of the kinds; it acts on nothing otherwise. -/
def devWriteOf (ks : List DevKind) (e : Subject) (s : State) : State :=
  (devUnits e.bytes).foldl (fun s u =>
    if decide (qmemBase ≤ u.1) && ks.contains (devKind s u.1 u.2) then unitWrite s u.1 u.2 else s) s

/-! ## Events of device writes -/

/-- KICK_WRITE (R348): the subject's bytes are the write, by physical address. -/
def execKickWrite (s : State) : Host.Outcome State Fault Refusal := onEvent (devWriteOf [.kick]) s
/-- CONTEXT_DEFINE (R345, R496). -/
def execContextDefine (s : State) : Host.Outcome State Fault Refusal := onEvent (devWriteOf [.ctxDefine]) s
/-- CONTEXT_DESTROY (R345). -/
def execContextDestroy (s : State) : Host.Outcome State Fault Refusal := onEvent (devWriteOf [.ctxDestroy]) s
/-- CONTEXT_RECORD_WRITE (R345). -/
def execContextRecordWrite (s : State) : Host.Outcome State Fault Refusal := onEvent (devWriteOf [.ctxRecord]) s
/-- QUEUE_DEFINE (R347). -/
def execQueueDefine (s : State) : Host.Outcome State Fault Refusal := onEvent (devWriteOf [.queueDefine]) s
/-- QUEUE_UNDEFINE (R347). -/
def execQueueUndefine (s : State) : Host.Outcome State Fault Refusal := onEvent (devWriteOf [.queueUndefine]) s
/-- QUEUE_ENTRY_WRITE (R347). -/
def execQueueEntryWrite (s : State) : Host.Outcome State Fault Refusal := onEvent (devWriteOf [.queueEntry]) s
/-- INJECTION_PORT_WRITE (R447). -/
def execInjectionPortWrite (s : State) : Host.Outcome State Fault Refusal := onEvent (devWriteOf [.injection]) s
/-- CLSRES_WRITE (R479). -/
def execClsresWrite (s : State) : Host.Outcome State Fault Refusal := onEvent (devWriteOf [.clsres]) s
/-- REGISTER_WRITE (R503); a write of queue memory outside the control lines is one too. -/
def execRegisterWrite (s : State) : Host.Outcome State Fault Refusal := onEvent (devWriteOf [.register, .memory]) s

/-- Something of a context being destroyed is still there (R345). -/
def ctxBusy (s : State) (c : Nat) : Bool :=
  s.teams.any (fun t => t.2.ctx == c) || s.copies.any (fun k => k.2.ctx == c && k.2.phase != .finished) ||
  s.vcs.any (fun v => v.2.ctx == c) || s.fabric.windows.any (fun w => w.2.ctx == c && !w.2.accepted.isEmpty)

/-- CONTEXT_DESTRUCTION_DONE (R345): BUSY clears once nothing of the context is left. -/
def execContextDestructionDone (s : State) : Host.Outcome State Fault Refusal :=
  onEvent (fun e s =>
    if (s.ctx e.a).busy && !ctxBusy s e.a then s.putCtx e.a { s.ctx e.a with busy := false } else s) s

end Sys2Proof.Machine
end

