-- ==== Sys2Proof/Machine/Reach.lean ====
section
/-! DEFINITION. What an access meets where it goes: retention of slice banks (R286), copies in L1 (R228 to R233), translated
reads and writes that the copy engine, the tile fetch unit and the fabric port make (log entry 12), first-write saves of
scratch words (R412), the atomic step at a home slice (R300), and the end of a memory operation's lane (R243 to R245). -/

namespace Sys2Proof.Machine

/-! ## Retention of slice banks (R286) -/

/-- An idle slice bank enters retention (R286): the subject names slice and bank. -/
def execSliceRetentionEntry (s : State) : Host.Outcome State Fault Refusal :=
  onEvent (fun e s =>
    let b := e.a * 12 + e.b
    let n := (s.slret.getD e.a 0x00010100).toNat
    let idle := natBits n 0 16
    let set (r : Retention) : State := { s with sliceRet := s.sliceRet.setD b r .active }
    let clearing := s.vcs.any (fun v => v.2.clearing.any (fun c => shareBank c.1 == b))
    match s.sliceRet.getD b .active with
    | .active =>
      if !natBit n 16 ∨ idle = 0 ∨ clearing ∨ s.clock < s.sliceUse.getD b 0 + idle * 1024 then s else set (.entering s.clock)
    | .entering since => if s.clock < since + 16384 then s else set .retained
    | _ => s) s

/-- A slice bank has left retention (R286). -/
def execSliceRetentionExitDone (s : State) : Host.Outcome State Fault Refusal :=
  onEvent (fun e s =>
    let b := e.a * 12 + e.b
    match s.sliceRet.getD b .active with
    | .leaving due => if s.clock < due then s else
        { s with sliceRet := s.sliceRet.setD b .active .active, sliceUse := s.sliceUse.setD b s.clock 0 }
    | _ => s) s

/-! ## L1 (R228, R233) -/

/-- The core whose L1 portion holds a line for a core. -/
def State.l1Key (s : State) (core pa : Nat) : Nat :=
  if core < 1792 ∧ (s.cluster (core / 8)).fused then core / 8 * 8 + pa / 256 % 8 else core

/-- The set of a line within its portion. -/
def State.l1Set (s : State) (core line : Nat) : Nat :=
  if core < 1792 ∧ (s.cluster (core / 8)).fused then line / 8 % 64 else line % 64

/-- Changes the L1 line of an address in the portion that serves a core. -/
def State.onLine (s : State) (core vc pa : Nat) (f : L1Line → L1Line) : State :=
  let k := s.l1Key core pa
  let c := s.core k
  if !c.l1.any (fun l => l.vc == vc && l.line == pa / 256) then s else
  let ls := c.l1.map (fun (l : L1Line) => if l.vc = vc ∧ l.line = pa / 256 then f l else l)
  s.putCore k { c with l1 := ls.filter (fun l => !l.sectors.isEmpty) }

/-- Drops a sector from the L1 that serves a core, with the parity of its words. -/
def State.dropSector (s : State) (core vc pa : Nat) : State :=
  s.onLine core vc pa (fun l => { l with sectors := l.sectors.del (pa / 64 % 4), bad := l.bad.filter (fun w => w / 16 != pa / 64 % 4) })

/-- The cores that a team occupies. -/
def Team.cores (t : Team) : List Nat := (t.groups.map (·.core)).eraseDups

/-! ## Engine accesses (log entry 12) -/

/-- What an engine's access comes to: bytes and state, a wait, an invalid entry, a link group that carries nothing, or an
error. -/
inductive Reach where
  | ok (bs : List Byte) (s : State)
  | wait (s : State)
  | page (entry : Nat)
  | stall (link : Nat)
  | bad (code sub : Nat)

/-- A link group has carried nothing for 2,048 clocks (R475). -/
def State.linkLost (s : State) (g : Nat) : Bool :=
  match (s.link g).st with
  | .retrain t => decide (t + 2048 ≤ s.clock)
  | .down _ => true
  | .live => false

/-- A link group carries slots. -/
def State.linkLive (s : State) (g : Nat) : Bool := (s.link g).st == .live

/-- Where an engine keeps the translations that it has made (R240): nowhere, with the copy engine of a cluster, or with its tile
fetch unit. -/
inductive TlbAt where
  | nowhere
  | copies (cluster : Nat)
  | tiles (cluster : Nat)
  deriving DecidableEq, Repr

/-- The translations that an engine has kept. -/
def State.engineTlb (s : State) : TlbAt → List Tlb
  | .nowhere => []
  | .copies k => (s.cluster k).copyTlb
  | .tiles k => (s.cluster k).tileTlb

/-- An engine keeps a translation. -/
def State.keepEngine (s : State) (at? : TlbAt) (e : Tlb) : State :=
  let new (ts : List Tlb) : List Tlb := e :: ts.filter (fun x => x.ctx != e.ctx || x.base != e.base || x.size != e.size)
  match at? with
  | .nowhere => s
  | .copies k => s.putCluster k { s.cluster k with copyTlb := new (s.cluster k).copyTlb }
  | .tiles k => s.putCluster k { s.cluster k with tileTlb := new (s.cluster k).tileTlb }

/-- A translation as an engine makes it: from what it has kept, where a free value says that it still has it (R240, R241; log
entry 14), or by a walk. None while a table lies in a slice bank in retention (R286). -/
def engineLeaf (s : State) (at? : TlbAt) (ctx : Nat) (va : DWord) (need : Need) : Option Walk × State :=
  let fresh (s : State) : Option Walk × State :=
    match s.wakeWalk ctx va with
    | (false, s) => (none, s)
    | (true, s) =>
      match walk s ctx va need with
      | .ok l => (some (.ok l), s.keepEngine at? (l.asTlb ctx))
      | w => (some w, s)
  match (s.engineTlb at?).find? (fun e => e.covers ctx va.toNat) with
  | none => fresh s
  | some e =>
    let (n, s) := s.free
    if n % 2 = 0 then (some (leafCheck s ctx need (e.leafAt va)), s) else fresh s

/-- What an engine does with a translation that has come to its end. -/
def withLeaf (s : State) (at? : TlbAt) (ctx : Nat) (va : DWord) (need : Need) (own : State → Leaf → Reach) : Reach :=
  match engineLeaf s at? ctx va need with
  | (none, s) => .wait s
  | (some (.page e), _) => .page e
  | (some (.fault c _), _) => .bad c (if c = 0x12 then 0 else 1)
  | (some (.ok l), s) => own s l

/-- A translated read of at most one sector by an engine for a team of a context. -/
def readGlobal (s : State) (team ctx : Nat) (va : DWord) (n : Nat) (at? : TlbAt := .nowhere) : Reach :=
  withLeaf s at? ctx va .load (fun s l =>
    if 2 ^ 40 ≤ l.pa then .ok (devBytes s l.pa n) s
    else if provBlocked s team (homeKey l.vc l.pa) then .wait s
    else
      match s.wakeSlice l.vc l.pa with
      | (false, s) => .wait s
      | (true, s) =>
        if !present s l.vc l.pa && !s.linkLive (s.homeDie l.vc l.pa) then .stall (s.homeDie l.vc l.pa)
        else if homePoison s l.vc l.pa then .bad 0x17 0
        else .ok (homeBytes s l.vc n l.pa) (s.correct l.vc l.pa))

/-- A translated read of at most one sector of drawer-direct space through a die's link group. -/
def readDrawer (s : State) (ctx die : Nat) (va : DWord) (n : Nat) (at? : TlbAt := .nowhere) : Reach :=
  withLeaf s at? ctx va .load (fun s l =>
    if 2 ^ 40 ≤ l.pa then .bad 0x11 1
    else if !s.linkLive die then .stall die
    else if s.drawer.poison.contains (l.pa / 64) then .bad 0x17 0
    else .ok ((List.range n).map (fun i => s.drawer.byte (l.pa + i))) s)

/-- A translated write of at most one sector by an engine for a team, at a level. -/
def writeGlobal (s : State) (team lvl ctx : Nat) (va : DWord) (bs : List Byte) (cpol : Nat) (at? : TlbAt := .nowhere) : Reach :=
  withLeaf s at? ctx va .store (fun s l =>
    if 2 ^ 40 ≤ l.pa then .ok [] (devWrite s (cellsAt l.pa bs))
    else
      match s.wakeSlice l.vc l.pa with
      | (false, s) => .wait s
      | (true, s) =>
        match homeWrite s team lvl l.vc (cellsAt l.pa bs) cpol with
        | .wait => .wait s
        | .overflow => .bad 0x1C 0
        | .done s =>
          let s := hitRegions s ctx va.toNat bs.length
          let cores := match s.teams.find team with | some t => t.cores | none => []
          .ok [] (cores.foldl (fun s k => s.dropSector k l.vc l.pa) s))

/-- A translated write of drawer-direct space through a die's link group, with somebody waiting for it. -/
def writeDrawer (s : State) (ctx die : Nat) (va : DWord) (bs : List Byte) (waiter : Nat) (at? : TlbAt := .nowhere) : Reach :=
  withLeaf s at? ctx va .store (fun s l =>
    if 2 ^ 40 ≤ l.pa then .bad 0x11 1
    else .ok [] (queueWrite s die l.lclass (cellsAt l.pa bs) none false (some waiter)))

/-! ## Atomics at a home slice (R299, R300, R417) -/

/-- The value that an atomic writes; none for a cas that fails. c is the compare value of a cas. -/
def atomicNew (op : Nat) (wide : Bool) (tag old d c : Nat) : Option Nat :=
  let w := if wide then 64 else 32
  let less (a b : Nat) : Bool := if tag = 0 then decide (signed w a < signed w b) else decide (a < b)
  match op with
  | 0 => some (if tag = 2 then (fp32.addV 0 (fp32.read old) (fp32.read d)).v else (old + d) % 2 ^ w)
  | 1 => some (if tag = 2 then (fp32.addV 0 (fp32.read old) (fp32.read d).neg).v else (old + 2 ^ w - d) % 2 ^ w)
  | 2 => some (if tag = 2 then (fp32.minMax false old d).v else if less old d then old else d)
  | 3 => some (if tag = 2 then (fp32.minMax true old d).v else if less old d then d else old)
  | 4 => some (old &&& d)
  | 5 => some (old ||| d)
  | 6 => some (old ^^^ d)
  | 7 => some d
  | 8 => if old = c then some d else none
  | 9 => some (if d ≤ old then 0 else old + 1)
  | _ => some (if old = 0 ∨ d < old then d else old - 1)

/-- The bytes that an atomic wrote in a provisional sector stay when the sector is restored (R417). -/
def markKept (s : State) (key lo n : Nat) : State :=
  let mask := (List.range n).foldl (fun (m : DWord) i => m ||| BitVec.twoPow 64 (lo + i)) 0
  { s with teams := s.teams.map (fun (e : Nat × Team) => (e.1, { e.2 with levels := e.2.levels.map (fun (l : Level) =>
      { l with entries := l.entries.map (fun (u : Undo) => match u with
          | .sector k old keep => if k = key then .sector k old (keep ||| mask) else u
          | u => u) }) })) }

/-- A sector that is not there is asked for. -/
def askFill (s : State) (vc pa cpol : Nat) : State :=
  match s.homes.find (homeKey vc pa) with
  | some x => (match x.st with
    | .invalid => startFill s vc pa (policyPrio cpol)
    | _ => s)
  | none => startFill s vc pa (policyPrio cpol)

/-- The value of an atomic is written where it has been read: at a home sector, or, served without allocation, below it (R283). -/
def atomicWrite (s : State) (vc pa n v cpol : Nat) (here : Bool) : State :=
  let cells := cellsAt pa (bytesLE n v)
  let s := if here then cells.foldl (fun s x => homePut s vc x.1 x.2 cpol) s else s
  let through := match s.vcs.find vc with | some v => v.wpol != 0 | none => false
  let s := if through || !here then queueVcWrite s vc cells false else s
  onHomeWrite (if here then markKept s (homeKey vc pa) (pa % 64) n else s) vc pa false

/-- One atomic of a team at its home slice, as one step: the old bytes, or what it waits for. A sector that is not there is
filled first; where it finds no way, or may not be kept, the atomic is served without allocation (R283, R297). -/
def homeAtomic (s : State) (team vc pa op : Nat) (wide : Bool) (tag d c cpol : Nat) : Reach :=
  let n := if wide then 8 else 4
  if provBlocked s team (homeKey vc pa) then .wait s else
  match s.wakeSlice vc pa with
  | (false, s) => .wait s
  | (true, s) =>
    let pending := match s.homes.find (homeKey vc pa) with
      | some x => (match x.st with | .pending _ => true | _ => false)
      | none => false
    let here := present s vc pa
    if !here && !s.linkLive (s.homeDie vc pa) then .stall (s.homeDie vc pa)
    else if !here && (pending || (cpol != 3 && (makeRoom s vc pa).isSome)) then .wait (askFill s vc pa cpol)
    else if homePoison s vc pa then .bad 0x17 0
    else
      let s := s.correct vc pa
      let bs := homeBytes s vc n pa
      match atomicNew op wide tag (leVal bs) d c with
      | none => .ok bs (touchHome s vc pa cpol)
      | some v => .ok bs (atomicWrite s vc pa n v cpol here)

/-! ## Writes to a bank inside a level (R412) -/

/-- Saves the scratch words that a write of a team to a slot covers, for its innermost level; none when the region is
full (R414). -/
def Team.saveWords (t : Team) (slot : Nat) (mem : List Host.Cell) (offs : List Nat) : Option Team :=
  if t.levels.isEmpty then some t else
  ((offs.map (fun o => o / 4)).eraseDups).foldl (fun a w => a.bind (fun t =>
    if t.hasSaved (fun u => match u with | .word k o _ => k == slot && o == 4 * w | _ => false) then some t
    else t.save (.word slot (4 * w) (BitVec.ofNat 32 (leVal (Memory.readN mem 4 (4 * w))))))) (some t)

/-- The slot that a bank of a team is attached to. -/
def Team.slotOf (t : Team) (bank : Nat) : Option Nat := t.slots.findIdx? (fun x => x == .attached bank || x == .leaving bank)

/-- A write of cells (by bank offset) to a bank of a pool for a team inside its level; none when a save does not fit. A
bank that is no longer the team's is written without a save. -/
def bankWrite (s : State) (team pool b : Nat) (cells : List Host.Cell) : Option State :=
  let put (s : State) : State := s.onBank pool b (fun x => x.write s.clock cells)
  match s.teams.find team with
  | none => some (put s)
  | some t =>
    match t.slotOf b with
    | none => some (put s)
    | some slot => (t.saveWords slot ((s.cluster pool).bank b).mem (cells.map (·.1))).map (fun t => put (s.putTeam team t))

/-! ## The end of a lane (R223, R243 to R245) -/

/-- Changes one lane of an operation. -/
def setLane (s : State) (o : Op) (m : MemOp) (lane : Nat) (f : LaneAcc → LaneAcc) : State :=
  s.setBody o.id (.mem { m with accs := m.accs.map (fun (a : LaneAcc) => if a.lane = lane then f a else a) })

/-- A leading copy's load has every lane: its channel entry is filled (R433). -/
def loadChannel (s : State) (o : Op) (m : MemOp) : State :=
  match s.teams.find o.team with
  | some t => if t.copy == .leading && m.space.shared && (m.kind == .load || m.kind == .loadU) then
      fillChannel s t.id o.id (1 :: channelLanes m.accs) else s
  | none => s

/-- Gangs of a group, and where a system-mode shadow keeps them, that still stand at the word of an operation. -/
def Group.awaits (g : Group) (op : Nat) : Bool :=
  g.allGangs.any (fun k => k.wait == .translate op || k.wait == .replay op || (match k.wait with
    | .parked i => i == op && k.run.bind (·.op) == some op
    | .timer i _ => i == op && k.run.bind (·.op) == some op
    | _ => false))

/-- The gang of an operation parks where it stands, when nothing else holds it (R245). -/
def Gang.parkFor (k : Gang) (op : Nat) : Gang :=
  match k.wait with
  | .none => { k with wait := .parked op }
  | .woken => { k with wait := .parked op }
  | _ => k

/-- After the end of a lane whose gang has gone on from the word: once the outcome of every lane is known, faults met at delivery
are taken, and with them lanes that wait on LINKSTALL are dropped (R243, R244); where every fault is LINKSTALL the gang parks, and
one record is posted for it (R245). A gang that still stands at the word judges the lanes itself. -/
def laneOver (s : State) (id : Nat) : State :=
  match s.ops.find id, (s.ops.find id).map (fun (o : Op) => o.body) with
  | some o, some (.mem m) =>
    (match s.teams.find o.team, s.group? o.team o.group with
    | some t, some g =>
      let out := match m.kind with | .atomn _ => opBlocksOut s id | _ => false
      if g.awaits id || out || !m.accs.all (fun a => a.st.ended || a.st.soft) then s else
      let uniform := if m.kind = .loadU ∨ m.kind = .storeU then some o.lanes else none
      (match memFaultInfo uniform m.accs with
      | some f =>
        let m' := m.setLanes (fun a => a.st.soft) .dropped
        (takeLate (loadChannel (s.setBody id (.mem m')) o m') o f).completeOp id
      | none =>
        if !m.accs.any (fun a => a.st.soft) then loadChannel s o m else
        if m.loose then s.setBody id (.mem (m.setLanes (fun a => a.st.soft) .dropped)) else
        let f := parkInfo uniform m.accs
        let r : Record := { code := f.code, kind := 0, inrun := true, replay := true, sysmode := g.sysmode, double := false,
                            group := g.id, num := 0, iaddr := o.iaddr, lanes := f.lanes, faddr := f.faddr }
        let s := if m.posted then s else postTeam s t 1 r
        (s.setBody id (.mem { m with posted := true })).onGroup o.team o.group (fun x => x.onGang o.gang (fun k => k.parkFor id)))
    | _, _ => s)
  | _, _ => s

end Sys2Proof.Machine
end

