-- ==== Sys2Proof/Machine/Copies.lean ====
section
/-! DEFINITION. The copy engine (R317 to R330): descriptors, the checks at issue, batches, the movement of bytes, and how a
copy ends. -/

namespace Sys2Proof.Machine

/-! ## The descriptor (R317 to R319) -/

/-- Word k of a descriptor. -/
def dword (ws : List Word) (k : Nat) : Nat := (ws.getD k 0).toNat
/-- Words k and k + 1, low word first. -/
def dpair (ws : List Word) (k : Nat) : DWord := BitVec.ofNat 64 (dword ws k + 2 ^ 32 * dword ws (k + 1))
/-- Word k as a signed number. -/
def dsigned (ws : List Word) (k : Nat) : Int := signed 32 (dword ws k)

def sSpace (ws : List Word) : Nat := natBits (dword ws 4) 29 3
def dSpace (ws : List Word) : Nat := natBits (dword ws 4) 26 3
def iSpace (ws : List Word) : Nat := natBits (dword ws 4) 20 3
def eSize (ws : List Word) : Nat := [4, 8, 16, 64, 256].getD (natBits (dword ws 4) 23 3) 4
def swEn (ws : List Word) : Bool := natBit (dword ws 4) 19
def copyOp (ws : List Word) : Nat := natBits (dword ws 4) 15 4
def copySgn (ws : List Word) : Bool := natBit (dword ws 4) 14
def copyWide (ws : List Word) : Bool := natBit (dword ws 4) 13

/-- Function numbers (R320). -/
def fnCopy2d : Nat := 1
def fnGath : Nat := 2
def fnScat : Nat := 3
def fnFill : Nat := 4
def fnPut : Nat := 8
def fnGet : Nat := 9
def fnAtom : Nat := 10

/-- Words that an instruction uses (R319). -/
def usedWords (fn : Nat) (ws : List Word) : List Nat :=
  4 :: (if swEn ws then [11] else []) ++
  (if fn = fnGath ∨ fn = fnScat then [0, 1, 2, 3, 6, 9, 10]
   else if fn = fnFill then [0, 2, 3, 5]
   else if fn = fnAtom then [0, 2, 3] ++ (if copyWide ws then [1] else []) ++
     (if copyOp ws = 8 then (if copyWide ws then [9, 10] else [9]) else [])
   else if fn = fnCopy2d then [0, 1, 2, 3, 5, 6, 7, 8]
   else [0, 1, 2, 3, 5])

/-- Bits of CTRL that an instruction uses (R318, R319). -/
def ctrlMask (fn : Nat) : Nat :=
  if fn = fnGath ∨ fn = fnScat then 0xFFF80000
  else if fn = fnFill ∨ fn = fnGet then 0x1C080000
  else if fn = fnPut then 0xE0080000
  else if fn = fnAtom then 0x0007E000
  else 0xFC080000

/-- CTRL holds a reserved value or an unused bit. -/
def ctrlBad (fn : Nat) (ws : List Word) : Bool :=
  let c := dword ws 4
  (c &&& (0xFFFFFFFF - ctrlMask fn)) != 0 || !([0, 1, 3].contains (sSpace ws)) || !([0, 1, 3].contains (dSpace ws)) ||
  (fn != fnAtom && decide (1 < iSpace ws)) || ((fn == fnGath || fn == fnScat) && decide (4 < natBits c 23 3)) ||
  (fn == fnAtom && (decide (10 < copyOp ws) || (decide (9 ≤ copyOp ws) && copyWide ws)))

/-- A word holds a value outside its limits, or is not used and not zero. -/
def wordBad (fn : Nat) (ws : List Word) (k : Nat) : Bool :=
  let v := dword ws k
  if !(usedWords fn ws).contains k then v != 0 else
  match k with
  | 4 => ctrlBad fn ws
  | 5 => v == 0 || decide (2 ^ 24 < v) || (fn == fnFill && v % 4 != 0)
  | 6 => v == 0 || decide (65536 < v)
  | _ => false

/-- The extent of one side of a copy (word 0, 2 or 9): bytes of a row, rows, distance between rows. -/
def sideSpan (fn : Nat) (ws : List Word) (side : Nat) : Int × Int × Int :=
  let n : Int := (dword ws 5 : Int)
  let c : Int := (dword ws 6 : Int)
  let e : Int := (eSize ws : Int)
  if side = 9 then (4 * c, 1, 0)
  else if fn = fnCopy2d then (n, c, dsigned ws (if side = 0 then 7 else 8))
  else if fn = fnGath then (if side = 0 then (e, 1, 0) else (c * e, 1, 0))
  else if fn = fnScat then (if side = 0 then (c * e, 1, 0) else (e, 1, 0))
  else (n, 1, 0)

/-- The sides of a copy that lie in local memory, with their spaces. -/
def localSides (fn : Nat) (ws : List Word) : List (Nat × Nat) :=
  (if fn ≤ 3 ∨ fn = fnPut then [(0, sSpace ws)] else []) ++ (if fn ≤ 4 ∨ fn = fnGet then [(2, dSpace ws)] else []) ++
  (if fn = fnGath ∨ fn = fnScat then [(9, iSpace ws)] else [])

/-- Every row of a scratch side lies in one slot. -/
def inOneSlot (a : Nat) (span : Int × Int × Int) : Bool :=
  let base : Int := ((a / 32768 * 32768 : Nat) : Int)
  let last : Int := (a : Int) + (span.2.1 - 1) * span.2.2
  decide (base ≤ min (a : Int) last) && decide (max (a : Int) last + span.1 ≤ base + 32768)

/-- OPERAND of a descriptor's content: its datum (R319). -/
def descBad (fn : Nat) (ws : List Word) : Option Nat :=
  match (List.range 16).find? (wordBad fn ws) with
  | some k => some (if k = 4 then 0x14 else k)
  | none =>
    if fn = fnCopy2d ∧ 2 ^ 28 < dword ws 5 * dword ws 6 then some 6
    else ((localSides fn ws).find? (fun x => x.2 == 1 && !inOneSlot (dpair ws x.1).toNat (sideSpan fn ws x.1))).map (·.1)

/-- Bytes that a copy moves. -/
def copyTotal (fn : Nat) (ws : List Word) : Nat :=
  if fn = fnCopy2d then dword ws 5 * dword ws 6
  else if fn = fnGath ∨ fn = fnScat then dword ws 6 * eSize ws
  else if fn = fnAtom then 1
  else dword ws 5

/-- The remote address of a remote operation (R335). -/
def remoteAddr (fn : Nat) (ws : List Word) : DWord := dpair ws (if fn = fnGet then 0 else 2)

/-! ## Checks at issue (R328) -/

/-- Alignment: the CFILL destination, the RATOM target, the sync word. -/
def copyAlign (fn : Nat) (ws : List Word) : Option Nat :=
  let dst := (dpair ws 2).toNat
  if fn = fnFill ∧ dst % 4 ≠ 0 then some dst
  else if fn = fnAtom ∧ dst % (if copyWide ws then 8 else 4) ≠ 0 then some dst
  else if swEn ws ∧ dword ws 11 % 16 ≠ 0 then some (dword ws 11)
  else none

/-- Address form: scratch, canonical, and the peer table. -/
def copyProt (s : State) (ctx fn : Nat) (ws : List Word) : Option Nat :=
  match (localSides fn ws).find? (fun x => if x.2 = 1 then decide (2 ^ 19 ≤ (dpair ws x.1).toNat) else !canonical (dpair ws x.1)) with
  | some x => some (dpair ws x.1).toNat
  | none =>
    if swEn ws ∧ 2 ^ 19 ≤ dword ws 11 then some (dword ws 11)
    else if 8 ≤ fn ∧ (s.ctx ctx).peercount ≤ (remoteAddr fn ws).toNat / 2 ^ 52 then some (remoteAddr fn ws).toNat
    else none

/-- A scratch range, index list or sync word whose slot is not attached. -/
def copyDetached (t : Team) (fn : Nat) (ws : List Word) : Option Nat :=
  let offs := ((localSides fn ws).filter (fun x => x.2 == 1)).map (fun x => (dpair ws x.1).toNat) ++
    (if swEn ws then [dword ws 11] else [])
  (offs.map (· / 32768)).find? (fun i => match t.slot i with | .attached _ => false | _ => true)

/-- The first check at issue that fails. -/
def copyFault (s : State) (c : Cur) (t : Team) (g : Group) (fn : Nat) (ws : List Word) : Option FaultInfo :=
  match descBad fn ws with
  | some d => some { code := 0x03, datum := d, lanes := c.lanes }
  | none =>
    if 1024 ≤ g.openStat.ncopy then some { code := 0x03, lanes := c.lanes } else
    match copyAlign fn ws with
    | some a => some { code := 0x08, lanes := c.lanes, faddr := BitVec.ofNat 64 a }
    | none =>
      match copyProt s t.ctx fn ws with
      | some a => some { code := 0x11, lanes := c.lanes, faddr := BitVec.ofNat 64 a }
      | none => (copyDetached t fn ws).map (fun i => { code := 0x13, datum := i, lanes := c.lanes })

/-! ## Batches (R324, R325) -/

/-- A copy's outcome is recorded. -/
def Batch.record (b : Batch) (code sub : Nat) : Batch :=
  if code = 0 then b else
    { b with nerr := min (b.nerr + 1) 1023, code := if b.code = 0 then code else b.code,
             sub := if b.code = 0 then sub else b.sub }

/-- The status words of a batch. -/
def Batch.words (b : Batch) : List Nat :=
  [b.code * 2 ^ 24 + b.sub * 2 ^ 16 + (match b.st with | .free => 0 | .sealed => 1 | .done => 2) * 2 ^ 14 + b.nerr, b.ncopy]

def Group.batch (g : Group) (b : Nat) : Batch := g.batches.getD b Batch.free

/-- Changes a batch of a group; the list grows to sixteen. -/
def Group.setBatch (g : Group) (b : Nat) (x : Batch) : Group :=
  { g with batches := setAt (g.batches ++ List.replicate (16 - g.batches.length) Batch.free) b x }

/-- A copy of a group that is in a batch, or in the open set. -/
def Copy.isIn (k : Copy) (team group : Nat) (b : Option Nat) : Bool :=
  k.team == team && k.group == group && k.phase != .held && k.batch == b

/-- A copy joins its group's open set (R324). -/
def joinOpen (s : State) (team group code sub : Nat) : State :=
  s.onGroup team group (fun g => { g with openStat := { g.openStat with ncopy := g.openStat.ncopy + 1 }.record code sub })

/-- A copy joins the open set and its engine's queue (R323, R434); the trailing copy's moves nothing unless its destination
is scratch. -/
def queueCopy (s : State) (id : Nat) : State :=
  match s.copies.find id with
  | none => s
  | some k =>
    let only : Bool := match s.teams.find k.team with
      | some t => t.copy == .trailing && !((localSides k.fn k.words).contains (2, 1))
      | none => false
    joinOpen { s with copies := s.copies.put id { k with phase := .queued, since := s.clock,
                                                          todo := if only then [] else k.todo } } k.team k.group 0 0

/-- CSEAL takes effect: the open set becomes batch b. -/
def sealBatch (s : State) (team group b : Nat) : State :=
  let mine (k : Copy) : Bool := k.isIn team group none
  let busy := s.copies.any (fun k => mine k.2)
  let s := { s with copies := s.copies.map (fun (k : Nat × Copy) => (k.1, if mine k.2 then { k.2 with batch := some b } else k.2)) }
  s.onGroup team group (fun g =>
    { g.setBatch b { g.openStat with st := if busy then .sealed else .done } with openStat := Batch.free })

/-- A copy-engine word of a group waits for its match (R434). -/
def copiesHeld (s : State) (team group : Nat) : Bool :=
  s.copies.any (fun k => k.2.team == team && k.2.group == group && k.2.phase == .held) ||
  s.ops.any (fun o => o.2.team == team && o.2.group == group && (match o.2.body with | .cseal _ => true | _ => false))

/-! ## The data instructions (R320 to R323) -/

/-- Number in the exactly-once log (R419). -/
def copyLog (fn : Nat) : Option Nat := if fn = fnPut then some logRput else if fn = fnAtom then some logRatom else none

/-- What a data instruction uses; the hint's fields are those of R321. -/
def copyUses (fn : Nat) (d a : Nat) (g : Group) (run : Run) : Uses :=
  let takes := fn ≠ fnAtom
  { role := .copyOnly, sr := [(a, 16)], sw := if fn = fnAtom then [(d, 2)] else [], mpfx := takes,
    bad := a % 16 != 0 || decide (240 < a) || (fn == fnAtom && d % 2 != 0) ||
      (takes && (natBits (modWord g run) 14 3 == 5 || (match run.mpfx with
        | some w => (w.toNat &&& 0x03FE3E00) != 0
        | none => false))),
    long := some (fn == fnAtom), pair := true }

/-- A copy as it is accepted. -/
def newCopy (s : State) (c : Cur) (t : Team) (g : Group) (run : Run) (id fn : Nat) (ws : List Word) : Copy :=
  { id := id, team := t.id, group := g.id, ctx := t.ctx, cluster := t.pool, fn := fn, iaddr := c.addr, words := ws,
    cpol := natBits (modWord g run) 14 3, batch := none, phase := .held, todo := [(0, copyTotal fn ws)], posted := false,
    banks := [], code := 0, sub := 0, raised := false, level := t.levels.length, result := 0, since := s.clock, parts := [] }

/-- Copies in a cluster's queue. -/
def queueUse (s : State) (cluster : Nat) : Nat :=
  (s.copies.filter (fun k => k.2.cluster == cluster && (k.2.phase == .queued || k.2.phase == .held))).length

/-- A replayed RPUT or RATOM takes the logged status and result (R329, R419). -/
def copyReplay (s : State) (c : Cur) (run : Run) (fn d : Nat) (e : LogEntry) : State :=
  let val (lane : Nat) : Nat := ((e.olds.find? (fun x => x.1 == lane)).map (·.2)).getD 0
  let s := joinOpen s c.team c.group (val 2 / 256) (val 2 % 256)
  (s.longOp c run (fn == fnAtom) (if fn = fnAtom then .ret d [val 0, val 1] else .done)).2

/-- Issue of a data instruction: an accepted copy, in a core-pair team held until its match. -/
def copyOwn (fn : Nat) (d a : Nat) (c : Cur) (g : Group) (run : Run) (s : State) : Eff :=
  match s.teams.find c.team with
  | none => .ok s
  | some t0 =>
    let ws := (List.range 16).map (fun k => g.rf.S (a + k))
    match copyFault s c t0 g fn ws with
    | some f => .fault f s
    | none =>
      let (old, t) := match copyLog fn with
        | some n => t0.replayLog g.id c.addr n
        | none => (none, t0)
      let s := s.putTeam c.team t
      match old with
      | some e => .ok (copyReplay s c run fn d e)
      | none =>
        if t.copy = .trailing ∧ leadSent s t g.id ≤ t.eventsSent g.id then .stay s
        else if !slackRoom t 1 then .stay (countStall s t)
        else if 512 ≤ queueUse s t.pool then .stay s
        else
          match s.logOnce c (copyLog fn) with
          | none => overflow c s
          | some s =>
            let id := s.opCtr
            let body : OpBody := if fn ≠ fnAtom then .accept id else if t.copy = .trailing then .follow id d else .ratom id d
            let (_, s) := s.longOp c run (fn == fnAtom) body
            let s := { s with copies := s.copies.put id (newCopy s c t g run id fn ws) }
            .ok (if t.paired then s.event c eventOnce (fn :: ws.map (·.toNat)) (dpair ws 2) (some id) else queueCopy s id)

/-- A data instruction of the copy engine. -/
def copyWord (fn : Nat) (d a : BitVec 8) (s : State) : Host.Outcome State Fault Refusal :=
  issueD (fun _ g run => copyUses fn d.toNat a.toNat g run) (copyOwn fn d.toNat a.toNat) s

/-- COPY (R322). -/
def execCopy (a : BitVec 8) (s : State) : Host.Outcome State Fault Refusal := copyWord 0 0 a s
/-- COPY2D (R322). -/
def execCopy2d (a : BitVec 8) (s : State) : Host.Outcome State Fault Refusal := copyWord fnCopy2d 0 a s
/-- CGATH (R322). -/
def execCgath (a : BitVec 8) (s : State) : Host.Outcome State Fault Refusal := copyWord fnGath 0 a s
/-- CSCAT (R322). -/
def execCscat (a : BitVec 8) (s : State) : Host.Outcome State Fault Refusal := copyWord fnScat 0 a s
/-- CFILL (R322). -/
def execCfill (a : BitVec 8) (s : State) : Host.Outcome State Fault Refusal := copyWord fnFill 0 a s
/-- RPUT (R322, R336). -/
def execRput (a : BitVec 8) (s : State) : Host.Outcome State Fault Refusal := copyWord fnPut 0 a s
/-- RGET (R322, R336). -/
def execRget (a : BitVec 8) (s : State) : Host.Outcome State Fault Refusal := copyWord fnGet 0 a s
/-- RATOM (R337). -/
def execRatom (d a : BitVec 8) (s : State) : Host.Outcome State Fault Refusal := copyWord fnAtom d a s

/-! ## CSEAL, CWAIT, CSTAT (R324) -/

/-- CSEAL (R324); in a core-pair team it takes effect at its match. -/
def execCseal (b : BitVec 4) (s : State) : Host.Outcome State Fault Refusal :=
  issue { role := .copyOnly, long := some false, pair := true } (fun c g run s =>
    match s.teams.find c.team with
    | none => .ok s
    | some t =>
      if t.paired ∧ copiesHeld s t.id g.id then .stay s
      else if (g.batch b.toNat).st = .sealed then .fault { code := 0x03, lanes := c.lanes } s
      else if !t.paired then .ok ((sealBatch s t.id g.id b.toNat).longOp c run false .done).2
      else if t.copy = .trailing ∧ leadSent s t g.id ≤ t.eventsSent g.id then .stay s
      else if !slackRoom t 1 then .stay (countStall s t)
      else
        let (id, s) := s.longOp c run false (.cseal b.toNat)
        .ok (s.event c eventOnce [5, b.toNat] 0 (some id))) s

/-- CWAIT (R324): blocks while the batch is SEALED; with CHK a status code is taken as a fault once the words are
written. -/
def execCwait (d : BitVec 8) (k : BitVec 1) (b : BitVec 4) (s : State) : Host.Outcome State Fault Refusal :=
  issue { role := .copyOnly, sw := [(d.toNat, 2)], bad := odd d, long := some true, pair := true } (fun c g run s =>
    match s.teams.find c.team with
    | none => .ok s
    | some t =>
      let x := g.batch b.toNat
      if t.paired ∧ copiesHeld s t.id g.id then .stay s
      else if t.copy ≠ .trailing ∧ x.st = .sealed then .stay (s.setWait c (.batch b.toNat))
      else withChannel c x.words (fun _ => x.st != .sealed) (fun vs s =>
        let s := s.onCur c (fun g => g.setBatch b.toNat Batch.free)
        let w := vs.headD 0
        if k = 1 ∧ w / 2 ^ 24 ≠ 0 then
          .fault { code := w / 2 ^ 24, datum := natBits w 16 8, lanes := c.lanes }
            (s.onCur c (fun g => g.putSs d.toNat (vs.map (fun n => BitVec.ofNat 32 n))))
        else .ok (s.longOp c run true (.ret d.toNat vs)).2) s) s

/-- CSTAT (R324). -/
def execCstat (d : BitVec 8) (b : BitVec 4) (s : State) : Host.Outcome State Fault Refusal :=
  issue { role := .copyOnly, sw := [(d.toNat, 2)], bad := odd d, long := some true, pair := true } (fun c g run s =>
    match s.teams.find c.team with
    | none => .ok s
    | some t =>
      if t.paired ∧ copiesHeld s t.id g.id then .stay s
      else withChannel c (g.batch b.toNat).words (fun _ => true)
        (fun vs s => .ok (s.longOp c run true (.ret d.toNat vs)).2) s) s

/-! ## Movement of bytes (R322, R326, R327) -/

def State.putCopy (s : State) (k : Copy) : State := { s with copies := s.copies.put k.id k }

/-- The die of a cluster or of a command core's pool. -/
def poolDie (pool : Nat) : Nat := if pool < 224 then pool / 28 else pool - 224

/-- The bank of a scratch range: accepted as a whole at its first access, and kept from then on (R67); none when the slot
is not attached. -/
def Copy.bankOf (s : State) (k : Copy) (side slot : Nat) : Option (Nat × Copy) :=
  match k.banks.find? (fun x => x.1 == side * 16 + slot) with
  | some x => some (x.2, k)
  | none =>
    match (s.teams.find k.team).map (fun (t : Team) => t.slot slot) with
    | some (.attached b) => some (b, { k with banks := k.banks ++ [(side * 16 + slot, b)] })
    | _ => none

/-- Reads at most one 64-byte sector of a side. -/
def copyRead (s : State) (k : Copy) (side space : Nat) (va : DWord) (n : Nat) : Reach × Copy :=
  if space = 0 then (readGlobal s k.team k.ctx va n (.copies k.cluster), k)
  else if space = 3 then (readDrawer s k.ctx (poolDie k.cluster) va n (.copies k.cluster), k)
  else if 2 ^ 19 ≤ va.toNat then (.bad 0x11 1, k)
  else
    match k.bankOf s side (va.toNat / 32768) with
    | none => (.bad 0x13 (va.toNat / 32768), k)
    | some (b, k) =>
      match s.wakeBank k.cluster b with
      | (false, s) => (.wait s, k)
      | (true, s) =>
        let x := (s.cluster k.cluster).bank b
        let o := va.toNat % 32768
        if x.bad.any (fun w => decide (o / 8 ≤ w) && decide (w ≤ (o + n - 1) / 8)) then (.bad 0x17 0, k)
        else (.ok (Memory.readN x.mem n o) (s.correctBank k.cluster b o n), k)

/-- Writes at most one 64-byte sector of the destination. -/
def copyWrite (s : State) (k : Copy) (space : Nat) (va : DWord) (bs : List Byte) : Reach × Copy :=
  if space = 0 then (writeGlobal s k.team k.level k.ctx va bs k.cpol (.copies k.cluster), k)
  else if space = 3 then (writeDrawer s k.ctx (poolDie k.cluster) va bs k.id (.copies k.cluster), k)
  else if 2 ^ 19 ≤ va.toNat then (.bad 0x11 1, k)
  else
    match k.bankOf s 1 (va.toNat / 32768) with
    | none => (.bad 0x13 (va.toNat / 32768), k)
    | some (b, k) =>
      match s.wakeBank k.cluster b with
      | (false, s) => (.wait s, k)
      | (true, s) =>
        let cells := cellsAt (va.toNat % 32768) bs
        if k.level = 0 then (.ok [] (s.onBank k.cluster b (fun x => x.write s.clock cells)), k)
        else match bankWrite s k.team k.cluster b cells with
          | some s => (.ok [] s, k)
          | none => (.bad 0x1C 0, k)

/-- Reads n bytes of a side, sector by sector; names the address that stops it. -/
def copyReadN (side space : Nat) : Nat → State → Copy → DWord → Nat → Reach × Copy × DWord
  | 0, s, k, va, _ => (.ok [] s, k, va)
  | f + 1, s, k, va, n =>
    if n = 0 then (.ok [] s, k, va) else
    let m := min n (64 - va.toNat % 64)
    match copyRead s k side space va m with
    | (.ok bs s, k) =>
      (match copyReadN side space f s k (va + BitVec.ofNat 64 m) (n - m) with
      | (.ok cs s, k, a) => (.ok (bs ++ cs) s, k, a)
      | r => r)
    | (r, k) => (r, k, va)

/-- Writes bytes of the destination, sector by sector. -/
def copyWriteN (space : Nat) : Nat → State → Copy → DWord → List Byte → Reach × Copy × DWord
  | 0, s, k, va, _ => (.ok [] s, k, va)
  | f + 1, s, k, va, bs =>
    if bs.isEmpty then (.ok [] s, k, va) else
    let m := 64 - va.toNat % 64
    match copyWrite s k space va (bs.take m) with
    | (.ok _ s, k) => copyWriteN space f s k (va + BitVec.ofNat 64 m) (bs.drop m)
    | (r, k) => (r, k, va)

/-- The record of a copy's wait (R327). -/
def waitRecord (s : State) (k : Copy) (code : Nat) (va : DWord) : State × Copy :=
  if k.posted then (s, k) else
  match s.teams.find k.team with
  | some t => (postTeam s t 2 { code := code, kind := 0, inrun := false, replay := true, sysmode := false, double := false,
                                group := k.group, num := 0, iaddr := k.iaddr, lanes := 0, faddr := va }, { k with posted := true })
  | none => (s, k)

/-- A copy meets something that stops it: it waits for a page on a monitor (where a slice has none free, it tries again by
itself), waits for a link group whose retrain has lasted 2,048 clocks with a record (R475), or ends in error. -/
def Copy.meet (s : State) (k : Copy) (va : DWord) (r : Reach) : State :=
  match r with
  | .ok _ s => s.putCopy k
  | .wait s => s.putCopy k
  | .page entry =>
    let (s, k) := waitRecord s k 0x10 va
    let (s, armed) := armMonitor s (s.ctx k.ctx).phvc entry (.copy k.id)
    s.putCopy (if armed then { k with phase := .waiting } else k)
  | .stall l => let (s, k) := if s.linkLost l then waitRecord s k 0x16 va else (s, k); s.putCopy k
  | .bad code sub => s.putCopy (k.fail code sub)

/-- Removes bytes p to p + n - 1 from the ranges to do. -/
def doneRange (todo : List (Nat × Nat)) (p n : Nat) : List (Nat × Nat) :=
  todo.flatMap (fun v => if v.1 ≤ p ∧ p < v.2 then
    [(v.1, p), (p + n, v.2)].filter (fun x => decide (x.1 < x.2)) else [v])

/-- Where byte p of a copy comes from and goes to, and how many bytes follow in its row or element; x is the index of its
element. -/
def Copy.place (k : Copy) (p : Nat) (x : Int) : DWord × DWord × Nat :=
  let src := dpair k.words 0
  let dst := dpair k.words 2
  let n := dword k.words 5
  let e := eSize k.words
  let far (i : Nat) : DWord := BitVec.ofInt 64 (x * (e : Int) + (i : Int))
  let flat := BitVec.ofNat 64 p
  if k.fn = fnCopy2d then
    let at? (st : Int) : DWord := BitVec.ofInt 64 ((p / n : Nat) * st + (p % n : Nat))
    (src + at? (dsigned k.words 7), dst + at? (dsigned k.words 8), n - p % n)
  else if k.fn = fnGath then (src + far (p % e), dst + flat, e - p % e)
  else if k.fn = fnScat then (src + flat, dst + far (p % e), e - p % e)
  else (src + flat, dst + flat, copyTotal k.fn k.words - p)

/-- Moves a piece of a local copy that begins at byte p: its length is what a free value allows within the row or element
and one sector on each side (R322 Independence). -/
def movePiece (s : State) (k : Copy) (p hi want : Nat) : State :=
  let elem := decide (k.fn = fnGath ∨ k.fn = fnScat)
  let e := eSize k.words
  let idxAt := dpair k.words 9 + BitVec.ofNat 64 (4 * (p / e))
  let (ir, k, ia) := if elem then copyReadN 2 (iSpace k.words) 8 s k idxAt 4 else (.ok [] s, k, idxAt)
  match ir with
  | .ok ib s =>
    let (src, dst, row) := k.place p (signed 32 (leVal ib))
    let base (a : DWord) : Nat := (a - BitVec.ofNat 64 (p % e)).toNat
    if elem && (base src % e != 0 || base dst % e != 0) then s.putCopy (k.fail 0x20 3) else
    let fill := decide (k.fn = fnFill)
    let n := min (min want row) (min (hi - p) (min (64 - dst.toNat % 64) (if fill then 64 else 64 - src.toNat % 64)))
    let (rr, k) := if fill then
        (Reach.ok ((List.range n).map (fun j => BitVec.ofNat 8 (dword k.words 0 / 2 ^ (8 * ((p + j) % 4))))) s, k)
      else copyRead s k 0 (sSpace k.words) src n
    (match rr with
    | .ok bs s =>
      (match copyWrite s k (dSpace k.words) dst bs with
      | (.ok _ s, k) => s.putCopy { k with todo := doneRange k.todo p n, posted := false }
      | (r, k) => k.meet s dst r)
    | r => k.meet s src r)
  | r => k.meet s ia r

/-- The oldest copy in a cluster's queue may start: at most 64 are in progress (R323). -/
def mayStart (s : State) (k : Copy) : Bool :=
  !s.copies.any (fun x => x.2.cluster == k.cluster && x.2.phase == .queued && decide (x.1 < k.id)) &&
  decide ((s.copies.filter (fun x => x.2.cluster == k.cluster && (s.teams.find x.2.team).any (fun t => t.phase == .resident) &&
    (x.2.phase == .active || x.2.phase == .waiting || x.2.phase == .remote))).length < 64)

/-- A copy waits for its group: every store before it, the unpaired ones too, passes the merge point and is performed first (R59),
and every older acquire (R50). -/
def olderStores (s : State) (k : Copy) : Bool :=
  match s.teams.find k.team with
  | some t => (match t.group? k.group with
    | some g => storesOut s g k.team k.id true true || heldOut s t g k.id true || acquiresOut s k.team k.group k.id
    | none => false)
  | none => false

/-- SYNC_WORD_RAISE (R64, R65, R326): once every byte is written, the copy's sync word is raised by its whole total. -/
def execSyncWordRaise (s : State) : Host.Outcome State Fault Refusal :=
  onEvent (fun e s =>
    match s.copies.find e.a with
    | none => s
    | some k =>
      if !swEn k.words || k.raised || !k.todo.isEmpty || !k.parts.isEmpty || !(k.phase == .active || k.phase == .remote) ||
          s.links.any (fun l => (l.2.writes ++ l.2.unacked).any (fun w => w.waiter == some k.id)) then s else
      let off := dword k.words 11
      let awake := match (s.teams.find k.team).map (fun (t : Team) => t.slot (off / 32768)) with
        | some (.attached b) => s.wakeBank k.cluster b
        | _ => (true, s)
      match awake with
      | (false, s) => s
      | (true, s) =>
        let (ok, s) := raiseAt s k.team off (copyTotal k.fn k.words) (if k.code = 0 then none else some k.code)
        let k := if ok ∨ k.code ≠ 0 then k else { k with code := 0x13, sub := 0x10 + off / 32768 }
        s.putCopy { k with raised := true }) s

/-- A copy is finished (R324): its outcome goes into its batch, its log entry and its registers. -/
def finishCopy (s : State) (k : Copy) : State :=
  let s := { s with copies := s.copies.del k.id }
  let busy := s.copies.any (fun x => x.2.isIn k.team k.group k.batch)
  let s := s.onGroup k.team k.group (fun g => match k.batch with
    | none => { g with openStat := g.openStat.record k.code k.sub }
    | some b => g.setBatch b (let x := (g.batch b).record k.code k.sub; { x with st := if busy then x.st else .done }))
  let o : Op := { id := k.id, team := k.team, group := k.group, gang := 0, iaddr := k.iaddr, lanes := 0, flag := none,
                  level := k.level, body := .done }
  let lead : Bool := match s.teams.find k.team with | some (t : Team) => t.copy != .trailing | none => true
  let status := k.code * 256 + k.sub
  let lo := if k.code = 0 then k.result % 2 ^ 32 else 0
  let hi := if k.code = 0 then k.result / 2 ^ 32 else 0
  if k.fn = fnPut ∧ lead then logDone s o logRput 2 status
  else if k.fn = fnAtom ∧ lead then
    let s := logDone (logDone (logDone s o logRatom 0 lo) o logRatom 1 hi) o logRatom 2 status
    match (s.ops.find k.id).map (fun (x : Op) => x.body) with
    | some (.ratom _ d) => finishOp s k.id [lo, hi] d
    | _ => s
  else s

/-- COPY_FINISH (R324). -/
def execCopyFinish (s : State) : Host.Outcome State Fault Refusal :=
  onEvent (fun e s =>
    match s.copies.find e.a with
    | none => s
    | some k =>
      if !k.todo.isEmpty || !k.parts.isEmpty || !(k.phase == .active || k.phase == .remote) || (swEn k.words && !k.raised) ||
          s.links.any (fun l => (l.2.writes ++ l.2.unacked).any (fun w => w.waiter == some k.id)) then s
      else finishCopy s k) s

end Sys2Proof.Machine
end

