-- ==== Sys2Proof/Machine/Fabric.lean ====
section
/-! DEFINITION. The fabric port (R331 to R341): packets, connections, remote operations at the sender and at the peer, export
windows, keys, and frames of the other traffic. -/

namespace Sys2Proof.Machine

/-! ## Packets (R334, R335) -/

/-- The 32 header bytes of a packet. -/
def pktHeader (p : Packet) : List Byte :=
  bytesLE 1 p.ver ++ bytesLE 1 p.type ++ bytesLE 2 p.owner ++ bytesLE 4 p.sender ++ bytesLE 8 p.seq ++
  bytesLE 8 p.raddr.toNat ++ bytesLE 2 p.len ++ [p.info, 0] ++ bytesLE 4 p.opid

/-- The tag of a packet under a key. -/
def pktSign (p : Packet) (key : List Byte) : DWord := gmac key p.sender p.seq (pktHeader p ++ p.data)

/-- Key epoch of a packet. -/
def pktEpoch (p : Packet) : Nat := if p.info.getLsbD 7 then 1 else 0

/-- A key slot of an owner. -/
def OwnerKey.key (k : OwnerKey) (epoch : Nat) : List Byte := if epoch = 0 then k.key0 else k.key1

/-- The keys of a fabric owner identifier. -/
def ownerOf (s : State) (fowner : Nat) : Option OwnerKey := (s.fabric.owners.find? (fun o => o.2.fowner == fowner)).map (·.2)

/-- Offset of a remote address in its window, the window and the generation (R335). -/
def raOffset (a : DWord) : Nat := a.toNat % 2 ^ 34
def raWindow (a : DWord) : Nat := natBits a.toNat 42 10
def raGen (a : DWord) : Nat := natBits a.toNat 34 8

/-- A packet passes MACsec and its tag verifies (R338 checks 1 and 2); its version and data length are those of R334. -/
def genuine (s : State) (p : Packet) : Bool :=
  (!s.fabric.macsec || p.macsecOk) && p.ver == 1 && decide (p.data.length ≤ 8192) &&
  (match ownerOf s p.owner with
   | some k => p.tag == pktSign p (k.key (pktEpoch p))
   | none => false)

/-- A packet is dropped and counted. -/
def State.dropPacket (s : State) : State := { s with fabric := { s.fabric with dropped := s.fabric.dropped + 1 } }

/-! ## Connections (R336) -/

/-- A connection before its first packet. -/
def Connection.fresh (owner peer : Nat) : Connection :=
  { owner := owner, peer := peer, nextSeq := 1, unacked := [], performed := 0, replies := [], waiting := [], posted := false }

/-- The connection of an owner and a peer number: a local owner's sending side of key epoch e is number 2^40 + e, and a
receiving side is named by the owner identifier of the packets and sender × 2 + epoch. -/
def State.conn (s : State) (owner peer : Nat) : Connection :=
  (s.fabric.conns.find? (fun c => c.owner == owner && c.peer == peer)).getD (Connection.fresh owner peer)

def State.putConn (s : State) (c : Connection) : State :=
  let cs := s.fabric.conns.filter (fun (x : Connection) => !(x.owner == c.owner && x.peer == c.peer)) ++ [c]
  { s with fabric := { s.fabric with conns := cs } }

/-- The peer table entry of a remote address is valid (R335). -/
def peerGood (s : State) (ctx : Nat) (a : DWord) : Bool :=
  let c := s.ctx ctx
  let bs := homeBytes s c.phvc 32 (c.peertab + 32 * (a.toNat / 2 ^ 52))
  let flags := field bs 0x12 1
  (s.vcs.find c.phvc).isSome && natBit flags 0 && decide (flags < 4) && (bs.drop 0x13).all (· == 0)

/-- Sends a packet of a copy on its owner's connection; none when the connection may send no more now (R334, R336). -/
def sendPacket (s : State) (k : Copy) (key : OwnerKey) (type : Nat) (raddr : DWord) (len op : Nat) (data : List Byte) :
    Option (Nat × State) :=
  let owner := (s.ctx k.ctx).owner
  let c := s.conn owner (2 ^ 40 + key.epoch)
  let oldest := (c.unacked.map (fun x => x.1.seq)).foldl min c.nextSeq
  if 1024 ≤ c.unacked.length ∨ oldest + 1024 ≤ c.nextSeq ∨ 2 ^ 64 ≤ c.nextSeq then none else
  let p : Packet := { ver := 1, type := type, owner := key.fowner, sender := Config.deviceNumber, seq := c.nextSeq,
                      raddr := raddr, len := len, info := BitVec.ofNat 8 (key.epoch * 128 + op), opid := k.id % 2 ^ 32,
                      data := data, tag := 0, macsecOk := true }
  let p := { p with tag := pktSign p (key.key key.epoch) }
  let s := s.putConn { c with nextSeq := c.nextSeq + 1, unacked := c.unacked ++ [(p, s.clock, k.id)] }
  some (c.nextSeq, { s with fabric := { s.fabric with outbox := s.fabric.outbox ++ [p] } })

/-- The next packet of a remote operation, in ascending order of its bytes (R336). -/
def sendNext (s : State) (k : Copy) : State :=
  let ra := remoteAddr k.fn k.words
  let total := if k.fn = fnAtom then (if copyWide k.words then 8 else 4) else copyTotal k.fn k.words
  match s.fabric.owners.find (s.ctx k.ctx).owner, k.todo with
  | some key, (p, hi) :: rest =>
    let entry := (s.ctx k.ctx).peertab + 32 * (ra.toNat / 2 ^ 52)
    let (here, s) := if (s.vcs.find (s.ctx k.ctx).phvc).isSome then s.wakeSlice (s.ctx k.ctx).phvc entry else (true, s)
    if 2 ^ 34 < raOffset ra + total then s.putCopy (k.fail 0x11 1)
    else if !here then s
    else if !peerGood s k.ctx ra then s.putCopy (k.fail 0x20 2)
    else
      let sent (s : State) (k : Copy) (q : Nat) (seq : Nat) : State :=
        s.putCopy { k with todo := if q < hi then (q, hi) :: rest else rest, parts := k.parts ++ [seq],
                           phase := if hi ≤ q ∧ rest = [] then .remote else k.phase }
      if k.fn = fnAtom then
        let n := if copyWide k.words then 8 else 4
        let data := bytesLE n (dpair k.words 0).toNat ++ bytesLE n (dpair k.words 9).toNat ++ [if copySgn k.words then 1 else 0]
        match sendPacket s k key 4 ra n (copyOp k.words) data with
        | some (seq, s) => sent s k hi seq
        | none => s.putCopy k
      else
        let at? := ra + BitVec.ofNat 64 p
        let n := min (hi - p) (min 8192 (65536 - raOffset at? % 65536))
        if k.fn = fnGet then
          match sendPacket s k key 2 at? n 0 [] with
          | some (seq, s) => sent s k (p + n) seq
          | none => s.putCopy k
        else
          match copyReadN 0 (sSpace k.words) 200 s k (dpair k.words 0 + BitVec.ofNat 64 p) n with
          | (.ok bs s, k, _) =>
            (match sendPacket s k key 1 at? n 0 bs with
            | some (seq, s) => sent s { k with posted := false } (p + n) seq
            | none => s.putCopy k)
          | (r, k, va) => k.meet s va r
  | none, _ => s.putCopy (k.fail 0x20 2)
  | _, [] => s

/-- COPY_TRANSFER (R322, R323): a queued copy starts; one in progress moves a piece or sends a packet. -/
def execCopyTransfer (s : State) : Host.Outcome State Fault Refusal :=
  onEvent (fun e s =>
    match s.copies.find e.a with
    | none => s
    | some k =>
      let here : Bool := match s.teams.find k.team with | some (t : Team) => t.phase == .resident | none => true
      if !here then s else
      match k.phase with
      | .queued => if mayStart s k then s.putCopy { k with phase := .active } else s
      | .active =>
        if k.todo.isEmpty || olderStores s k then s
        else if fnPut ≤ k.fn then sendNext s k
        else
          let (n, s) := s.free
          let (want, s) := s.free
          let v := k.todo.getD (n % max 1 k.todo.length) (0, 1)
          movePiece s k (v.1 + n / max 1 k.todo.length % max 1 (v.2 - v.1)) v.2 (want % 64 + 1)
      | _ => s) s

/-! ## Answers at the sender (R336, R337, R339) -/

/-- A SEQ that an answer carried is done with at the receiving side of its connection (R336). -/
def noteSeq (s : State) (p : Packet) : State :=
  let c := s.conn p.owner (p.sender * 2 + pktEpoch p)
  if p.seq ≤ c.performed ∨ c.waiting.any (fun x => x.seq == p.seq) then s
  else s.putConn { c with waiting := c.waiting ++ [{ p with type := 0, data := [] }] }

/-- An answer reaches the port: the packet of its operation with its remote address is acknowledged, and the copy, when it
still runs, takes it. When the copy cannot take it now, the request stays unacknowledged and is sent again. -/
def answered (s : State) (p : Packet) (f : Copy → Packet → State → Except State State) : State :=
  if !genuine s p then s.dropPacket else
  let mine (x : Packet × Nat × Nat) : Bool := x.1.opid == p.opid && x.1.raddr == p.raddr
  match s.fabric.owners.find? (fun o => o.2.fowner == p.owner && (s.conn o.1 (2 ^ 40 + pktEpoch p)).unacked.any mine) with
  | none => (noteSeq s p).dropPacket
  | some o =>
    match (s.conn o.1 (2 ^ 40 + pktEpoch p)).unacked.find? mine with
    | none => s.dropPacket
    | some (q, _, id) =>
      let closed (s : State) : State :=
        let c := s.conn o.1 (2 ^ 40 + pktEpoch p)
        noteSeq (s.putConn { c with unacked := c.unacked.filter (fun x => x.1.seq != q.seq) }) p
      match s.copies.find id with
      | none => closed s
      | some k =>
        if !k.parts.contains q.seq then closed s else
        match f k q s with
        | .error s => s
        | .ok s => closed { s with copies := s.copies.adjust id (fun (k : Copy) => { k with parts := k.parts.filter (· != q.seq) }) }

/-- Whether every sector that n bytes of a context touch can be reached now by a team: banks in retention begin to leave it
(R286), and no other team's provisional sector is among them (R70). -/
def globalReady (team ctx : Nat) : Nat → State → DWord → Nat → Bool × State
  | 0, s, _, _ => (true, s)
  | f + 1, s, va, n =>
    if n = 0 then (true, s) else
    let m := min n (64 - va.toNat % 64)
    let (a, s) := s.wakeWalk ctx va
    let (b, s) := match walk s ctx va .any with
      | .ok l => if 2 ^ 40 ≤ l.pa then (true, s) else
          (let (w, s) := s.wakeSlice l.vc l.pa; (w && !provBlocked s team (homeKey l.vc l.pa), s))
      | _ => (true, s)
    let (c, s) := globalReady team ctx f s (va + BitVec.ofNat 64 m) (n - m)
    (a && b && c, s)

/-- Whether a copy's destination can take n bytes now. -/
def copyReady (s : State) (k : Copy) (va : DWord) (n : Nat) : Bool × State :=
  if dSpace k.words = 0 then globalReady k.team k.ctx 200 s va n
  else if dSpace k.words = 3 then s.wakeWalk k.ctx va
  else match k.bankOf s 1 (va.toNat / 32768) with
    | some (b, _) => s.wakeBank k.cluster b
    | none => (true, s)

/-- A packet of the wrong type for the event does nothing. -/
def onPacket (type : Nat) (f : Packet → State → State) (e : Subject) (s : State) : State :=
  match e.packet with
  | some p => if p.type = type then f p s else s
  | none => s

/-- GFT_GET_REPLY (R337): the bytes are written at their place in the destination. -/
def execGftGetReply (s : State) : Host.Outcome State Fault Refusal :=
  onEvent (onPacket 3 (fun p s => answered s p (fun k q s =>
    let off := raOffset q.raddr - raOffset (dpair k.words 0)
    let va := dpair k.words 2 + BitVec.ofNat 64 off
    if p.data.length ≠ q.len then .error s else
    match copyReady s k va q.len with
    | (false, s) => .error s
    | (true, s) =>
      match copyWriteN (dSpace k.words) 200 s k va p.data with
      | (.ok _ s, k, _) => .ok (s.putCopy { k with posted := false })
      | (.bad code sub, k, _) => .ok (s.putCopy (k.fail code sub))
      | (r, k, at?) => .error (k.meet s at? r)))) s

/-- GFT_ATOMIC_REPLY (R337): the old value. -/
def execGftAtomicReply (s : State) : Host.Outcome State Fault Refusal :=
  onEvent (onPacket 5 (fun p s => answered s p (fun k _ s => .ok (s.putCopy { k with result := leVal (p.data.take 8) })))) s

/-- GFT_ACKNOWLEDGEMENT (R336, R337). -/
def execGftAcknowledgement (s : State) : Host.Outcome State Fault Refusal :=
  onEvent (onPacket 6 (fun p s => answered s p (fun _ _ s => .ok s))) s

/-- GFT_REFUSAL (R338). -/
def execGftRefusal (s : State) : Host.Outcome State Fault Refusal :=
  onEvent (onPacket 7 (fun p s => answered s p (fun k _ s => .ok (s.putCopy (k.fail 0x15 (p.info.toNat % 16)))))) s

/-- GFT_RETRANSMIT (R336): a packet without an answer for 16 µs is sent again; the subject names owner, connection number
and SEQ. -/
def execGftRetransmit (s : State) : Host.Outcome State Fault Refusal :=
  onEvent (fun e s =>
    let c := s.conn e.a e.b
    match c.unacked.find? (fun x => x.1.seq == e.c && decide (x.2.1 + 36000 ≤ s.clock)) with
    | none => s
    | some (p, _, _) =>
      let s := s.putConn { c with unacked := c.unacked.map (fun (x : Packet × Nat × Nat) =>
        if x.1.seq = e.c then (x.1, s.clock, x.2.2) else x) }
      { s with fabric := { s.fabric with outbox := s.fabric.outbox ++ [p] } }) s

/-- REMOTE_OPERATION_TIMEOUT (R339): 200 µs after the acceptance. -/
def execRemoteOperationTimeout (s : State) : Host.Outcome State Fault Refusal :=
  onEvent (fun e s =>
    match s.copies.find e.a with
    | some k =>
      if fnPut ≤ k.fn ∧ k.phase ≠ .held ∧ k.since + 450000 ≤ s.clock ∧ (k.todo ≠ [] ∨ k.parts ≠ []) then
        s.putCopy (k.fail 0x20 1)
      else s
    | none => s) s

/-! ## Requests at the peer (R336 to R338) -/

/-- What an operation asks of PERM. -/
def permBit (type : Nat) : Nat := if type = 1 then 1 else if type = 2 then 0 else 2

/-- The window checks of R338 in order: the SUB of the refusal. -/
def windowFault (s : State) (p : Packet) : Option Nat :=
  match s.fabric.windows.find (raWindow p.raddr) with
  | none => some 2
  | some w =>
    if !w.valid then some 2
    else if raGen p.raddr ≠ w.gen then some 1
    else if p.owner ≠ w.fowner then some 5
    else if w.length * 65536 < raOffset p.raddr + p.len then some 3
    else if !natBit w.perm (permBit p.type) then some 4
    else none

/-- The mark that an accepted operation leaves at its window (R340). -/
def acceptMark (p : Packet) : Nat := p.seq + 2 ^ 64 * (p.sender * 2 + pktEpoch p + 2 ^ 40 * p.owner)

/-- An answer to a packet: it takes the next SEQ of its owner's connection (R334), and the request's operation number and
remote address say what it answers. None is sent once SEQ would wrap. -/
def replyTo (s : State) (p : Packet) (type info : Nat) (data : List Byte) : List Packet × State :=
  match s.fabric.owners.find? (fun o => o.2.fowner == p.owner) with
  | none => ([], s)
  | some o =>
    let c := s.conn o.1 (2 ^ 40 + pktEpoch p)
    if 2 ^ 64 ≤ c.nextSeq then ([], s) else
    let r : Packet := { ver := 1, type := type, owner := p.owner, sender := Config.deviceNumber, seq := c.nextSeq,
                        raddr := p.raddr, len := data.length, info := BitVec.ofNat 8 (pktEpoch p * 128 + info),
                        opid := p.opid, data := data, tag := 0, macsecOk := true }
    ([{ r with tag := pktSign r (o.2.key (pktEpoch p)) }], s.putConn { c with nextSeq := c.nextSeq + 1 })

/-- A request reaches the port: dropped, answered again, or held for its turn; a refused one waits for its turn as a
refusal. -/
def arrive (p : Packet) (s : State) : State :=
  if !genuine s p ∨ (p.type = 1 ∧ p.data.length ≠ p.len) then s.dropPacket else
  let c := s.conn p.owner (p.sender * 2 + pktEpoch p)
  if p.seq ≤ c.performed then
    match c.replies.find? (fun r => r.1 == p.seq) with
    | some r => { s with fabric := { s.fabric with outbox := s.fabric.outbox ++ r.2 } }
    | none => s.dropPacket
  else if c.waiting.any (fun x => x.seq == p.seq) then s
  else
    match windowFault s p with
    | some sub => s.putConn { c with waiting := c.waiting ++
        [{ p with type := 7, info := BitVec.ofNat 8 (pktEpoch p * 128 + sub), data := [] }] }
    | none =>
      let s := s.putConn { c with waiting := c.waiting ++ [p] }
      let ws := s.fabric.windows.adjust (raWindow p.raddr) (fun (w : Window) =>
        { w with accepted := w.accepted ++ [acceptMark p] })
      { s with fabric := { s.fabric with windows := ws } }

/-- Reads n bytes through a context's tables, sector by sector. -/
def globalReadN : Nat → State → Nat → DWord → Nat → Reach × DWord
  | 0, s, _, va, _ => (.ok [] s, va)
  | f + 1, s, ctx, va, n =>
    if n = 0 then (.ok [] s, va) else
    let m := min n (64 - va.toNat % 64)
    match readGlobal s noTeam ctx va m with
    | .ok bs s =>
      (match globalReadN f s ctx (va + BitVec.ofNat 64 m) (n - m) with
      | (.ok cs s, a) => (.ok (bs ++ cs) s, a)
      | r => r)
    | r => (r, va)

/-- Writes bytes through a context's tables, sector by sector. -/
def globalWriteN : Nat → State → Nat → DWord → List Byte → Reach × DWord
  | 0, s, _, va, _ => (.ok [] s, va)
  | f + 1, s, ctx, va, bs =>
    if bs.isEmpty then (.ok [] s, va) else
    let m := 64 - va.toNat % 64
    match writeGlobal s noTeam 0 ctx va (bs.take m) 0 with
    | .ok _ s => globalWriteN f s ctx (va + BitVec.ofNat 64 m) (bs.drop m)
    | r => (r, va)

/-- A peer's atomic through a context's tables: operand, compare value and signedness from the packet's data. -/
def globalAtomic (s : State) (ctx : Nat) (va : DWord) (p : Packet) : Reach :=
  let n := p.len
  let tag := if (p.data.getD (2 * n) 0) = 0 then 1 else 0
  if (n ≠ 4 ∧ n ≠ 8) ∨ va.toNat % n ≠ 0 then .bad 0x08 0 else
  match walk s ctx va .both with
  | .page e => .page e
  | .fault c _ => .bad c 1
  | .ok l =>
    if l.sealed then .bad 0x12 0
    else if 2 ^ 40 ≤ l.pa then .bad 0x11 1
    else homeAtomic s noTeam l.vc l.pa (p.info.toNat % 16) (n == 8) tag (leVal (p.data.take n)) (leVal ((p.data.drop n).take n)) 0

/-- A request takes effect through the exporting context (R337): its answer, or what it meets; a refused translation is
not answered. -/
def perform (s : State) (p : Packet) (ctx : Nat) (va : DWord) : (Reach × DWord) × Nat × Nat :=
  if p.type = 1 then
    (match globalReady noTeam ctx 200 s va p.data.length with
    | (false, s) => ((.wait s, va), 6, 0)
    | (true, s) => (globalWriteN 200 s ctx va p.data, 6, 0))
  else if p.type = 2 then (globalReadN 200 s ctx va p.len, 3, 0)
  else ((globalAtomic s ctx va p, va), 5, p.info.toNat % 16)

/-- A packet is over at a receiving connection: its answers are kept and sent, and its window no longer waits for it. -/
def servedPacket (s : State) (c : Connection) (p : Packet) (rs : List Packet) : State :=
  let kept := c.replies.filter (fun r => decide (p.seq < r.1 + 1024))
  let s := s.putConn { c with performed := p.seq, waiting := c.waiting.filter (fun x => x.seq != p.seq), posted := false,
                              replies := kept ++ [(p.seq, rs)] }
  let ws := s.fabric.windows.adjust (raWindow p.raddr) (fun (w : Window) =>
    { w with accepted := w.accepted.filter (· != acceptMark p) })
  { s with fabric := { s.fabric with outbox := s.fabric.outbox ++ rs, windows := ws } }

/-- A packet is over, with one answer. -/
def servedWith (s : State) (c : Connection) (p : Packet) (type info : Nat) (data : List Byte) : State :=
  let (rs, s) := replyTo s p type info data
  servedPacket s (s.conn c.owner c.peer) p rs

/-- The head of a connection's waiting packets is performed when it is the next in SEQ order. -/
def serveConn (s : State) (c : Connection) : State :=
  match c.waiting.find? (fun p => p.seq == c.performed + 1) with
  | none => s
  | some p =>
    if p.type = 0 then servedPacket s c p [] else
    if p.type = 7 then servedWith s c p 7 (p.info.toNat % 16) [] else
    match s.fabric.windows.find (raWindow p.raddr) with
    | none => servedPacket s c p []
    | some w =>
      let ((r, at?), type, info) := perform s p w.ctx (w.base + BitVec.ofNat 64 (raOffset p.raddr))
      match r with
      | .ok bs s => servedWith s c p type info bs
      | .bad _ _ => servedPacket s c p []
      | .page _ =>
        if c.posted then s else
        post (s.putConn { c with posted := true }) w.ctx 6 0xFFFFFFFF 0
          { code := 0x10, kind := 0, inrun := false, replay := true, sysmode := false, double := false, group := 0, num := 0,
            iaddr := 0, lanes := 0, faddr := at? }
      | .wait s => s
      | .stall _ => s

/-- A request event: with a packet, its arrival; with none, the connections' turn to perform. -/
def requestEvent (type : Nat) : State → Host.Outcome State Fault Refusal :=
  onEvent (fun e s => match e.packet with
    | some _ => onPacket type arrive e s
    | none => s.fabric.conns.foldl serveConn s)

/-- GFT_PUT (R336, R337). -/
def execGftPut (s : State) : Host.Outcome State Fault Refusal := requestEvent 1 s
/-- GFT_GET_REQUEST (R336, R337). -/
def execGftGetRequest (s : State) : Host.Outcome State Fault Refusal := requestEvent 2 s
/-- GFT_ATOMIC_REQUEST (R336, R337). -/
def execGftAtomicRequest (s : State) : Host.Outcome State Fault Refusal := requestEvent 4 s

/-! ## WEXPORT, WREVOKE (R338, R340) -/

/-- A window is free and eligible: no revocation is under way or younger than 200 µs (R340). -/
def windowFree (s : State) (w : Nat) : Bool :=
  !s.ops.any (fun o => match o.2.body with | .wrevoke k => k == w | _ => false) &&
  match s.fabric.windows.find w with
  | none => true
  | some x => !x.valid && x.accepted.isEmpty && (match x.revoked with | some t => decide (t + 450000 ≤ s.clock) | none => true)

/-- WEXPORT (R338). -/
def execWexport (d a : BitVec 8) (s : State) : Host.Outcome State Fault Refusal :=
  issue { priv := true, role := .copyOnly, sr := [(a.toNat, 8)], sw := [(d.toNat, 1)], bad := a.toNat % 8 != 0, long := some true,
          pair := true } (fun c g run s =>
    let w (k : Nat) : Nat := (g.rf.S (a.toNat + k)).toNat
    let base := g.rf.S64 a.toNat
    let ctx := natBits (w 3) 26 6
    if base.toNat % 65536 ≠ 0 ∨ w 2 = 0 ∨ 262144 < w 2 ∨ natBits (w 3) 24 2 ≠ 0 ∨ natBits (w 3) 3 5 ≠ 0 ∨
        (List.range 4).any (fun k => w (4 + k) != 0) ∨ !(s.ctx ctx).v then
      .fault { code := 0x03, lanes := c.lanes } s
    else
      match (List.range 1024).find? (windowFree s) with
      | none => .ok (s.longOp c run true (.ret d.toNat [0xFFFFFFFF])).2
      | some i =>
        let gen := match s.fabric.windows.find i with | some x => x.gen | none => 0
        let x : Window := { valid := true, gen := gen, ctx := ctx, base := base, length := w 2, fowner := natBits (w 3) 8 16,
                            perm := natBits (w 3) 0 3, revoked := none, accepted := [] }
        let s := { s with fabric := { s.fabric with windows := s.fabric.windows.put i x } }
        .ok (s.longOp c run true (.ret d.toNat [gen * 2 ^ 10 + i])).2) s

/-- WREVOKE (R340). -/
def execWrevoke (a : BitVec 8) (s : State) : Host.Outcome State Fault Refusal :=
  issue { priv := true, role := .copyOnly, sr := [(a.toNat, 1)], long := some false, pair := true } (fun c g run s =>
    let h := (g.rf.S a.toNat).toNat
    match s.fabric.windows.find (natBits h 0 10) with
    | some x =>
      if 2 ^ 18 ≤ h ∨ !x.valid ∨ x.gen ≠ natBits h 10 8 then .fault { code := 0x03, lanes := c.lanes } s
      else .ok ((closeWindow s (natBits h 0 10)).longOp c run false (.wrevoke (natBits h 0 10))).2
    | none => .fault { code := 0x03, lanes := c.lanes } s) s

/-- Every operation that the window accepted has been performed and answered (R340 step 2). -/
def wrevokeDone (s : State) (o : Op) (w : Nat) : Option State :=
  match s.fabric.windows.find w with
  | some x => if x.accepted.isEmpty then some (s.completeOp o.id) else none
  | none => some (s.completeOp o.id)

/-! ## Keys and other traffic (R332 to R334) -/

/-- KEY_EPOCH_INSTALL (R334): the subject's a is the local owner, b its fabric owner identifier, c the epoch, raw the key;
that epoch's packet numbers start again. -/
def execKeyEpochInstall (s : State) : Host.Outcome State Fault Refusal :=
  onEvent (fun e s =>
    if 256 ≤ e.a ∨ 2 ≤ e.c ∨ 2 ^ 16 ≤ e.b ∨ e.raw.length ≠ 32 then s else
    let old := (s.fabric.owners.find e.a).getD { fowner := e.b, key0 := [], key1 := [], epoch := e.c }
    let k : OwnerKey := { fowner := e.b, key0 := if e.c = 0 then e.raw else old.key0, key1 := if e.c = 1 then e.raw else old.key1,
                          epoch := e.c }
    let mine (c : Connection) : Bool := (c.owner == e.a && c.peer == 2 ^ 40 + e.c) ||
      (c.owner == e.b && decide (c.peer < 2 ^ 40) && c.peer % 2 == e.c)
    let cs := s.fabric.conns.filter (fun c => !mine c)
    { s with fabric := { s.fabric with owners := s.fabric.owners.put e.a k, conns := cs } }) s

/-- MANAGEMENT_FRAME (R331 to R333): a frame that is not a GFT packet goes where its address says; others are dropped. -/
def execManagementFrame (s : State) : Host.Outcome State Fault Refusal :=
  onEvent (fun e s => match e.frame with
    | none => s
    | some f =>
      if (s.fabric.macsec && !f.macsecOk) || decide (9216 < f.length) then s.dropPacket else
      match f.addr with
      | .management => { s with fabric := { s.fabric with mgmt := s.fabric.mgmt ++ [f] } }
      | .host => { s with fabric := { s.fabric with hostRx := s.fabric.hostRx ++ [f] } }
      | .peer => s
      | .other => s.dropPacket) s

end Sys2Proof.Machine
end

