-- ==== Sys2Proof/Machine/Matrix.lean ====
section
/-! DEFINITION. The matrix engine (R368 to R398): the arithmetic of a tile and its checksums, the words of major 0x39, the
translation and accumulation of an operation, and the drain of a tile. -/

namespace Sys2Proof.Machine

/-! ## Exact sums (R382, R383) -/

/-- An exact sum in units of 2^-320, with what is not finite in it. -/
structure XSum where
  sum : Int := 0
  nan : Bool := false
  pos : Bool := false
  neg : Bool := false
  deriving DecidableEq, Repr

def XSum.add (a : XSum) (v : FVal) : XSum :=
  match v with
  | .nan _ => { a with nan := true }
  | .inf n => if n then { a with neg := true } else { a with pos := true }
  | .fin n m e => { a with sum := a.sum + scaled n m e (-320) }

def XSum.join (a b : XSum) : XSum :=
  { sum := a.sum + b.sum, nan := a.nan || b.nan, pos := a.pos || b.pos, neg := a.neg || b.neg }

/-- The sum rounded once to FP32. -/
def XSum.round (a : XSum) (mode : Nat) : Nat :=
  if a.nan || (a.pos && a.neg) then fp32.qnan
  else if a.pos then fp32.inf
  else if a.neg then fp32.sign true + fp32.inf
  else (fp32.round mode (decide (a.sum < 0)) a.sum.natAbs (-320)).v

def FVal.abs : FVal → FVal
  | .nan s => .nan s
  | .inf _ => .inf false
  | .fin _ m e => .fin false m e

/-- A NaN as an operand that records nothing (R385). -/
def FVal.quiet : FVal → FVal
  | .nan _ => .nan false
  | v => v

/-- An FP32 word as a value. -/
def readWord (w : Word) : FVal := fp32.read w.toNat

def sumOf (vs : List FVal) : XSum := vs.foldl XSum.add {}

/-! ## Tiles and checksums (R369, R382 to R385) -/

def Check.zero : Check := ⟨0, 0, 0⟩

def Tile.elem (x : Tile) (e : Nat) : Word := x.acc.getD e 0
def Tile.rowEls (x : Tile) (i : Nat) : List Word := (List.range 128).map (fun j => x.elem (128 * i + j))
def Tile.colEls (x : Tile) (j : Nat) : List Word := (List.range 64).map (fun i => x.elem (128 * i + j))

/-- The check of a row or column (R383). -/
def lineOk (els : List Word) (k : Check) : Bool :=
  let vs := els.map readWord
  let odd (v : FVal) : Bool := v.isNan || v.isInf
  let m := readWord k.m
  let v := readWord k.v
  vs.any odd || odd (readWord k.c) || m.isInf || v.isInf ||
  decide (2 ^ 16 * ((sumOf vs).sum - (sumOf [readWord k.c]).sum).natAbs ≤
    (sumOf [m]).sum + 2 ^ 16 * (sumOf [v]).sum + 2 ^ 200)

def Tile.rowOk (x : Tile) (i : Nat) : Bool := lineOk (x.rowEls i) (x.col.getD i Check.zero)
def Tile.colOk (x : Tile) (j : Nat) : Bool := lineOk (x.colEls j) (x.row.getD j Check.zero)

/-- The entry of a row or column as its elements stand (R384). -/
def recomputed (els : List Word) : Check :=
  let vs := els.map readWord
  ⟨BitVec.ofNat 32 ((sumOf vs).round 0), BitVec.ofNat 32 ((sumOf (vs.map FVal.abs)).round 2), 0⟩

/-- Recomputes the entries of listed rows and columns. -/
def Tile.refresh (x : Tile) (rows cols : List Nat) : Tile :=
  { x with row := cols.foldl (fun m j => m.setD j (recomputed (x.colEls j)) Check.zero) x.row,
           col := rows.foldl (fun m i => m.setD i (recomputed (x.rowEls i)) Check.zero) x.col }

/-- Writes elements and recomputes what they touch (R384, R389). -/
def Tile.write (x : Tile) (ws : List (Nat × Word)) : Tile :=
  let y := { x with acc := ws.foldl (fun (m : Map Word) (w : Nat × Word) => m.setD w.1 w.2 0) x.acc }
  y.refresh (ws.map (fun (w : Nat × Word) => w.1 / 128)).eraseDups (ws.map (fun (w : Nat × Word) => w.1 % 128)).eraseDups

/-- TEXC takes flags (R385). -/
def Tile.except (x : Tile) (fl : Nat) : Tile :=
  { x with iv := x.iv || natBit fl 4, ovf := x.ovf || natBit fl 2, uf := x.uf || natBit fl 1, ix := x.ix || natBit fl 0 }

/-- TEXC cleared. -/
def Tile.clearExc (x : Tile) : Tile := { x with iv := false, ovf := false, uf := false, ix := false }

/-- A tile zeroed by MZERO: TCFG stays (R386). -/
def Tile.zeroed (x : Tile) : Tile := { Tile.reset with tcfg := x.tcfg }

/-! ## Panels and products (R143, R144, R147 to R151, R375, R376) -/

/-- One block as it is read: exponent byte, μ byte, sixteen integers. -/
structure QBlock where
  e : Nat
  mu : Nat
  q : List Int
  deriving DecidableEq, Repr

/-- A panel: 128 blocks, or 2,048 BF16 elements. -/
inductive Panel where
  | bpn (bs : List QBlock)
  | bf (els : List Nat)

/-- Bytes of operand lines by line number. -/
abbrev Lines := Map (List Byte)

def Lines.byte (ls : Lines) (va : Nat) : Nat := ((Map.getD ls (va / 256) []).getD (va % 256) 0).toNat

/-- Block b of a BPN panel, read with k planes (R143, R144). -/
def readBlock (ls : Lines) (base k b : Nat) : QBlock :=
  let at? (o : Nat) : Nat := ls.byte ((base + o) % 2 ^ 64)
  let plane (p : Nat) : Nat := at? (256 * (8 - p) + 2 * b) + 256 * at? (256 * (8 - p) + 2 * b + 1)
  let ps := (List.range k).map (fun i => plane (8 - k + i))
  { e := at? (2 * b), mu := at? (2 * b + 1),
    q := (List.range 16).map (fun i => signed k (ps.zipIdx.foldl (fun a p => a + (if natBit p.1 i then 2 ^ p.2 else 0)) 0)) }

/-- A panel from its lines. -/
def readPanel (ls : Lines) (fmt k base : Nat) : Panel :=
  if fmt = 0 then .bpn ((List.range 128).map (readBlock ls base k))
  else .bf ((List.range 2048).map (fun i =>
    ls.byte ((base + 2 * i) % 2 ^ 64) + 256 * ls.byte ((base + 2 * i + 1) % 2 ^ 64)))

/-- Lines of a panel that a multiplication reads (R380). -/
def panelLines (fmt k base : Nat) : List Nat :=
  (List.range (if fmt = 0 then 1 + k else 16)).map (fun i => (base + 256 * i) % 2 ^ 64 / 256)

/-- Fields of TCFG (R374). -/
def cfgKa (c : Word) : Nat := natBits c.toNat 0 4
def cfgKb (c : Word) : Nat := natBits c.toNat 4 4
def cfgLow (c : Word) : Nat := natBits c.toNat 8 3
def cfgSkip (c : Word) : Nat := natBits c.toNat 11 9

/-- A leaf of an element's tree and what it adds to the checksums: bits, flags, the exact value of its sum, its magnitude,
and the tolerance of a relaxed block. -/
structure Leaf1 where
  v : Nat
  fl : Nat
  c : XSum
  m : XSum
  w : XSum

/-- The result of a block pair (R375, R382). -/
def blockLeaf (cfg : Word) (low : Nat) (a b : QBlock) (free : Nat) : Leaf1 :=
  let zero : Leaf1 := ⟨0, 0, {}, {}, {}⟩
  if a.e = 255 ∨ b.e = 255 then ⟨fp32.qnan, 0, { nan := true }, {}, {}⟩
  else if a.e = 0 ∨ b.e = 0 then zero
  else if cfgSkip cfg ≠ 0 ∧ a.e + b.e < cfgSkip cfg then zero
  else
    let term (i : Nat) : Int := a.q.getD i 0 * b.q.getD i 0 *
      ((2 ^ (2 - (if natBit a.mu (i / 2) then 1 else 0) - (if natBit b.mu (i / 2) then 1 else 0)) : Nat) : Int)
    let sum : Int := (List.range 16).foldl (fun z i => z + term i) 0
    let x : Int := (a.e + b.e + (8 - cfgKa cfg) + (8 - cfgKb cfg) : Nat) - 270
    let used : Int := if low = 0 then sum else sum + ((free % (2 ^ (low + 1) + 1) : Nat) : Int) - (2 ^ low : Nat)
    let r := fp32.round 0 (decide (used < 0)) used.natAbs x
    ⟨r.v, r.fl, sumOf [.fin (decide (sum < 0)) sum.natAbs x], sumOf [.fin false sum.natAbs x],
     if low = 0 then {} else sumOf [.fin false 1 (x + (low : Int))]⟩

/-- The exact product of two BF16 elements, and its flags (R150, R385). -/
def bfProduct (a b : Nat) : FVal × Nat :=
  match bf16.read a, bf16.read b with
  | .nan _, _ => (.nan false, 0)
  | _, .nan _ => (.nan false, 0)
  | .inf n, .inf k => (.inf (n != k), 0)
  | .inf n, .fin k m _ => if m = 0 then (.nan false, fIV) else (.inf (n != k), 0)
  | .fin k m _, .inf n => if m = 0 then (.nan false, fIV) else (.inf (n != k), 0)
  | .fin n m e, .fin k p f => (.fin (n != k) (m * p) (e + f), 0)

/-- A node of a matrix tree: RNE, and no flag for a NaN that comes in. -/
def matAdd (a b : Nat) : ER := fp32.addV 0 (fp32.read a).quiet (fp32.read b).quiet

/-- A group of 16 BF16 products (R150): the first node rounds the sum of two exact products. -/
def groupLeaf (as bs : List Nat) : Leaf1 :=
  let ps := (List.zip as bs).map (fun x => bfProduct x.1 x.2)
  let first := (List.range 8).map (fun i =>
    fp32.addV 0 (ps.getD (2 * i) (.fin false 0 0, 0)).1 (ps.getD (2 * i + 1) (.fin false 0 0, 0)).1)
  let (v, fs) := treeFold matAdd 3 (first.map (·.v))
  ⟨v, flagsOr (ps.map (·.2) ++ first.map (·.fl) ++ fs), sumOf (ps.map (·.1)), sumOf (ps.map (fun p => p.1.abs)), {}⟩

/-- The 128 leaves of an element. -/
def leaves (cfg : Word) (low : Nat) (a b : Panel) (free : Nat → Nat) : List Leaf1 :=
  match a, b with
  | .bpn xs, .bpn ys => (List.zip xs ys).zipIdx.map (fun p => blockLeaf cfg low p.1.1 p.1.2 (free p.2))
  | .bf xs, .bf ys => (List.range 128).map (fun k => groupLeaf ((xs.drop (16 * k)).take 16) ((ys.drop (16 * k)).take 16))
  | _, _ => []

/-- One element's product: its tree, flags and checksum contributions. -/
def product (cfg : Word) (low : Nat) (a b : Panel) (free : Nat → Nat) : Leaf1 :=
  let ls := leaves cfg low a b free
  let (v, fs) := treeFold matAdd 7 (ls.map (·.v))
  ⟨v, flagsOr (ls.map (·.fl) ++ fs), ls.foldl (fun s l => s.join l.c) {}, ls.foldl (fun s l => s.join l.m) {},
   ls.foldl (fun s l => s.join l.w) {}⟩

/-- A checksum entry takes the contributions of an operation (R382). -/
def Check.take (k : Check) (low : Nat) (ps : List Leaf1) : Check :=
  let c := (ps.foldl (fun s l => s.join l.c) {} : XSum).round 0
  let m := (ps.foldl (fun s l => s.join l.m) {} : XSum).round 2
  let w := (ps.foldl (fun s l => s.join l.w) {} : XSum).round 2
  { c := BitVec.ofNat 32 (matAdd k.c.toNat c).v,
    m := BitVec.ofNat 32 (fp32.addV 2 (readWord k.m) (fp32.read m)).v,
    v := if low = 0 then k.v else BitVec.ofNat 32 (fp32.addV 2 (readWord k.v) (fp32.read w)).v }

/-- A multiplication on one half (R376): rows with their panels, columns with theirs. -/
def Tile.multiply (x : Tile) (low : Nat) (rows cols : List (Nat × Panel)) (free : Nat → Nat) : Tile :=
  let ps : List (Nat × Nat × Leaf1) := rows.flatMap (fun r => cols.map (fun c =>
    (r.1, c.1, product x.tcfg low r.2 c.2 (fun b => free ((r.1 * 128 + c.1) * 128 + b)))))
  let news : List (Nat × ER) := ps.map (fun p => (128 * p.1 + p.2.1, matAdd (x.elem (128 * p.1 + p.2.1)).toNat p.2.2.v))
  let fl := flagsOr (ps.map (fun p => p.2.2.fl) ++ news.map (fun n => n.2.fl))
  let acc := news.foldl (fun (m : Map Word) (n : Nat × ER) => m.setD n.1 (BitVec.ofNat 32 n.2.v) 0) x.acc
  let row := if rows.isEmpty then x.row else cols.foldl (fun (m : Map Check) (c : Nat × Panel) =>
    m.setD c.1 ((x.row.getD c.1 Check.zero).take low ((ps.filter (fun p => p.2.1 == c.1)).map (fun p => p.2.2))) Check.zero) x.row
  let col := rows.foldl (fun (m : Map Check) (r : Nat × Panel) =>
    m.setD r.1 ((x.col.getD r.1 Check.zero).take low ((ps.filter (fun p => p.1 == r.1)).map (fun p => p.2.2))) Check.zero) x.col
  let y := { x with acc := acc, row := row, col := col }
  y.except fl

/-- An operation that ended in error (R395): each element and flag from before or after it, checksums as they then stand. -/
def Tile.mixed (x y : Tile) (free : Nat) : Tile :=
  let acc := (List.range 8192).foldl (fun (m : Map Word) e =>
    m.setD e (if natBit free e then y.elem e else x.elem e) 0) []
  let fl := (if natBit free 8192 && y.iv then fIV else 0) + (if natBit free 8193 && y.ovf then fOF else 0) +
    (if natBit free 8194 && y.uf then fUF else 0) + (if natBit free 8195 && y.ix then fIX else 0)
  ({ x with acc := acc }.except fl).refresh (List.range 64) (List.range 128)

/-! ## The operand descriptor (R373) -/

/-- FMT of a descriptor. -/
def matFmt (ws : List Word) : Nat := natBits (dword ws 3) 0 2
def matGath (ws : List Word) : Bool := natBit (dword ws 3) 2

/-- Bytes of a panel of a format. -/
def panelSize (fmt : Nat) : Nat := [2304, 4096, 8192, 0].getD fmt 0

/-- OPERAND of a descriptor's words: the datum of the first that breaks its limits. -/
def matDescBad (ws : List Word) (fmts : List Nat) (gath : List Bool) (drain : Bool) : Option Nat :=
  let k := dword ws 5
  if dword ws 2 % 256 ≠ 0 ∨ dword ws 2 < panelSize (matFmt ws) then some 2
  else if 8 ≤ dword ws 3 ∨ !fmts.contains (matFmt ws) ∨ !gath.contains (matGath ws) then some 0x13
  else if !matGath ws ∧ dword ws 4 ≠ 0 then some 4
  else if (if drain then k % 128 ≠ 0 ∨ 1920 < k else k ≠ 0) then some 5
  else if dword ws 6 ≠ 0 then some 6
  else if dword ws 7 ≠ 0 then some 7
  else none

/-- Faults 3 and 4 of R393 for descriptors: BASE and IDX alignment, then a base that is not canonical. -/
def matAddrFault (c : Cur) (ds : List (List Word)) : Option FaultInfo :=
  match ds.find? (fun d => (dpair d 0).toNat % 256 != 0) with
  | some d => some { code := 0x08, datum := 0, lanes := c.lanes, faddr := dpair d 0 }
  | none =>
    match ds.find? (fun d => matGath d && dword d 4 % 64 != 0) with
    | some d => some { code := 0x08, datum := 4, lanes := c.lanes, faddr := BitVec.ofNat 64 (dword d 4) }
    | none => (ds.find? (fun d => !canonical (dpair d 0))).map (fun d => { code := 0x11, lanes := c.lanes, faddr := dpair d 0 })

/-- What reading an index list at issue comes to. -/
inductive ListRead where
  | ok (ws : List Word) (s : State)
  | hold (s : State)
  | fault (f : FaultInfo)

/-- The index list of a descriptor, read from scratch at issue (R373, R378). -/
def readList (s : State) (c : Cur) (t : Team) (d : List Word) (n : Nat) : ListRead :=
  if !matGath d then .ok [] s else
  let off := dword d 4
  let slot := off / 32768
  let out : ListRead := .fault { code := 0x13, datum := slot, lanes := c.lanes, faddr := BitVec.ofNat 64 off }
  if 32768 < off % 32768 + 4 * n then out else
  match t.slot slot with
  | .attached b =>
    if bankBlocksOut s t b s.opCtr then .hold s
    else
      (match s.wakeBank t.pool b with
      | (true, s) =>
        if bankBad s t.pool b off (4 * n) then
          .fault { code := 0x17, datum := b, lanes := c.lanes, faddr := BitVec.ofNat 64 off }
        else .ok (wordsOf n (Memory.readN ((s.cluster t.pool).bank b).mem (4 * n) (off % 32768)))
          (s.correctBank t.pool b (off % 32768) (4 * n))
      | (false, s) => .hold s)
  | _ => out

/-! ## Issue (R371, R393) -/

/-- The datum of TOKEN for a group that does not hold a tile (R371). -/
def tokenFault (t : Team) (g : Group) (z : Nat) : Option Nat :=
  if t.desc.matCount = 0 then some 0xFF else if t.tokens.getD z none = some g.id then none else some z

/-- A word that changes tiles saves them for the innermost level at its first change (R396): it waits until no earlier
operation is left on an unsaved tile. -/
def withTile (c : Cur) (z : Nat) (own : State → Eff) (s : State) : Eff :=
  match s.teams.find c.team with
  | none => .ok s
  | some t =>
    if !t.halves.any (t.tileUnsaved z) then own s
    else if tileWaits s t z s.opCtr then .stay s
    else match saveTiles s t [z] with
      | some t => own (s.putTeam c.team t)
      | none => overflow c s

/-- A word of a tile that its group must hold. -/
def tileWord (c : Cur) (g : Group) (z : Nat) (s : State) (own : Team → Eff) : Eff :=
  match s.teams.find c.team with
  | none => .ok s
  | some t =>
    match tokenFault t g z with
    | some d => .fault { code := 0x18, datum := d, lanes := c.lanes } s
    | none => own t

/-- OPERAND of a word of major 0x39. -/
def matOperand (c : Cur) (d : Nat) (s : State) : Eff := .fault { code := 0x03, datum := d, lanes := c.lanes } s

/-- TCFG values that MCFG accepts (R374). -/
def cfgOk (w : Word) : Bool :=
  natBits w.toNat 20 12 == 0 && cfgLow w != 7 && decide (2 ≤ cfgKa w) && decide (cfgKa w ≤ 8) && decide (2 ≤ cfgKb w) &&
  decide (cfgKb w ≤ 8)

/-- MCFG (R374). -/
def execMcfg (n : BitVec 2) (a : BitVec 8) (s : State) : Host.Outcome State Fault Refusal :=
  issue { role := .matrixOnly, sr := [(a.toNat, 1)], long := some false, pair := true } (fun c g run s =>
    let w := g.rf.S a.toNat
    if !cfgOk w then matOperand c 0 s else
    tileWord c g n.toNat s (fun _ =>
      withTile c n.toNat (fun s => .ok (s.longOp c run false (.mcfg n.toNat w)).2) s)) s

/-- MMP, MMPB and MMPG (R376, R378): checks, the index list, and the operation. -/
def multiplyWord (fn : Nat) (fmts : List Nat) (n : BitVec 2) (a b : BitVec 8) (sg : BitVec 1) (s : State) :
    Host.Outcome State Fault Refusal :=
  issue { role := .matrixOnly, sr := [(a.toNat, 8), (b.toNat, 8)], bad := a.toNat % 8 != 0 || b.toNat % 8 != 0,
          long := some false, pair := true } (fun c g run s =>
    match s.teams.find c.team with
    | none => .ok s
    | some t =>
      let share := sg == 1
      let da := (List.range 8).map (fun k => g.rf.S (a.toNat + k))
      let db := (List.range 8).map (fun k => g.rf.S (b.toNat + k))
      if share && !t.pair then matOperand c 0 s else
      match matDescBad da fmts [fn == 2] false with
      | some d => matOperand c d s
      | none =>
        match matDescBad db (if fn = 2 then [matFmt da] else fmts) [false] false with
        | some d => matOperand c d s
        | none =>
          tileWord c g n.toNat s (fun t =>
            match matAddrFault c [da, db] with
            | some f => .fault f s
            | none =>
              match readList s c t da (if t.pair && share then 128 else 64) with
              | .fault f => .fault f s
              | .hold s => .stay s
              | .ok ls s => withTile c n.toNat (fun s =>
                  .ok (s.longOp c run false (.matrix fn n.toNat da db share ls none false [] none)).2) s)) s

/-- MMP (R376). -/
def execMmp (n : BitVec 2) (a b : BitVec 8) (sg : BitVec 1) (s : State) : Host.Outcome State Fault Refusal :=
  multiplyWord 0 [0] n a b sg s
/-- MMPB (R376). -/
def execMmpb (n : BitVec 2) (a b : BitVec 8) (sg : BitVec 1) (s : State) : Host.Outcome State Fault Refusal :=
  multiplyWord 1 [1] n a b sg s
/-- MMPG (R376). -/
def execMmpg (n : BitVec 2) (a b : BitVec 8) (sg : BitVec 1) (s : State) : Host.Outcome State Fault Refusal :=
  multiplyWord 2 [0, 1] n a b sg s

/-- MZERO (R386). -/
def execMzero (n : BitVec 2) (s : State) : Host.Outcome State Fault Refusal :=
  issue { role := .matrixOnly, long := some false } (fun c g run s =>
    tileWord c g n.toNat s (fun _ => withTile c n.toNat (fun s => .ok (s.longOp c run false (.mzero n.toNat)).2) s)) s

/-- TOKPASS (R387): a release at team scope; the group holds the token no more from issue on. -/
def execTokpass (n : BitVec 2) (a : BitVec 8) (s : State) : Host.Outcome State Fault Refusal :=
  issue { role := .matrixVector, sr := [(a.toNat, 2)], bad := odd a, long := some false, pair := true } (fun c g run s =>
    match s.teams.find c.team with
    | none => .ok s
    | some t =>
      let dst := (g.rf.S a.toNat).toNat
      let h := g.rf.S (a.toNat + 1)
      let own := h == 0xFFFFFFFF
      let other := s.teams.any (fun (x : Nat × Team) => !x.2.command && x.2.handle == h && x.2.ctx != t.ctx)
      let gone := match t.group? dst with | some x => x.retired | none => true
      if !own && !other then matOperand c 0x71 s
      else if own && (decide (t.ngroups ≤ dst) || gone) then matOperand c 0 s
      else tileWord c g n.toNat s (fun t =>
        if !own then .fault { code := 0x11, datum := 0x70, lanes := c.lanes } s
        else if !releaseDone s t g 1 s.opCtr then .stay s
        else .ok ((s.onTeam t.id (fun t => { t with tokens := setAt t.tokens n.toNat none,
                                                     tokpend := setAt t.tokpend n.toNat (some dst) })).longOp c run false
            (.tokpass n.toNat dst)).2)) s

/-- TOKWAIT (R387): an acquire at team scope. -/
def execTokwait (n : BitVec 2) (s : State) : Host.Outcome State Fault Refusal :=
  issue { role := .matrixVector, long := some false } (fun c g run s =>
    match s.teams.find c.team with
    | none => .ok s
    | some t =>
      if t.desc.matCount = 0 then .fault { code := 0x18, datum := 0xFF, lanes := c.lanes } s
      else if t.tokens.getD n.toNat none ≠ some g.id then .stay (s.setWait c (.token n.toNat))
      else .ok ((s.longOp c run false .done).2.acquire c 1)) s

/-- The element index of TREAD and TWRITE (R388). -/
def elemIndexOk (g : Group) (e : Nat) : Bool := e % g.lanes == 0 && decide (e < 8192)

/-- TREAD (R388). -/
def execTread (n : BitVec 2) (d r : BitVec 8) (h : BitVec 1) (s : State) : Host.Outcome State Fault Refusal :=
  issue { role := .matrixVector, sr := [(r.toNat, 1)], vw := [d.toNat], long := some true } (fun c g run s =>
    match s.teams.find c.team with
    | none => .ok s
    | some t =>
      let e := (g.rf.S r.toNat).toNat
      if (h == 1 && !t.pair) || !elemIndexOk g e then matOperand c 0 s else
      tileWord c g n.toNat s (fun _ =>
        let lanes := lanesOf c.lanes
        let bad (l : Nat) : Option (Nat × Nat) :=
          if g.outside d.toNat 1 l then some (0x07, 0)
          else if g.sliceSplits lanes d.toNat 1 2 l then some (0x06, 0)
          else if decide (0x88 ≤ d.toNat) && (g.rf :: g.sh.toList).any (fun rf => rf.xbad.contains ((d.toNat - 0x88) * 64 + l))
            then some (0x21, 0x20) else none
        let fs : List LaneFault := lanes.filterMap (fun l => (bad l).map (fun f => (l, f)))
        let good := lanes.filter (fun l => (bad l).isNone)
        let regs := good.map (fun l => (l, (g.regAt g.rf d.toNat l).getD 0))
        let s := (s.longOp c run true (.tread n.toNat h.toNat e regs)).2
        match laneFaultInfo columnOrder fs with
        | some f => .fault f s
        | none => .ok s)) s

/-- TWRITE (R389): the register is read at issue. -/
def execTwrite (n : BitVec 2) (a r : BitVec 8) (h : BitVec 1) (s : State) : Host.Outcome State Fault Refusal :=
  issue { role := .matrixVector, sr := [(r.toNat, 1)], vr := [a.toNat], bad := !isRegCode a.toNat, long := some false }
    (fun c g run s =>
      match s.teams.find c.team with
      | none => .ok s
      | some t =>
        let e := (g.rf.S r.toNat).toNat
        if (h == 1 && !t.pair) || !elemIndexOk g e then matOperand c 0 s else
        tileWord c g n.toNat s (fun _ =>
          let lanes := lanesOf c.lanes
          let bad (l : Nat) : Option (Nat × Nat) :=
            if g.outside a.toNat 1 l then some (0x07, 0)
            else if (g.tagsAt a.toNat 1 l).any (· != 2) then some (0x05, 0)
            else (g.dirtyAt a.toNat 1 l 1).map (fun d => (0x21, d))
          let fs : List LaneFault := lanes.filterMap (fun l => (bad l).map (fun f => (l, f)))
          let good := lanes.filter (fun l => (bad l).isNone)
          let words := good.map (fun l => (e + l, (g.srcVal run g.rf a.toNat l).getD 0))
          let go (s : State) : Eff :=
            let s := (s.longOp c run false (.twrite n.toNat h.toNat e words)).2
            match laneFaultInfo columnOrder fs with
            | some f => .fault f s
            | none => .ok s
          if good.isEmpty then go s else withTile c n.toNat go s)) s

/-- TCHK (R390). -/
def execTchk (n : BitVec 2) (d : BitVec 8) (k f h : BitVec 1) (s : State) : Host.Outcome State Fault Refusal :=
  issue { role := .matrixVector, sw := [(d.toNat, 1)], long := some true } (fun c g run s =>
    match s.teams.find c.team with
    | none => .ok s
    | some t =>
      if h == 1 && !t.pair then matOperand c 0 s else
      tileWord c g n.toNat s (fun _ =>
        .ok (s.longOp c run true (.tchk n.toNat h.toNat d.toNat (k == 1) (f == 1))).2)) s

/-- MDRAIN (R391): in a core-pair team the gang stays until its lines have entered the compare engine (R398, R437). -/
def execMdrain (n : BitVec 2) (a : BitVec 8) (h : BitVec 1) (s : State) : Host.Outcome State Fault Refusal :=
  issue { role := .matrixVector, sr := [(a.toNat, 8)], bad := a.toNat % 8 != 0, long := some false, pair := true }
    (fun c g run s =>
      match s.teams.find c.team with
      | none => .ok s
      | some t =>
        let da := (List.range 8).map (fun k => g.rf.S (a.toNat + k))
        if h == 1 && !t.pair then matOperand c 0 s else
        match matDescBad da [0, 1, 2] [false, true] true with
        | some d => matOperand c d s
        | none =>
          tileWord c g n.toNat s (fun t =>
            match matAddrFault c [da] with
            | some f => .fault f s
            | none =>
              match readList s c t da 64 with
              | .fault f => .fault f s
              | .hold s => .stay s
              | .ok ls s =>
                let (id, s) := s.longOp c run false (.mdrain n.toNat h.toNat da ls none none)
                if t.paired then .stay (s.setWait c (.drain id)) else .ok s)) s

/-! ## Completion of tile operations (R379) -/

/-- A fault that arises after issue (R394). -/
def matLate (s : State) (o : Op) (z h code : Nat) (va : DWord) : State :=
  s.keepLate o { code := code, datum := z + 4 * h, lanes := o.lanes, faddr := va }

/-- An operation that waits for every earlier one on its tile; none while it does. -/
def atTile (s : State) (o : Op) (z : Nat) (act : Team → State) : Option State :=
  match s.teams.find o.team with
  | none => some (s.completeOp o.id)
  | some t => if tileWaits s t z o.id then none else some (act t)

def mcfgDone (s : State) (o : Op) (z : Nat) (w : Word) : Option State :=
  atTile s o z (fun t => (t.halves.foldl (fun (s : State) h => s.putTile t z h { s.tileOf t z h with tcfg := w }) s).completeOp o.id)

def mzeroDone (s : State) (o : Op) (z : Nat) : Option State :=
  atTile s o z (fun t => (t.halves.foldl (fun (s : State) h => s.putTile t z h (s.tileOf t z h).zeroed) s).completeOp o.id)

def treadDone (s : State) (o : Op) (z h e : Nat) (regs : List (Nat × Nat)) : Option State :=
  atTile s o z (fun t =>
    let x := s.tileOf t z h
    if !x.rowOk (e / 128) then (matLate s o z h 0x19 0).completeOp o.id else
    (s.onGroup o.team o.group (fun g => regs.foldl (fun (g : Group) (r : Nat × Nat) =>
      (g.files (fun rf => rf.setV r.2 r.1 (x.elem (e + r.1)))).setTag r.2 (g.sliceOf r.1) 2) g)).completeOp o.id)

def twriteDone (s : State) (o : Op) (z h : Nat) (ws : List (Nat × Word)) : Option State :=
  atTile s o z (fun t => (s.putTile t z h ((s.tileOf t z h).write ws)).completeOp o.id)

def tchkDone (s : State) (o : Op) (z h d : Nat) (clr nf : Bool) : Option State :=
  atTile s o z (fun t =>
    let x := s.tileOf t z h
    let rows := ((List.range 64).filter (fun i => !x.rowOk i)).length
    let cols := ((List.range 128).filter (fun j => !x.colOk j)).length
    let fail := decide (0 < rows + cols)
    let b (f : Bool) (k : Nat) : Nat := if f then 2 ^ k else 0
    let w := b fail 31 + b x.iv 20 + b x.ovf 18 + b x.uf 17 + b x.ix 16 + cols * 256 + rows
    let s := if clr then s.putTile t z h x.clearExc else s
    let s := if fail && !nf then matLate s o z h 0x19 0 else s
    finishOp s o.id [w] d)

/-- TOKEN_HANDOVER (R387): the subject is a team and a tile. The receiver may have retired meanwhile (R371). -/
def execTokenHandover (s : State) : Host.Outcome State Fault Refusal :=
  onEvent (fun e s =>
    match s.teams.find e.a with
    | none => s
    | some t =>
      match s.ops.find? (fun (o : Nat × Op) => o.2.team == e.a && (match o.2.body with | .tokpass z _ => z == e.b | _ => false)) with
      | some (_, o) =>
        (match o.body with
        | .tokpass z k =>
          if tileWaits s t z o.id then s else
          let live := (t.groups.filter (fun g => !g.retired)).map (·.id)
          let inRange := live.filter (fun g => decide (t.desc.matFirst ≤ g) && decide (g < t.desc.matFirst + t.desc.matCount))
          let to? := if live.contains k then some k else (inRange ++ live).head?
          (s.onTeam e.a (fun t => { t with tokens := setAt t.tokens z to?, tokpend := setAt t.tokpend z none })).completeOp o.id
        | _ => s)
      | none => s) s

/-! ## Translation and fetch (R376 to R378) -/

/-- The addresses that are translated for panels: the first of each page that a panel touches. -/
def panelVas (size : Nat) (bases : List Nat) : List Nat :=
  bases.flatMap (fun p =>
    let q := (p + size - 1) % 2 ^ 64
    if q / 65536 = p / 65536 then [p] else [p, q / 65536 * 65536])

/-- The tile fetch unit of a cluster translates addresses in order (R240, R378); ok stands for all of them. None while a page table
lies in a slice bank in retention (R286). -/
def coverAll (cluster ctx : Nat) (need : Need) : State → List Nat → Option Cover × State
  | s, [] => (some (.ok []), s)
  | s, a :: as =>
    match engineLeaf s (.tiles cluster) ctx (BitVec.ofNat 64 a) need with
    | (none, s) => (none, s)
    | (some (.page e), s) => (some (.page (BitVec.ofNat 64 a) e), s)
    | (some (.fault c d), s) => (some (.fault c d (BitVec.ofNat 64 a)), s)
    | (some (.ok _), s) => coverAll cluster ctx need s as

/-- An operation meets an invalid entry: one record for the address, and a monitor (R378). The new record mark is given
back. -/
def tilePage (s : State) (t : Team) (o : Op) (va : DWord) (entry : Nat) (posted : Option DWord) : State :=
  let s := if posted = some va then s else
    postTeam s t 3 { code := 0x10, kind := 0, inrun := false, replay := true, sysmode := false, double := false,
                     group := o.group, num := 0, iaddr := o.iaddr, lanes := 0, faddr := va }
  (armMonitor s (s.ctx t.ctx).phvc entry (.op o.id)).1

/-- The rows of a half that an operation does not skip, with their panels (R376). -/
def opRows (t : Team) (fn : Nat) (a : List Word) (share : Bool) (list : List Word) (h : Nat) : List (Nat × Nat) :=
  (List.range 64).filterMap (fun i =>
    let ra := if t.pair && share then i + 64 * h else i
    let x := if fn = 2 then (list.getD ra 0xFFFFFFFF).toNat else ra
    if fn = 2 ∧ x = 0xFFFFFFFF then none else some (i, ((dpair a 0).toNat + x * dword a 2) % 2 ^ 64))

/-- The columns of a half with their panels. -/
def opCols (t : Team) (b : List Word) (share : Bool) (h : Nat) : List (Nat × Nat) :=
  (List.range 128).map (fun j =>
    let cb := if t.pair && !share then j + 128 * h else j
    (j, ((dpair b 0).toNat + cb * dword b 2) % 2 ^ 64))

/-- Planes that a half reads of A and B. -/
def opPlanes (s : State) (t : Team) (z h : Nat) : Nat × Nat :=
  let c := (s.tileOf t z h).tcfg
  (cfgKa c, cfgKb c)

/-- Every line that an operation reads, each once (R380). -/
def opLines (s : State) (t : Team) (fn z : Nat) (a b : List Word) (share : Bool) (list : List Word) : List Nat :=
  (t.halves.flatMap (fun h =>
    let (ka, kb) := opPlanes s t z h
    (opRows t fn a share list h).flatMap (fun r => panelLines (matFmt a) ka r.2) ++
    (opCols t b share h).flatMap (fun c => panelLines (matFmt b) kb c.2))).eraseDups

/-- A block of the group itself, older than an operation, that covers bytes of a line is not performed yet (R377). -/
def olderOver (s : State) (t : Team) (g : Group) (pa n before : Nat) : Bool :=
  let hit (b : Block) : Bool := b.team == t.id && b.group == g.id && decide (b.id < before) && b.space == .global &&
    b.cells.any (fun c => decide (pa ≤ c.1) && decide (c.1 < pa + n))
  g.fifo.any hit || (s.mergePoint g.core).any hit || (s.core (s.mergeKey g.core)).comm.any hit ||
  (t.paired && heldOut s t g before)

/-- What fetching a line comes to: its bytes and whether it is poisoned, a wait, or a translation that no longer holds. -/
inductive LineRead where
  | ok (bs : List Byte) (bad : Bool) (s : State)
  | wait (s : State)
  | again

/-- The tile fetch unit pins a line for an operation (R380). It holds at most 4,096; the array then consumes the oldest that it holds
for the operation, and where it holds none the request waits. -/
def State.pinLine (s : State) (cluster op vc line : Nat) : Option State :=
  let c := s.cluster cluster
  let put (ps : List (Nat × Nat × Nat)) : State := s.putCluster cluster { c with pins := ps ++ [(op, vc, line)] }
  if c.pins.length < 4096 then some (put c.pins)
  else match c.pins.findIdx? (fun p => p.1 == op) with
    | some i => some (put (c.pins.eraseIdx i))
    | none => none

/-- The lines that are pinned for an operation are so no more. -/
def State.unpin (s : State) (cluster op : Nat) : State :=
  s.putCluster cluster { s.cluster cluster with pins := (s.cluster cluster).pins.filter (fun p => p.1 != op) }

/-- A line that the group may read at its home now, read whole at one instant, and pinned there (R377, R380). -/
def homeLine (s : State) (t : Team) (g : Group) (o : Op) (l : Leaf) : LineRead :=
  if 2 ^ 40 ≤ l.pa then .ok (devBytes s l.pa 256) false s else
  let secs := (List.range 4).map (fun i => l.pa + 64 * i)
  if olderOver s t g l.pa 256 o.id || secs.any (fun a => provBlocked s t.id (homeKey l.vc a)) then .wait s else
  match s.wakeSlice l.vc l.pa with
  | (false, s) => .wait s
  | (true, s) =>
    if secs.any (fun a => !present s l.vc a) && !s.linkLive (s.homeDie l.vc l.pa) then .wait s
    else match s.pinLine t.pool o.id l.vc (l.pa / 256) with
      | none => .wait s
      | some s =>
        let bad := secs.any (fun a => homePoison s l.vc a)
        .ok (homeBytes s l.vc 256 l.pa) bad (secs.foldl (fun (s : State) a => s.correct l.vc a) s)

/-- One operand line of an operation. -/
def fetchLine (s : State) (t : Team) (o : Op) (line : Nat) : LineRead :=
  match t.group? o.group with
  | none => .wait s
  | some g =>
    match engineLeaf s (.tiles t.pool) t.ctx (BitVec.ofNat 64 (256 * line)) .load with
    | (none, s) => .wait s
    | (some (.ok l), s) => homeLine s t g o l
    | _ => .again

/-- The update of every half once all lines are there (R376, R395): relaxed low bits take free values, in a core-pair team
none (R435). -/
def accumulate (s : State) (t : Team) (o : Op) (fn z : Nat) (a b : List Word) (share : Bool) (list : List Word)
    (lines : Lines) (bad : Option DWord) : State :=
  let half (s : State) (h : Nat) : State :=
    let x := s.tileOf t z h
    let (ka, kb) := opPlanes s t z h
    let low := if t.paired || matFmt a != 0 then 0 else cfgLow x.tcfg
    let first := s.freeCtr
    let rows := (opRows t fn a share list h).map (fun r => (r.1, readPanel lines (matFmt a) ka r.2))
    let cols := (opCols t b share h).map (fun c => (c.1, readPanel lines (matFmt b) kb c.2))
    let y := x.multiply low rows cols (fun k => Config.freeNat (first + k))
    let s := if low = 0 then s else { s with freeCtr := first + 64 * 128 * 128 }
    if bad.isNone then s.putTile t z h y else
    let (n, s) := s.free
    s.putTile t z h (x.mixed y n)
  let s := t.halves.foldl half s
  let s := match bad with | some va => matLate s o z 0 0x17 va | none => s
  (s.unpin t.pool o.id).completeOp o.id

/-- Fetches the lines of a list in order until one has to wait. -/
def fetchSome (t : Team) (o : Op) (body : Option DWord → Bool → Lines → Option DWord → OpBody) :
    List Nat → State → Option DWord → Lines → Option DWord → State
  | [], s, posted, lines, bad => s.setBody o.id (body posted true lines bad)
  | ln :: rest, s, posted, lines, bad =>
    match fetchLine s t o ln with
    | .ok bs p s => fetchSome t o body rest s posted (Map.put lines ln bs)
        (if p && bad.isNone then some (BitVec.ofNat 64 (256 * ln)) else bad)
    | .wait s => s.setBody o.id (body posted true lines bad)
    | .again => s.setBody o.id (body posted false lines bad)

/-- MATRIX_ACCUMULATION (R376 to R378): the subject is a multiplication, and which of its lines comes next; with the flag
all that are left. A multiplication first translates its panels, takes its turn at the tile, and fetches; then every
element takes its update. -/
def execMatrixAccumulation (s : State) : Host.Outcome State Fault Refusal :=
  onEvent (fun e s =>
    match s.ops.find e.a with
    | none => s
    | some o =>
      match o.body, s.teams.find o.team with
      | .matrix fn z a b share list posted started lines bad, some t =>
        let body (p : Option DWord) (st : Bool) (ls : Lines) (bd : Option DWord) : OpBody := .matrix fn z a b share list p st ls bd
        if t.phase ≠ .resident then s
        else if !started then
          let vas (h : Nat) : List Nat :=
            panelVas (panelSize (matFmt a)) ((opRows t fn a share list h).map (·.2)) ++
            panelVas (panelSize (matFmt b)) ((opCols t b share h).map (·.2))
          (match coverAll t.pool t.ctx .load s (t.halves.flatMap vas) with
          | (none, s) => s
          | (some (.page va en), s) => (tilePage s t o va en posted).setBody o.id (body (some va) false lines bad)
          | (some (.fault code _ va), s) => ((matLate s o z 0 code va).unpin t.pool o.id).completeOp o.id
          | (some (.ok _), s) => s.setBody o.id (body posted true lines bad))
        else if tileWaits s t z o.id || acquiresOut s t.id o.group o.id then s
        else
          let need := (opLines s t fn z a b share list).filter (fun ln => (lines.find ln).isNone)
          (match need with
          | [] => accumulate s t o fn z a b share list lines bad
          | ln :: _ => fetchSome t o body (if e.flag then need else [need.getD (e.b % need.length) ln]) s posted lines bad)
      | _, _ => s) s

/-! ## MDRAIN (R391, R392) -/

/-- The target panels of a drain: row and address. -/
def drainRows (a list : List Word) : List (Nat × Nat) :=
  (List.range 64).filterMap (fun i =>
    let x := if matGath a then (list.getD i 0xFFFFFFFF).toNat else i
    if matGath a ∧ x = 0xFFFFFFFF then none else some (i, ((dpair a 0).toNat + x * dword a 2) % 2 ^ 64))

/-- Lines that each row writes. -/
def drainCount (fmt : Nat) : Nat := if fmt = 0 then 9 else if fmt = 1 then 1 else 2

/-- A row's values as BF16 with the flags of the conversions. -/
def drainBf (x : Tile) (i : Nat) : List ER := (x.rowEls i).map (fun w => cvtFF 0 false 2 3 w.toNat)

/-- Line m of a row: its offset in the panel and its bytes. -/
def drainLine (x : Tile) (fmt koff i m : Nat) : Nat × List Byte :=
  if fmt = 0 then
    let bs := (List.range 8).map (fun b => bpnEncode ((List.range 16).map (fun k => (x.elem (128 * i + 16 * b + k)).toNat)))
    (256 * m + 2 * (koff / 16), bs.flatMap (fun b =>
      if m = 0 then bytesLE 1 b.e ++ bytesLE 1 b.mu else bytesLE 2 (b.plane (8 - m))))
  else if fmt = 1 then (2 * koff, (drainBf x i).flatMap (fun r => bytesLE 2 r.v))
  else (4 * koff + 256 * m, ((List.range 64).map (fun k => x.elem (128 * i + 64 * m + k))).flatMap (fun w => bytesLE 4 w.toNat))

/-- The gang that a drain of a core-pair team holds goes on. -/
def freeGang (s : State) (o : Op) : State :=
  match (s.group? o.team o.group).bind (fun g => g.gangs.find? (fun k => k.wait == .drain o.id)) with
  | some k => s.finishWord o.team o.group k.id
  | none => s

/-- A drain ends. -/
def drainEnd (s : State) (o : Op) : State := (freeGang s o).completeOp o.id

/-- A block or event of a drain is not performed or compared yet. -/
def drainOut (s : State) (t : Team) (o : Op) : Bool :=
  (t.cmp.held ++ t.cmp.seen).any (fun e => match e.block with | some b => b.op == o.id | none => false) ||
  t.groups.any (fun g => g.fifo.any (fun b => b.op == o.id)) || s.cores.any (fun c => c.2.merge.any (fun b => b.op == o.id))

/-- One line of a drain is written at its home; in a core-pair team it enters the compare engine. None while it waits. -/
def drainWrite (s : State) (t : Team) (o : Op) (z h : Nat) (a list : List Word) (k : Nat) (next : OpBody) : Option State :=
  let n := drainCount (matFmt a)
  let (i, p) := (drainRows a list).getD (k / n) (0, 0)
  let (off, bs) := drainLine (s.tileOf t z h) (matFmt a) (dword a 5) i (k % n)
  let va : DWord := BitVec.ofNat 64 (p + off)
  match engineLeaf s (.tiles t.pool) t.ctx va .store with
  | (none, s) => some s
  | (some (.page en), s) => some ((armMonitor s (s.ctx t.ctx).phvc en (.op o.id)).1)
  | (some (.fault code _), s) => some (drainEnd (matLate s o z h code va) o)
  | (some (.ok l), s) =>
    if t.paired then
      if !slackRoom t 1 then none
      else if t.copy = .trailing ∧ leadSent s t o.group ≤ t.eventsSent o.group then none
      else
        let b : Block :=
          { id := s.opCtr, op := o.id, team := t.id, group := o.group, kind := .store, space := .global, lane := 0,
            ctx := t.ctx, vc := l.vc, lclass := l.lclass, device := decide (2 ^ 40 ≤ l.pa), bank := 0,
            cells := cellsAt l.pa bs, cmp := 0, mods := ⟨0, 0, .global, 0, 0, 0⟩, level := o.level,
            iaddr := o.iaddr, gang := o.gang, lanes := o.lanes, va := va, psize := l.size, born := s.clock }
        let s := { s with opCtr := s.opCtr + 1 }
        some ((s.onTeam t.id (fun t => t.enterEvent (t.residentClocks s.clock) o.group eventDrain o.iaddr o.lanes
          [va.toNat, leVal bs] va (some b) none)).setBody o.id next)
    else if 2 ^ 40 ≤ l.pa then some ((devWrite s (cellsAt l.pa bs)).setBody o.id next)
    else
      match s.wakeSlice l.vc l.pa with
      | (false, s) => some s
      | (true, s) =>
        match homeWrite s t.id o.level l.vc (cellsAt l.pa bs) 0 with
        | .wait => none
        | .overflow => some (drainEnd (matLate s o z h 0x1C va) o)
        | .done s => some ((t.cores.foldl (fun (s : State) c =>
            (List.range 4).foldl (fun (s : State) q => s.dropSector c l.vc (l.pa / 64 * 64 + 64 * q)) s)
            (hitRegions s t.ctx va.toNat bs.length)).setBody o.id next)

/-- What an MDRAIN does next: the check of the whole half, the translation of its whole range, then one line after the
other, in ascending order in a core-pair team and in any order elsewhere; none while it waits. -/
def mdrainDone (s : State) (o : Op) (z h : Nat) (a list : List Word) (posted : Option DWord) (todo : Option (List Nat))
    (pick : Nat) : Option State :=
  match s.teams.find o.team with
  | none => some (s.completeOp o.id)
  | some t =>
    let n := drainCount (matFmt a)
    match todo with
    | none =>
      if tileWaits s t z o.id then none else
      let x := s.tileOf t z h
      if !((List.range 64).all x.rowOk && (List.range 128).all x.colOk) then some (drainEnd (matLate s o z h 0x19 0) o) else
      let rows := drainRows a list
      let vas := rows.flatMap (fun r => panelVas (panelSize (matFmt a)) [r.2])
      if acquiresOut s t.id o.group o.id then none else
      (match coverAll t.pool t.ctx .store s vas with
      | (none, s) => some s
      | (some (.page va en), s) => some ((tilePage s t o va en posted).setBody o.id (.mdrain z h a list (some va) none))
      | (some (.fault code _ va), s) => some (drainEnd (matLate s o z h code va) o)
      | (some (.ok _), s) =>
        let fl := if matFmt a = 1 then flagsOr (rows.flatMap (fun r => (drainBf x r.1).map (fun (v : ER) => v.fl &&& 7))) else 0
        some ((s.putTile t z h (x.except fl)).setBody o.id (.mdrain z h a list posted (some (List.range (rows.length * n))))))
    | some [] =>
      if drainOut s t o then (if (s.group? o.team o.group).any (fun g => g.gangs.any (fun k => k.wait == .drain o.id))
        then some (freeGang s o) else none)
      else some (drainEnd s o)
    | some (k0 :: ks) =>
      let all := k0 :: ks
      let k := if t.paired then k0 else all.getD (pick % all.length) k0
      drainWrite s t o z h a list k (.mdrain z h a list posted (some (all.filter (· != k))))

end Sys2Proof.Machine
end

