-- ==== Sys2Proof/Machine/Recovery.lean ====
section
/-! DEFINITION. The recovery engine (R400 to R426): recovery blocks, the save and restore of what a level writes, failure and
propagation, cycle limits, and conversations. -/

namespace Sys2Proof.Machine

/-! ## The words of a recovery block (R401 to R405) -/

/-- OPERAND of a recovery word. -/
def recOperand (c : Cur) (datum : Nat) (s : State) : Eff := .fault { code := 0x03, datum := datum, lanes := c.lanes } s

/-- The position and the group that R402 refuses: the four words that end a run stand at offset LEN, and no word is issued
by a parted or dual group. -/
def recPlaceBad (run : Run) (g : Group) (last : Bool) : Bool :=
  (last && run.off + 1 != run.words.length) || g.parted || g.dual

/-- Changes the level of a depth, counted from 1. -/
def Team.onLevel (t : Team) (depth : Nat) (f : Level → Level) : Team :=
  { t with levels := t.levels.zipIdx.map (fun (l : Level × Nat) => if l.2 + 1 = depth then f l.1 else l.1) }

/-- Changes the innermost level of a team. -/
def State.onTop (s : State) (team : Nat) (f : Level → Level) : State :=
  s.onTeam team (fun t => t.onLevel t.levels.length f)

/-- What a group's gang waits for. -/
def Group.waitOf (g : Group) (k : Nat) : Wait :=
  match g.gang? k with
  | some x => x.wait
  | none => .none

/-- A group's snapshot (R412). -/
def Group.snapshot (g : Group) : Snap :=
  { group := g.id, q := g.rf.q, x := g.rf.x, shq := (g.sh.map (·.q)).getD [], shx := (g.sh.map (·.x)).getD [],
    winbase := g.winbase, winlen := g.winlen, part := g.part, fpctl := g.fpctl, fpstat := g.fpstat, fpcnt := g.fpcnt,
    empty := g.empty, intrap := g.intrap, rets := g.slices.map (fun sl => sl.a.ret) }

/-- The level that an ENSURE forms (R403). -/
def newLevel (ens : DWord) (t1 e : Nat) (test : BitVec 16) (limit : Nat) : Level :=
  { ens := ens, term := ens + BitVec.ofNat 64 (4 * t1), exit := ens + BitVec.ofNat 64 (4 * e),
    test := offsetFrom ens test, start := ens + 8, first := 0, routine := 0, limit := limit, count := 0, retry := 0,
    arrived := [], testing := [], verdicts := [], snaps := [], barps := [], entries := [], log := [], cursor := [],
    conv := none, convva := 0, joiners := [], joined := false, formed := false, posted := false, reported := none }

/-- The acquire half of an acq-rel fence at team scope, for every group of a team (R61, R403, R405). -/
def acquireAll (s : State) (t : Team) : State :=
  t.groups.foldl (fun (s : State) g => if g.retired then s else s.groupOp t.id g.id (.fence 1 1)) s

/-- The level opens: its cycle count starts, barrier state is saved, and every group passes a fence at team scope (R403,
R412). -/
def openLevel (s : State) (t : Team) : State :=
  match t.forming with
  | none => s
  | some l =>
    let l := { l with count := t.residentClocks s.clock, first := s.opCtr, barps := t.barps }
    acquireAll (s.onTeam t.id (fun t => { t with levels := t.levels ++ [l], forming := none,
                                                  regionHit := t.regionHit && !t.levels.isEmpty })) t

/-- ENSURE (R403). -/
def execEnsure (l : BitVec 8) (e : BitVec 12) (s : State) : Host.Outcome State Fault Refusal :=
  issue { sr := [(l.toNat, 1)] } (fun c g run s =>
    match s.teams.find c.team with
    | none => .ok s
    | some t =>
      match g.waitOf c.gang with
      | .ensure n =>
        if n ≤ t.levels.length then .jump (s.branchTo c run.after)
        else if t.levelOpens s then .jump ((openLevel s t).branchTo c run.after)
        else .stay s
      | _ =>
        let imm := (run.imm.getD 0).toNat
        let other : Bool := match t.forming with | some f => f.ens != c.addr | none => false
        let lvl := t.forming.getD (newLevel c.addr (imm / 65536) e.toNat (BitVec.ofNat 16 imm) (g.rf.S l.toNat).toNat)
        let last := t.allGroups (lvl.arrived ++ [g.id])
        if recPlaceBad run g true ∨ run.imm.isNone ∨ imm / 65536 < 3 ∨ e.toNat ≤ imm / 65536 ∨ g.rf.S l.toNat = 0 ∨ other then
          recOperand c 0 s
        else if t.forming.isNone ∧ 8 ≤ t.levels.length then .fault { code := 0x1C, datum := 1, lanes := c.lanes } s
        else if t.regionSize < t.regionUsed + 1024 + (if last then 256 else 0) then overflow c s
        else
          let lvl := { lvl with arrived := lvl.arrived ++ [g.id], snaps := lvl.snaps ++ [g.snapshot] }
          .stay ((s.onTeam c.team (fun t => { t with forming := some lvl })).setWait c (.ensure (t.levels.length + 1)))) s

/-- A terminator (R404): the group's phase becomes TEST, and it goes on at the test routine. -/
def terminator (off : Option Nat) (s : State) : Host.Outcome State Fault Refusal :=
  issue {} (fun c g run s =>
    match (s.teams.find c.team).bind (fun t => t.levels.getLast?) with
    | none => recOperand c 0 s
    | some l =>
      let short : Bool := match off with | some k => decide (k < 3) | none => false
      if recPlaceBad run g true || l.testing.contains g.id || c.addr != l.term || short then recOperand c 0 s
      else markEvent c eventEnd [] (fun s =>
        .jump ((s.onTop c.team (fun l => { l with testing := l.testing ++ [g.id] })).branchTo c l.test)) s) s

/-- ELSEBY (R404). -/
def execElseby (o : BitVec 12) (s : State) : Host.Outcome State Fault Refusal := terminator (some o.toNat) s

/-- ELSEERR (R404). -/
def execElseerr (s : State) : Host.Outcome State Fault Refusal := terminator none s

/-! ## Commit (R415) -/

/-- Two entries save the same item. -/
def sameItem : Undo → Undo → Bool
  | .vreg g k r _ _ _, .vreg h l n _ _ _ => g == h && k == l && r == n
  | .sreg g r _ _, .sreg h n _ _ => g == h && r == n
  | .word k o _, .word l p _ => k == l && o == p
  | .sector k _ _, .sector l _ _ => k == l
  | .tile h z _, .tile k n _ => h == k && z == n
  | _, _ => false

/-- The stack of levels once the innermost has committed: its entries and its log go to the level below. -/
def mergeTop (ls : List Level) : List Level :=
  match ls.getLast?, ls.dropLast.getLast? with
  | some l, some p =>
    ls.dropLast.dropLast ++
      [{ p with entries := p.entries ++ l.entries.filter (fun u => !p.entries.any (sameItem u)), log := p.log ++ l.log }]
  | _, _ => []

/-- The state of a sector when its writer commits a level: provisional at the level below, or dirty, or clean where the
policy has written it through. -/
def commitSector (s : State) (team n key : Nat) (st : SectorState) : SectorState :=
  match st with
  | .prov k m =>
    if k ≠ team ∨ m ≠ n then st
    else if 1 < n then .prov k (n - 1)
    else if (match s.vcs.find (key / 2 ^ 34) with | some v => v.wpol == 0 | none => true) then .dirty else .clean
  | _ => st

/-- Gangs that wait in VERDICT go on at the level's exit. -/
def Group.toExit (g : Group) (exit : DWord) : Group :=
  g.gangs.foldl (fun (g : Group) k => match k.wait, k.run with
    | .verdict _, some r => g.mapUnits r.units (fun _ _ u =>
        { u with pc := exit, via := r.clause + BitVec.ofNat 64 (4 * r.off) })
    | _, _ => g) g

/-- LEVEL_COMMIT (R405, R415): the innermost level of a team commits. -/
def commitLevel (s : State) (t : Team) : State :=
  match t.levels.getLast? with
  | none => s
  | some l =>
    let n := t.levels.length
    let s := { s with homes := s.homes.map (fun (e : Nat × Sector) => (e.1, { e.2 with st := commitSector s t.id n e.1 e.2.st })) }
    acquireAll (s.onTeam t.id (fun t => { t with levels := mergeTop t.levels, committed := sat16 t.committed,
                                                  groups := t.groups.map (fun (g : Group) => g.toExit l.exit) })) t

/-! ## Conversation records (R420) -/

/-- A number in the record whose sector has a key. -/
def recNat (s : State) (key off n : Nat) : Nat := leVal ((List.range n).map (fun i => keyByte s key (off + i)))

/-- The handles of a record's members. -/
def recHandles (s : State) (key : Nat) : List Nat := (List.range (min 8 (recNat s key 1 1))).map (fun i => recNat s key (16 + 4 * i) 4)

/-- Depth and level of a team that has joined a conversation. -/
def Team.convLevel? (t : Team) : Option (Nat × Level) :=
  (t.levels.zipIdx.find? (fun (x : Level × Nat) => x.1.joined)).map (fun x => (x.2 + 1, x.1))

/-- The key of the record that a team's joined level belongs to: of a trailing copy, its leading copy's. -/
def convKey (s : State) (t : Team) : Option Nat :=
  let u := if t.copy = .trailing then (t.twin.bind s.teams.find).getD t else t
  (u.levels.find? (fun l => l.joined)).bind (fun l => l.conv)

/-- The members of a conversation that are there. -/
def convMembers (s : State) (key : Nat) : List Team :=
  (s.teams.filter (fun e => e.2.levels.any (fun l => l.conv == some key))).map (·.2)

/-- The number of a member. -/
def memberBit (s : State) (key : Nat) (t : Team) : Nat := (recHandles s key).findIdx (· == t.handle.toNat)

/-- Sets a member's bit in VMASK (offset 4) or FMASK (offset 5). -/
def setMember (s : State) (key off m : Nat) : State :=
  convWrite s key off [BitVec.ofNat 8 (recNat s key off 1 ||| 2 ^ m)]

/-! ## VERDICT (R405) -/

/-- The level is judged once every group's verdict is in and its routine's operations are over. -/
def judge (s : State) (t : Team) : State :=
  match t.levels.getLast? with
  | none => s
  | some l =>
    if !l.verdicts.all (·.2) then failLevel s t.id ⟨t.levels.length, 1, 0, wholeTeam, false⟩
    else match (if l.joined then l.conv else none) with
      | none => commitLevel s t
      | some key => (setMember s key 4 (memberBit s key t)).onTop t.id (fun l => { l with posted := true })

/-- VERDICT (R405): a group's verdict, then the wait for the team's, then the judgement; a passing gang goes on at the
exit. -/
def execVerdict (q : BitVec 3) (s : State) : Host.Outcome State Fault Refusal :=
  issue {} (fun c g run s =>
    match s.teams.find c.team with
    | none => .ok s
    | some t =>
      match g.waitOf c.gang with
      | .verdict n =>
        if t.levels.length < n then .jump s
        else if !t.verdictReady s then .stay s
        else
          let s' := judge s t
          let left : Nat := match s'.teams.find c.team with | some t' => t'.levels.length | none => 0
          if left < n then .jump s' else .stay s'
      | _ =>
        let testing : Bool := match t.levels.getLast? with | some l => l.testing.contains g.id | none => false
        if recPlaceBad run g true || !testing then recOperand c 0 s
        else
          let lanes := lanesOf c.lanes
          match g.predFault q.toNat lanes with
          | some f => .fault f s
          | none =>
            let v := lanes.all (fun l => g.rf.Q q.toNat l)
            markEvent c eventEnd [if v then 1 else 0] (fun s =>
              .stay ((s.onTop c.team (fun l => { l with verdicts := l.verdicts ++ [(g.id, v)] })).setWait c
                (.verdict t.levels.length))) s) s

/-! ## RBFAIL and RBSTAT (R409, R410) -/

/-- RBFAIL (R409). -/
def execRbfail (k : BitVec 8) (s : State) : Host.Outcome State Fault Refusal :=
  issue {} (fun c g _ s =>
    if !s.levelOpen c then recOperand c 0 s
    else .stay (failInnermost (stopGroup s c.team c.group) c.team 3 k.toNat g.id)) s

/-- RBSTAT (R410). -/
def execRbstat (d : BitVec 8) (s : State) : Host.Outcome State Fault Refusal :=
  issue { sw := [(d.toNat, 4)], bad := d.toNat % 4 != 0, long := some true } (fun c _ run s =>
    match s.teams.find c.team with
    | none => .ok s
    | some t => .ok (s.longOp c run true (.ret d.toNat
        [t.rbdepth.toNat, t.rbcause.toNat, t.regionUsed, t.committed * 65536 + t.rolled])).2) s

/-! ## CONVJOIN (R421) -/

/-- A fault of the record: the trailing copy takes it too (R433). -/
def joinFault (c : Cur) (t : Team) (f : FaultInfo) (s : State) : Eff :=
  .fault f (if t.copy = .leading then s.giveChannel c.team c.group (faultEntry t c [f.code, f.datum, f.faddr.toNat]) else s)

/-- A member of the record's conversation belongs to another context. -/
def foreignMember (s : State) (ctx key : Nat) : Bool := (convMembers s key).any (fun m => m.ctx != ctx)

/-- The group has issued CONVJOIN; with the last group the team joins (R421). The trailing copy joins with its leading
copy. -/
def joinGroup (s : State) (c : Cur) (t : Team) (l : Level) (va : DWord) (key : Nat) : State :=
  let joiners := l.joiners ++ [c.group]
  let s := (s.onTop t.id (fun l => { l with joiners := joiners, convva := va })).setWait c .convjoin
  if t.copy = .trailing ∨ !t.allGroups joiners then s else
  let n := recNat s key 1 1
  let s := convWrite s key (16 + 4 * n) (bytesLE 4 t.handle.toNat)
  let s := convWrite s key 1 [BitVec.ofNat 8 (n + 1)]
  s.onTop t.id (fun l => { l with conv := some key, joined := true })

/-- The record read at its home, and what its content refuses (R421, R425). -/
def joinRecord (c : Cur) (t : Team) (l : Level) (va : DWord) (lf : Leaf) (s : State) : Eff :=
  let key := homeKey lf.vc lf.pa
  if provBlocked s t.id key then .stay s else
  match s.wakeSlice lf.vc lf.pa with
  | (false, s) => .stay s
  | (true, s) =>
    if !present s lf.vc lf.pa then .stay (askFill s lf.vc lf.pa 0)
    else if homePoison s lf.vc lf.pa then joinFault c t { code := 0x17, lanes := c.lanes, faddr := va } s
    else
      let nexp := recNat s key 0 1
      if nexp < 2 ∨ 8 < nexp then joinFault c t { code := 0x03, datum := 0x90, lanes := c.lanes } s
      else if recNat s key 2 1 ≠ 0 ∨ recNat s key 1 1 = nexp then joinFault c t { code := 0x03, datum := 0x91, lanes := c.lanes } s
      else if foreignMember s t.ctx key then joinFault c t { code := 0x11, datum := 0x92, lanes := c.lanes, faddr := va } s
      else .stay (joinGroup s c t l va key)

/-- CONVJOIN (R421): the checks in the order of R425, then the wait until the conversation has formed. -/
def execConvjoin (a : BitVec 8) (s : State) : Host.Outcome State Fault Refusal :=
  issue { sr := [(a.toNat, 2)], bad := odd a } (fun c g run s =>
    match s.teams.find c.team with
    | none => .ok s
    | some t =>
      let lead : Option FaultInfo :=
        if t.copy ≠ .trailing then none else
        match leadFault s t c with
        | some (code :: datum :: va :: _) => some { code := code, datum := datum, lanes := c.lanes, faddr := BitVec.ofNat 64 va }
        | _ => none
      match t.levels.getLast? with
      | none => recOperand c (if recPlaceBad run g false then 0 else 0x93) s
      | some l =>
        let va := g.rf.S64 a.toNat
        if g.waitOf c.gang = .convjoin then
          (match lead with
          | some f => .fault f (takeChannel s t g.id)
          | none => if l.formed then .ok (run.unpark s) else .stay s)
        else if recPlaceBad run g false then recOperand c 0 s
        else if l.routine ≠ 0 ∨ l.testing.contains g.id ∨ t.levels.any (fun l => l.joined) ∨
            (l.joiners ≠ [] ∧ l.convva ≠ va) then recOperand c 0x93 s
        else if va.toNat % 64 ≠ 0 then .fault { code := 0x08, lanes := c.lanes, faddr := va } s
        else if t.copy = .trailing then
          (match lead with
          | some f => .fault f (takeChannel s t g.id)
          | none => .stay (joinGroup s c t l va 0))
        else
          match engineLeaf s .nowhere t.ctx va .both with
          | (none, s) => .stay s
          | (some (.page e), s) => .stay (parkWord c t g run s va e)
          | (some (.fault code d), s) => joinFault c t { code := code, datum := d, lanes := c.lanes, faddr := va } (run.unpark s)
          | (some (.ok lf), s) =>
            let s := s.onRun c (fun r => { r with op := none })
            let s := (run.unpark s).setWait c .none
            if 2 ^ 40 ≤ lf.pa then joinFault c t { code := 0x11, lanes := c.lanes, faddr := va } s
            else if lf.sealed then joinFault c t { code := 0x12, lanes := c.lanes, faddr := va } s
            else joinRecord c t l va lf s) s

/-- CONVERSATION_FORMATION (R421): the subject is a member's team. Once NJOIN has reached NEXP the members are numbered in
the order of their handles, and the gangs that wait are free to go. -/
def execConversationFormation (s : State) : Host.Outcome State Fault Refusal :=
  onEvent (fun e s =>
    match (s.teams.find e.a).bind (fun t => t.levels.find? (fun l => l.conv.isSome)) with
    | none => s
    | some l =>
      let key := l.conv.getD 0
      let ms := convMembers s key
      if l.formed ∨ recNat s key 2 1 ≠ 0 ∨ recNat s key 1 1 ≠ recNat s key 0 1 ∨ ms.any (fun m => m.fail.isSome) then s else
      let hs := (recHandles s key).foldl insertRising []
      let s := convWrite (convWrite s key 16 (hs.flatMap (bytesLE 4))) key 2 [1]
      ms.foldl (fun (s : State) m =>
        let d := m.levels.findIdx (fun l => l.conv == some key) + 1
        (s.pairOf m.id).foldl (fun (s : State) i => s.onTeam i (fun t => t.onLevel d (fun l =>
          { l with joined := true, formed := true }))) s) s) s

/-- CONVERSATION_COMMIT (R422): every member has posted a pass; all of them commit together, and the conversation
closes. -/
def execConversationCommit (s : State) : Host.Outcome State Fault Refusal :=
  onEvent (fun e s =>
    match (s.teams.find e.a).bind (fun t => t.levels.find? (fun l => l.conv.isSome)) with
    | none => s
    | some l =>
      let key := l.conv.getD 0
      let ms := convMembers s key
      let ready (m : Team) : Bool := (s.pairOf m.id).all (fun i => match s.teams.find i with
        | some t => t.fail.isNone && t.phase == .resident && (match t.levels.getLast? with
          | some x => x.formed && t.allGroups (x.verdicts.map (·.1)) && x.verdicts.all (·.2) &&
              (x.posted || t.copy == .trailing) && teamQuiet s t x.first
          | none => false)
        | none => false)
      if !l.formed || ms.length != recNat s key 0 1 || !ms.all ready then s else
      let s := ms.foldl (fun (s : State) m => (s.pairOf m.id).foldl (fun (s : State) i => match s.teams.find i with
        | some t => commitLevel s t
        | none => s) s) s
      convClose s key) s

/-! ## Restoring (R407, R412, R416) -/

/-- A sector goes back to its saved bytes and state, but for the bytes that an atomic wrote (R417); in a policy that writes
through, the bytes go to the drawer too, with an operation that waits for them. -/
def restoreSector (s : State) (waiter key : Nat) (old : Sector) (keep : DWord) : State :=
  let vc := key / 2 ^ 34
  let pa := key % 2 ^ 34 * 64
  match s.vcs.find vc with
  | none => s
  | some v =>
    let cur := s.homes.getD key Sector.invalid
    let bytes := (List.range 64).foldl (fun (m : Map Byte) i =>
      Map.setD m i (if keep.getLsbD i then cur.bytes.getD i 0 else old.bytes.getD i 0) 0) []
    let held : SectorState := if v.wpol = 0 then .dirty else .clean
    let st : SectorState := match old.st with
      | .invalid => if keep = 0 then .invalid else held
      | .pending m => if m = 0 ∧ keep = 0 then .invalid else held
      | .clean => if keep = 0 then .clean else held
      | x => x
    let x := { old with st := st, bytes := bytes }
    let s := if v.wpol = 0 then s else
      queueWrite s (s.homeDie vc pa) v.lclass (sectorCells key x) (some vc) x.poison (some waiter)
    wroteHome { s with homes := if st = .invalid then s.homes.del key else s.homes.put key x } vc pa

/-- Register words of one file go back. -/
def RegFile.putBack (rf : RegFile) (r : Nat) (ws : List (Nat × VWord)) : RegFile :=
  { rf with v := ws.foldl (fun (m : Map VWord) w => Map.setD m (r * 64 + w.1) w.2 VWord.zero) rf.v }

/-- One entry is restored. A register that the group has released since has nothing to restore. -/
def restoreOne (s : State) (team waiter : Nat) : Undo → State
  | .vreg g sl r tag ws shs => s.onGroup team g (fun x =>
      if x.vregs ≤ r ∧ r < 128 then x else
      { x.setTag r sl tag with rf := x.rf.putBack r ws, sh := x.sh.map (fun (h : RegFile) => h.putBack r shs) })
  | .sreg g r a b => s.onGroup team g (fun x => { x with rf := x.rf.setS r a, sh := x.sh.map (fun (h : RegFile) => h.setS r b) })
  | .word slot off old => match s.teams.find team with
    | some t => (match t.slot slot with
      | .attached b => s.onBank t.pool b (fun x => x.write s.clock (cellsAt off (bytesLE 4 old.toNat)))
      | .leaving b => s.onBank t.pool b (fun x => x.write s.clock (cellsAt off (bytesLE 4 old.toNat)))
      | _ => s)
    | none => s
  | .sector key old keep => restoreSector s waiter key old keep
  | .tile h z old => match s.teams.find team with
    | some t => if t.phase ≠ .resident then s
      else if h = 1 ∧ !t.pair then s.putTeam team { t with half1 := t.half1.put z old } else s.putTile t z h old
    | none => s

/-- Levels down to a depth are restored, newest entry first, and the L1s of the team's cores lose their lines that are not
sealed (R407 step 3). An operation stands for the writes that the drawer has to acknowledge. -/
def restoreLevels (s : State) (team depth : Nat) : State :=
  match s.teams.find team with
  | none => s
  | some t =>
    let us := ((t.levels.drop (depth - 1)).reverse).flatMap (fun (l : Level) => l.entries.reverse)
    let id := s.opCtr
    let s := if us.any (fun u => match u with | .sector .. => true | _ => false) then s.hiddenOp team (.flush [] true) else s
    let s := us.foldl (fun (s : State) u => restoreOne s team id u) s
    let s := t.cores.foldl (fun (s : State) k => s.invalidateL1 k) s
    s.onTeam team (fun t => { t with levels := t.levels.zipIdx.map (fun (l : Level × Nat) =>
      if depth ≤ l.2 + 1 then { l.1 with entries := [] } else l.1) })

/-- A group stands as its snapshot says, one gang at an address with every unfinished lane (R412). -/
def Group.resume (g : Group) (snaps : List Snap) (pc : DWord) (now : Nat) : Group :=
  let r := g.restart pc pc now false
  match snaps.find? (fun x => x.group == g.id) with
  | none => r
  | some n =>
    let file (rf : RegFile) (q : Map Bool) (x : Map Byte) : RegFile := { rf with q := q, x := x, qbad := [], xbad := [] }
    { r with rf := file r.rf n.q n.x, sh := r.sh.map (fun (h : RegFile) => file h n.shq n.shx),
             winbase := n.winbase, winlen := n.winlen, part := n.part, fpctl := n.fpctl, fpstat := n.fpstat,
             fpcnt := n.fpcnt, empty := n.empty, intrap := n.intrap, shadow := if n.intrap then r.shadow else none,
             slices := r.slices.zipIdx.map (fun (x : Slice × Nat) => { x.1 with a := { x.1.a with ret := n.rets.getD x.2 [] } }) }

/-! ## Failure (R406 to R408) -/

/-- The value of RBCAUSE for a failure (R411). -/
def Team.causeWord (t : Team) (f : Failing) : Word :=
  let routine := match t.levels[f.level - 1]? with | some l => l.routine | none => 0
  BitVec.ofNat 32 (f.kind * 2 ^ 28 + f.code * 2 ^ 20 + f.level * 2 ^ 16 + routine * 2 ^ 12 + f.group)

/-- A gang issues nothing any more (R361, R407 step 1): at a run boundary, or parked, blocked or stopped. One that has been woken
inside its run goes on, unless its team is suspended (R95). -/
def Gang.stopped (k : Gang) (held : Bool := false) : Bool :=
  match k.wait with
  | .none => k.run.isNone
  | .woken => held || k.run.isNone
  | .replay _ => held || k.run.isNone
  | .translate _ => false
  | _ => true

/-- A group issues nothing any more: each of its gangs has stopped, or the group is parked on a provisional sector (R70). -/
def groupStopped (s : State) (t : Team) (g : Group) : Bool :=
  g.retired || g.gangs.all (fun k => k.stopped t.suspended) || provParked s t g

/-- Every group of a failing team has stopped; a trailing copy first issues the runs that its leading copy has started. -/
def teamStopped (s : State) (t : Team) : Bool :=
  t.groups.all (fun g => groupStopped s t g &&
    (g.retired || !(failsBehind s t g && g.gangs.any (fun k => gangReady s t g k))))

/-- Applies a function to every core. -/
def State.allCores (s : State) (f : Core → Core) : State := { s with cores := s.cores.map (fun (c : Nat × Core) => (c.1, f c.2)) }

/-- Blocks that a predicate picks leave the merge points and the contributions that L1s combine. -/
def State.loseBlocks (s : State) (p : Block → Bool) : State :=
  s.allCores (fun c => { c with merge := c.merge.filter (fun b => !p b), comm := c.comm.filter (fun b => !p b) })

/-- A block leaves the merge point, or the contributions that L1 combines. -/
def State.dropBlock (s : State) (id : Nat) : State := s.loseBlocks (fun b => b.id == id)

/-- A load's lane waits at its home slice on another team's provisional sector (R70). -/
def laneHeld (s : State) (team : Nat) (m : MemOp) (a : LaneAcc) : Bool :=
  a.st == .miss && m.space == .global && !m.kind.isAtomic && provBlocked s team (homeKey a.vc a.pa)

/-- A lane's atomic that waits on LINKSTALL stands in the merge point (R475). -/
def atomStalled (s : State) (b : Block) : Bool :=
  match (s.ops.find b.op).map (fun (o : Op) => o.body) with
  | some (.mem m) => m.kind.isAtomic && m.accs.any (fun a => a.lane == b.lane && a.st == .stalled)
  | _ => false

/-- The operations at whose words gangs of a team stand. -/
def Team.wordOps (t : Team) : List Nat :=
  t.groups.flatMap (fun g => g.gangs.flatMap (fun k =>
    (match k.run with | some r => r.op.toList | none => []) ++
    (match k.wait with
     | .parked o => [o]
     | .timer o _ => [o]
     | .translate o => [o]
     | .replay o => [o]
     | _ => [])))

/-- A memory operation loses the lanes that a stopped team abandons (R407 step 1): those that are parked or wait on another team's
provisional sector, and, where a gang stands at its word, those that have not gone to the engines and what they have faulted. -/
def MemOp.forsake (s : State) (team : Nat) (here : Bool) (m : MemOp) : MemOp :=
  m.setLanes (fun a => a.st.soft || laneHeld s team m a || (here && (match a.st with
    | .walk => true
    | .ready => true
    | .faulted _ _ => true
    | _ => false))) .dropped

/-- Accesses of a team whose groups have stopped are abandoned (R407 step 1). -/
def abandonAccesses (s : State) (t : Team) : State :=
  let stand := t.wordOps
  let ids := (s.ops.filter (fun o => o.2.team == t.id)).map (·.1)
  let s := s.loseBlocks (fun b => b.team == t.id && atomStalled s b)
  let s := { s with monitors := s.monitors.filter (fun (m : Monitor) => !stand.any (fun i => m.who == Waiter.op i)) }
  ids.foldl (fun (s : State) i => match s.ops.find i with
    | some o => (match o.body with
      | .fetch _ => if stand.contains i then s.completeOp i else s
      | .mem m => s.setBody i (.mem (m.forsake s t.id (stand.contains i)))
      | _ => s)
    | none => s) s

/-- A member that fails before its conversation has formed leaves the record (R421). -/
def withdraw (s : State) (t : Team) (depth : Nat) : State :=
  match t.levels.zipIdx.find? (fun (x : Level × Nat) => x.1.conv.isSome && !x.1.formed && decide (depth ≤ x.2 + 1)) with
  | none => s
  | some (l, i) =>
    let key := l.conv.getD 0
    let hs := (recHandles s key).filter (· != t.handle.toNat)
    let n := recNat s key 1 1
    let s := convWrite s key 16 ((hs ++ List.replicate (n - hs.length) 0).flatMap (bytesLE 4))
    let s := convWrite s key 1 [BitVec.ofNat 8 (n - 1)]
    s.onTeam t.id (fun t => t.onLevel (i + 1) Level.leave)

/-- The next terminator's offset, when the word at a level's TERM is an ELSEBY that would issue without fault and the
routine it closes is below 15 (R407 step 6). -/
def nextRoutine (s : State) (t : Team) (l : Level) : Option Nat :=
  match fetchWord s t.ctx 0 l.term with
  | .word w => (match decodeWord w.toNat with
    | .ok (.elseby o) => if 3 ≤ o.toNat ∧ l.routine < 15 then some o.toNat else none
    | _ => none)
  | _ => none

/-- Clocks of a rollback count for no cycle limit (R407 step 3, R418). -/
def Team.skipClocks (t : Team) (clock : Nat) : Team :=
  let n := t.residentClocks clock - t.failSince
  { t with levels := t.levels.map (fun (l : Level) => { l with count := l.count + n }) }

/-- The leading copy goes on: its trailing copy starts 256 clocks later (R432). -/
def delayTwin (s : State) (t : Team) : State :=
  match t.copy, t.twin with
  | .leading, some k => s.onTeam k (fun x => if x.started then x else { x with startAt := s.clock + 256 })
  | _, _ => s

/-- ALTEXHAUSTED (R408): the record of every group, until one of them ends the team. -/
def altExhausted (s : State) (t : Team) (term : DWord) (cause : Word) : State :=
  t.groups.foldl (fun (s : State) g =>
    let ended : Bool := s.ops.any (fun o => match o.2.body with | .evict k _ true => k == t.id | _ => false)
    match s.group? t.id g.id with
    | some x => if x.retired ∨ ended then s else
        deliver s t.id g.id (match x.gangs with | k :: _ => k.id | [] => 0)
          { code := 0x1D, kind := 0, inrun := false, replay := false, sysmode := false, double := false, group := g.id,
            num := (cause >>> 16).toNat, iaddr := term, lanes := x.unfinished, faddr := 0 }
    | none => s) s

/-- A level's routine begins: nothing of it has been judged or joined yet. -/
def Level.begin (l : Level) (now first : Nat) : Level :=
  { l with count := now, first := first, testing := [], verdicts := [], joiners := if l.joined then l.joiners else [],
           posted := false, reported := none }

/-- Steps 4 to 7 of R407: the retry of the routine (R441), the next routine, or the closing of the level, which fails the
level below or delivers ALTEXHAUSTED. -/
def rollbackFinish (s : State) (t : Team) (f : Failing) (next : Option Nat) : State :=
  match t.levels[f.level - 1]? with
  | none => s.onTeam t.id (fun t => { t with fail := none })
  | some l =>
    let cause := if f.retry then t.rbcause else t.causeWord f
    let now := t.residentClocks s.clock
    let rolled := (List.range (t.levels.length + 1 - f.level)).foldl (fun n _ => sat16 n) t.rolled
    let base (x : Team) : Team :=
      let y := x.skipClocks s.clock
      { y with rbcause := cause, rolled := rolled, barps := l.barps, forming := none }
    let go (s : State) (l' : Level) : State :=
      delayTwin (s.onTeam t.id (fun x =>
        let y := base x
        { y with levels := y.levels.take (f.level - 1) ++ [l'], fail := none,
                 groups := y.groups.map (fun (g : Group) => if g.retired then g else g.resume l.snaps l'.start s.now) })) t
    if f.retry then
      let ids := (l.log.map (·.group)).eraseDups
      go s { l.begin now s.opCtr with retry := l.retry + 1, cursor := ids.map (fun g => (g, 0)) }
    else
      match next with
      | some off =>
        go s { l.begin now s.opCtr with routine := l.routine + 1, start := l.term + 8, retry := 0, log := [], cursor := [],
                                        term := l.term + BitVec.ofNat 64 (4 * off) }
      | none =>
        let below : Option Failing := if 1 < f.level then some ⟨f.level - 1, 4, 0x1D, wholeTeam, false⟩ else none
        let s := s.onTeam t.id (fun x =>
          let y := base x
          { y with levels := y.levels.take (f.level - 1), fail := below, failSince := now,
                   groups := y.groups.map (fun (g : Group) => if g.retired then g else
                     let r := g.resume l.snaps l.term s.now
                     if below.isSome then { r with gangs := r.gangs.map (fun (k : Gang) => { k with wait := .members }) } else r) })
        let s := delayTwin s t
        if below.isSome then s else altExhausted s t l.term cause

/-- What follows when a level and those above it have been restored: a joined level reports and waits for its conversation
(R422). -/
def rollbackEnd (s : State) (t : Team) (f : Failing) : State :=
  match t.levels[f.level - 1]? with
  | none => rollbackFinish s t f none
  | some l =>
    match t.convLevel? with
    | some (d, j) =>
      if !j.formed ∨ d < f.level then rollbackFinish s t f (nextRoutine s t l) else
      let key := (convKey s t).getD 0
      if !natBit (recNat s key 5 1) (memberBit s key t) then s
      else if f.level < d then rollbackFinish s t f (nextRoutine s t l)
      else s.onTeam t.id (fun t => t.onLevel d (fun l => { l with reported := some (nextRoutine s t l).isSome }))
    | none => rollbackFinish s t f (nextRoutine s t l)

/-- A rollback of a team into whose region something else has written (R414): a free value says whether it finds an entry malformed,
and the team then ends with PROT, datum 0x94. -/
def malformedRegion (s : State) (t : Team) : State :=
  let (n, s) := s.free
  let s := s.onTeam t.id (fun t => { t with regionHit := false })
  if n % 2 = 0 then s else
  terminateTeam (postTeam s t 0 { code := 0x11, kind := 0, inrun := false, replay := false, sysmode := false, double := false,
                                  group := wholeTeam, num := 0x94, iaddr := 0, lanes := 0, faddr := 0 }) t.id

/-- LEVEL_ROLLBACK (R407): the subject is a team with a failure. Its groups stop, its operations end, its levels are
restored, and the next routine begins or the failure propagates. -/
def execLevelRollback (s : State) : Host.Outcome State Fault Refusal :=
  onEvent (fun e s =>
    match s.teams.find e.a with
    | none => s
    | some t =>
      match t.fail with
      | none => s
      | some f =>
        if t.phase ≠ .resident then s else
        let s := withdraw s t f.level
        if !teamStopped s t then s else
        let s := abandonAccesses s t
        match s.teams.find e.a with
        | none => s
        | some t =>
          let first := match t.levels[f.level - 1]? with | some l => l.first | none => 0
          if !teamQuiet s t first then s
          else if t.regionHit then malformedRegion s t
          else if (t.levels.drop (f.level - 1)).any (fun l => !l.entries.isEmpty) then restoreLevels s t.id f.level
          else rollbackEnd (t.cores.foldl (fun (s : State) k => s.invalidateL1 k) s) t f) s

/-- Termination of a team rolls back every open level, newest first, and its conversation goes on without it (R423,
R424). -/
def rollbackAll (s : State) (team : Nat) : State :=
  match s.teams.find team with
  | none => s
  | some t =>
    let key := (t.levels.find? (fun l => l.conv.isSome)).bind (fun l => l.conv)
    let s := restoreLevels s team 1
    let s := s.onTeam team (fun t => { t with levels := [], forming := none, fail := none })
    match key with
    | some k => convAbort s k
    | none => s

/-! ## Joint failure of a conversation (R422) -/

/-- The first cause goes into the record, and every other member's joined level fails with kind 5, in both copies. -/
def jointFail (s : State) (t : Team) (key depth : Nat) (f : Failing) : State :=
  let s := if recNat s key 5 1 = 0 then convWrite s key 8 (bytesLE 4 (t.causeWord f).toNat) else s
  let s := setMember s key 5 (memberBit s key t)
  let code := natBits (recNat s key 8 4) 20 8
  let s := (s.pairOf t.id).foldl (fun (s : State) i => if i = t.id then s else
    failLevel s i ⟨min depth f.level, f.kind, f.code, f.group, false⟩) s
  (convMembers s key).foldl (fun (s : State) m =>
    if m.id = t.id ∨ m.twin = some t.id then s else
    let d := m.levels.findIdx (fun l => l.conv == some key) + 1
    let s := setMember s key 5 (memberBit s key m)
    (s.pairOf m.id).foldl (fun (s : State) i => failLevel s i ⟨d, 5, code, wholeTeam, false⟩) s) s

/-- A member's rollback is over in each of its copies: its reports. -/
def memberReports (s : State) (m : Team) (depth : Nat) : List (Option Bool) :=
  (s.pairOf m.id).map (fun i => match (s.teams.find i).bind (fun t => t.levels[depth - 1]?) with
    | some l => l.reported
    | none => some false)

/-- CONVERSATION_JOINT_FAILURE (R422): the subject is a member's team. A failure of its joined level reaches the others;
once every member has reported, all begin their next routines together, or all close and propagate. -/
def execConversationJointFailure (s : State) : Host.Outcome State Fault Refusal :=
  onEvent (fun e s =>
    match s.teams.find e.a with
    | none => s
    | some t =>
      match t.convLevel?, convKey s t, t.fail with
      | some (d, l), some key, some f =>
        if !l.formed ∨ d < f.level then s
        else if !natBit (recNat s key 5 1) (memberBit s key t) then jointFail s t key d f
        else
          let ms := convMembers s key
          let reports := ms.flatMap (fun m => memberReports s m (m.levels.findIdx (fun l => l.conv == some key) + 1))
          if reports.any (fun r => r.isNone) then s else
          let go := ms.length == recNat s key 0 1 && reports.all (fun r => r == some true)
          let s := if go then convWrite (convWrite s key 4 [0, 0]) key 3 [BitVec.ofNat 8 (recNat s key 3 1 + 1)]
            else convClose s key
          ms.foldl (fun (s : State) m => (s.pairOf m.id).foldl (fun (s : State) i => match s.teams.find i with
            | some x => (match x.fail, x.convLevel? with
              | some f, some (d, l) =>
                if f.level ≠ d then s else rollbackFinish s x f (if go then nextRoutine s x l else none)
              | _, _ => s)
            | none => s) s) s
      | _, _, _ => s) s

/-! ## Cycle limits (R418) -/

/-- CYCLE_LIMIT_EXPIRY (R418): the subject is a team; the lowest level whose count has reached its limit fails, in both
copies by the leading copy's count (R439). -/
def execCycleLimitExpiry (s : State) : Host.Outcome State Fault Refusal :=
  onEvent (fun e s =>
    match s.teams.find e.a with
    | none => s
    | some t =>
      if t.fail.isSome ∨ t.copy = .trailing then s else
      match t.levels.findIdx? (fun l => decide (l.limit ≤ t.residentClocks s.clock - l.count)) with
      | some i => (s.pairOf t.id).foldl (fun (s : State) k => failLevel s k ⟨i + 1, 2, 0x1B, wholeTeam, false⟩) s
      | none => s) s

end Sys2Proof.Machine
end

