-- ==== Sys2Proof/Machine/Compare.lean ====
section
/-! DEFINITION. The compare engine (R427 to R451): CMPSTAT and CMPPOINT, the meeting of compared events, the wait limit of a
held entry, and the start of a trailing copy. -/

namespace Sys2Proof.Machine

/-- CMPSTAT (R449): the trailing copy receives the leading copy's words. -/
def execCmpstat (d : BitVec 8) (s : State) : Host.Outcome State Fault Refusal :=
  issue { sw := [(d.toNat, 4)], bad := d.toNat % 4 != 0, long := some true } (fun c _ run s =>
    match s.teams.find c.team with
    | none => .ok s
    | some t =>
      let k := t.cmp
      withChannel c [t.desc.protect * 2 ^ 30 + k.held.length * 65536 + k.mismatch, k.retries * 65536 + k.escal, k.stall,
          k.lastGroup * 2 ^ 20 + k.lastDatum] (fun _ => true)
        (fun vs s => .ok (s.longOp c run true (.ret d.toNat vs)).2) s) s

/-- The registers that a CMPPOINT names, as its event presents them: S and n, then each lane's values and tags, or the
uniform values. -/
def pointWords (g : Group) (lanes : List Nat) (a n : Nat) (uniform : Bool) (inj : Option (Nat × Bool × Nat)) : List Nat :=
  let flip (lane k v : Nat) : Nat := match inj with
    | some (l, _, bit) => if l = lane ∧ k = 0 then v ^^^ 2 ^ bit else v
    | none => v
  if uniform then [1, n] ++ flipFirst inj ((List.range n).map (fun k => (g.rf.S (a + k)).toNat))
  else [0, n] ++ lanes.flatMap (fun l => (List.range n).flatMap (fun k =>
    [flip l k (g.rf.V (a + k) l).toNat, g.tag (a + k) (g.sliceOf l)]))

/-- CMPPOINT (R450): in a lane-pair group the frame compares the named registers; in a core-pair team it is an event. -/
def execCmppoint (a : BitVec 8) (sg : BitVec 1) (n : BitVec 3) (s : State) : Host.Outcome State Fault Refusal :=
  let k := n.toNat + 1
  let u : Uses := if sg = 1 then { sr := [(a.toNat, k)], long := some false, pair := true }
    else { vrs := [(a.toNat, k)], bad := decide (0x80 < a.toNat + k), long := some false, pair := true }
  issue u (fun c g run s =>
    match s.teams.find c.team with
    | none => .ok s
    | some t =>
      if !t.paired then .ok s
      else if !slackRoom t 1 then .stay (countStall s t)
      else
        let (inj, ej) := g.dataInjection t.copy (lanesOf c.lanes)
        let words := pointWords g (lanesOf c.lanes) a.toNat k (sg == 1) inj
        let (id, s) := s.longOp c run false .done
        .ok ((s.onCur c (fun g => { g with errinj := ej })).onTeam c.team (fun t =>
          t.enterEvent (t.residentClocks s.clock) c.group eventPoint c.addr c.lanes words 0 none (some id)))) s

/-! ## Events meet (R434, R436, R440) -/

/-- The signature of an event (R436). -/
def CmpEvent.signature (e : CmpEvent) : Nat :=
  Config.signature (e.kind :: e.iaddr.toNat :: e.lanes.toNat :: e.faddr.toNat :: e.words)

/-- Words of an event that belong to no lane, and words of each lane; none when its data are not laid out by lanes. -/
def CmpEvent.layout (e : CmpEvent) : Option (Nat × Nat) :=
  if e.kind = eventStore ∨ e.kind = eventAtomic then some (1, 3)
  else if e.kind = eventPoint ∧ e.words.headD 1 = 0 then some (2, 2 * e.words.getD 1 1) else none

/-- Lanes whose data differ between two events; every lane of the unit when that cannot be said (R440). -/
def diffLanes (x y : CmpEvent) : Mask :=
  match x.layout with
  | some (h, n) =>
    let part (e : CmpEvent) (i : Nat) : List Nat := (e.words.drop (h + n * i)).take n
    let bad := (lanesOf x.lanes).zipIdx.filter (fun (l : Nat × Nat) => part x l.2 != part y l.2)
    if x.lanes ≠ y.lanes ∨ bad.isEmpty then x.lanes ||| y.lanes else maskOf (bad.map (·.1))
  | none => x.lanes

/-- The datum of two events that do not match; none when they do (R440). -/
def diffDatum (x y : CmpEvent) : Option Nat :=
  if x.kind ≠ y.kind then some (if x.kind = eventEnd ∨ y.kind = eventEnd then 3 else 2)
  else if x.iaddr ≠ y.iaddr then some 2
  else if x.signature ≠ y.signature then some 1 else none

/-- The record of a mismatch names the leading copy's instruction (R440). -/
def mismatchRecord (e : CmpEvent) (lanes : Mask) : Record :=
  { code := 0x1A, kind := 0, inrun := true, replay := false, sysmode := false, double := false, group := e.group, num := 0,
    iaddr := e.iaddr, lanes := lanes, faddr := e.faddr }

/-- A matched block is performed: the leading copy's always, the trailing copy's on storage of its own (R434). -/
def performBlock (s : State) (team group : Nat) (b : Block) : State :=
  s.onGroup team group (fun g => { g with fifo := g.fifo ++ [b] })

/-- A matched word: a copy joins the open set of each copy, a CSEAL takes effect in each, and the trailing copy's operation
follows the leading copy's (R434). -/
def performOnce (s : State) (lead trail : Nat) (x y : Nat) : State :=
  let one (s : State) (team id : Nat) : State :=
    if (s.copies.find id).isSome then queueCopy s id
    else match s.ops.find id with
      | some o => (match o.body with
        | .cseal b => (sealBatch s team o.group b).completeOp id
        | _ => s)
      | none => s
  let s := one (one s lead x) trail y
  match s.ops.find y with
  | some o => (match o.body with
    | .follow _ d => s.setBody y (.follow x d)
    | _ => s)
  | none => s

/-- COMPARE_MATCH (R436): the subject is a leading copy's team and a group. Its oldest held event meets the trailing copy's
oldest: it is performed under R434, or the copies differ (R440). -/
def execCompareMatch (s : State) : Host.Outcome State Fault Refusal :=
  onEvent (fun e s =>
    match s.teams.find e.a with
    | none => s
    | some t =>
      match t.twin.bind s.teams.find with
      | none => s
      | some w =>
        if t.copy ≠ .leading then s else
        match t.cmp.held.find? (fun x => x.group == e.b), w.cmp.seen.find? (fun x => x.group == e.b) with
        | some x, some y =>
          (match diffDatum x y with
          | some d => mismatch s t.id x.group d (mismatchRecord x (diffLanes x y))
          | none =>
            let s := s.onTeam t.id (fun t => { t with cmp := { t.cmp with
              held := t.cmp.held.eraseIdx (t.cmp.held.findIdx (fun v => v.group == e.b)) } })
            let s := s.onTeam w.id (fun t => { t with cmp := { t.cmp with
              seen := t.cmp.seen.eraseIdx (t.cmp.seen.findIdx (fun v => v.group == e.b)) } })
            let s := match x.block with | some b => performBlock s t.id e.b b | none => s
            let s := match y.block with
              | some b => if b.space.shared then s else performBlock s w.id e.b b
              | none => s
            match x.copy, y.copy with
            | some i, some j => performOnce s t.id w.id i j
            | _, _ => s)
        | _, _ => s) s

/-- COMPARE_WAIT_TIMEOUT (R440): the subject is a leading copy's team; an entry that has been held for 1,048,576 resident
clocks raises a mismatch. -/
def execCompareWaitTimeout (s : State) : Host.Outcome State Fault Refusal :=
  onEvent (fun e s =>
    match s.teams.find e.a with
    | none => s
    | some t =>
      match t.cmp.held.find? (fun x => decide (x.since + 1048576 ≤ t.residentClocks s.clock)) with
      | some x => mismatch s t.id x.group 4 (mismatchRecord x x.lanes)
      | none => s) s

/-- TRAILING_COPY_START (R432): the subject is a trailing copy's team, 256 clocks after its leading copy. -/
def execTrailingCopyStart (s : State) : Host.Outcome State Fault Refusal :=
  onEvent (fun e s =>
    match s.teams.find e.a with
    | none => s
    | some t =>
      let lead : Bool := match t.twin.bind s.teams.find with | some l => l.fail.isNone && l.live | none => false
      if t.copy ≠ .trailing ∨ t.phase ≠ .resident ∨ t.fail.isSome ∨ !lead ∨ s.clock < t.startAt then s
      else s.onTeam e.a (fun t => { t with started := true })) s

end Sys2Proof.Machine
end

