-- ==== Sys2Proof/Machine/Place.lean ====
section
/-! DEFINITION. Placement, eviction and the end of teams (R20 to R26, R34, R353 to R355, R360 to R364), and the privileged
words that act on teams and clusters (R362, R363, R365). -/

namespace Sys2Proof.Machine

/-! ## The groups of a team (R17, R24, R25, R352, R429) -/

/-- Whether the launch assigns roles (R17). -/
def Desc.checked (d : Desc) : Bool := d.copyCount != 0 || d.matCount != 0

/-- The role of a group index (R17). -/
def Desc.role (d : Desc) (g : Nat) : Role :=
  if d.copyFirst ≤ g ∧ g < d.copyFirst + d.copyCount then .copy
  else if d.matFirst ≤ g ∧ g < d.matFirst + d.matCount then .matrix else .vector

/-- A slice of a group that starts: its lanes at the entry (R429). -/
def startSlice (per i : Nat) (pc : DWord) : Slice :=
  { dual := false, b := PathUnit.empty, rj := 0, stack := [],
    a := { pc := pc, via := pc, mask := maskOf ((List.range per).map (fun k => per * i + k)), ret := [], st := .ready, gang := 0 } }

/-- A group of a team that starts (R34, R352), without a place yet. -/
def freshGroup (d : Desc) (x : Ctx) (sys : Bool) (i now : Nat) : Group :=
  let pairs := d.protect == 1
  let g : Group :=
    { id := i, width := d.width, lanepair := pairs, vregs := d.vregs, sregs := d.sregs, role := d.role i, checked := d.checked,
      rf := RegFile.reset, sh := if pairs then some RegFile.reset else none, tags := [], flags := [], pend := [], loose := [], sysmode := sys,
      intrap := false, empty := false, fpctl := 0, fpstat := 0, fpcnt := [0, 0, 0, 0, 0], part := 0, winbase := 0, winlen := 0,
      faultlo := 0, faulthi := 0, errinj := 0, evpend := 0, mdef := x.mdef, wdcfg := x.wdcfg, cmpretry := x.cmpretry,
      slices := (List.range (d.width / 4)).map (fun k => startSlice (if pairs then 2 else 4) k d.entry), gangs := [Gang.new 0 now],
      gangCtr := 1, fifo := [], lastPage := [], seen := [], acqt := 0, idle := 0, busy := [], runs := 0, late := [], batches := [],
      openStat := Batch.free, resv := [], unitBad := [], shadow := none, retired := false, half := 0, col := 0, rows := [], core := 0 }
  { g with part := Nat.log2 g.lanes }

/-- The groups that a placement finds seats for: new ones, or the saved ones, with the sizes that their GROWs ask for when
the team takes its enlarged allocation (R184). -/
def Team.candidates (t : Team) (s : State) (enlarged : Bool) : List Group :=
  if t.groups.isEmpty then
    (List.range t.ngroups).map (fun i => freshGroup t.desc (s.ctx t.ctx) t.command i s.now)
  else t.groups.map (fun (g : Group) =>
    let want := g.gangs.foldl (fun n k => match k.wait with | .grow m => max n m | _ => n) g.vregs
    if enlarged then { g with vregs := want } else g)

/-! ## Seats (R21, R24, R25, R354 item 3) -/

/-- What a group takes of a core-half: columns, words of each, uniform blocks. -/
structure Seat where
  core : Nat
  half : Nat
  col : Nat
  n : Nat
  rows : List Nat
  blocks : Nat
  deriving DecidableEq, Repr

/-- Uniform blocks of a group (R25, R430). -/
def Group.blocks (g : Group) : Nat := g.sregs / 32 * (if g.lanepair then 2 else 1)

/-- The seat of a group. One that had retired before its team was placed anew has none. -/
def Group.seat (g : Group) : Seat := ⟨g.core, g.half, g.col, g.width / 4, g.rows, if g.rows.isEmpty then 0 else g.blocks⟩

/-- Seats that are taken. -/
def takenSeats (s : State) : List Seat :=
  s.teams.flatMap (fun e => if e.2.phase = .resident then e.2.groups.map Group.seat else [])

/-- A range of words is free in n columns from one on. -/
def rangeFree (occ : List Seat) (core half col n r w : Nat) : Bool :=
  occ.all (fun o => o.core != core || o.half != half || decide (o.col + o.n ≤ col) || decide (col + n ≤ o.col) ||
    o.rows.all (fun x => decide (x < r) || decide (r + w ≤ x)))

/-- The lowest columns and words of a core that take a group (R354 item 3). The spec does not say which half a group lives in: the
half that holds fewer uniform blocks comes first, the lower one of two equal ones, as the worked example of R26 has 16 groups in
each half (DESIGN CHOICE, log entry 15). -/
def findSeat (occ : List Seat) (core n w blocks : Nat) : Option Seat :=
  let used (h : Nat) : Nat := occ.foldl (fun k o => if o.core = core ∧ o.half = h then k + o.blocks else k) 0
  (if used 1 < used 0 then [1, 0] else [0, 1]).findSome? (fun h =>
    if 256 < used h + blocks then none else
    (List.range (64 / max 1 n)).findSome? (fun k =>
      ((List.range (513 - w)).find? (fun r => rangeFree occ core h (k * n) n r w)).map
        (fun r => ⟨core, h, k * n, n, (List.range w).map (r + ·), blocks⟩)))

/-- Seats for groups, in order, each on the first of some cores that takes it; a retired group needs none. -/
def seatAll (cores : List Nat) : List Group → List Seat → Option (List Group)
  | [], _ => some []
  | g :: gs, occ =>
    if g.retired then (seatAll cores gs occ).map (fun r => { g with rows := [] } :: r) else
    match cores.findSome? (fun k => findSeat occ k (g.width / 4) (4 * g.vregs) g.blocks) with
    | none => none
    | some x => (seatAll cores gs (occ ++ [x])).map (fun r =>
        { g with core := x.core, half := x.half, col := x.col, rows := x.rows } :: r)

/-- A team's groups fit an empty core, or an empty core pair where it may take one (R26, R184). -/
def fitsEmpty (t : Team) (gs : List Group) : Bool :=
  (seatAll [0] gs []).isSome || (!t.paired && (seatAll [0, 1] gs []).isSome)

/-! ## Where a team may be placed (R353 to R355) -/

/-- The cores that a team occupies. -/
def Team.coreList (t : Team) : List Nat := if t.pair then [t.core, t.core + 1] else [t.core]

/-- Teams resident in a cluster. -/
def residents (s : State) (cluster : Nat) : List Team :=
  (s.teams.filter (fun e => e.2.phase == .resident && !e.2.command && e.2.cluster == cluster)).map (·.2)

/-- Both DIEMASKs allow a die (R354 item 1). -/
def dieAllowed (s : State) (t : Team) (die : Nat) : Bool :=
  let q := (s.queue t.queue).diemask
  (t.desc.diemask == 0 || natBit t.desc.diemask die) && (q == 0 || natBit q die)

/-- The L1 mode of a cluster fits (R355). -/
def modeFits (s : State) (t : Team) (cluster : Nat) : Bool :=
  let rs := residents s cluster
  rs.isEmpty || ((s.cluster cluster).fused == t.desc.fused &&
    (!t.desc.fused || rs.all (fun r => r.ctx == t.ctx && r.desc.entry == t.desc.entry)))

/-- How many banks of a pool a placement can be promised: those free or zeroing that no other placement is (R354 item 5). -/
def banksFor (s : State) (pool : Nat) : Nat :=
  (banksIn s pool (· == .free)).length + (banksIn s pool BankState.isZeroing).length - promisedIn s pool

/-- Slots that a team needs banks for: those of its descriptor, or those that were saved (R256, R266). -/
def Team.wantSlots (t : Team) : List Nat :=
  match t.saved with
  | some v => v.banks.map (·.1)
  | none => List.range t.desc.slots

/-- The clusters of the rings that a team owns (R354 item 7). -/
def ringClusters (s : State) (team : Nat) : List Nat :=
  (s.clusters.filter (fun c => c.2.rings.any (fun r => r.2.team == team))).map (·.1)

/-- The seats of a team on the given cores of a cluster, when everything of R354 but the number of banks holds. -/
def siteFits (s : State) (t : Team) (cluster : Nat) (cores : List Nat) (gs : List Group) : Option (List Group) :=
  let busy (k : Nat) : List Team := (residents s cluster).filter (fun r => r.coreList.contains k)
  let full := cores.any (fun k => decide (16 ≤ (busy k).length))
  let tiles := t.desc.matCount != 0 && cores.any (fun k => (busy k).any (fun r => r.desc.matCount != 0))
  let rings := (ringClusters s t.id).any (· != cluster)
  if !dieAllowed s t (cluster / 28) || (s.cluster cluster).door != .opened || !modeFits s t cluster || full || tiles || rings then none
  else seatAll cores gs (takenSeats s)

/-- A place: a cluster with the cores of the team, and of the trailing copy under core-pair protection. -/
structure Site where
  cluster : Nat
  cores : List Nat
  other : List Nat
  deriving DecidableEq, Repr

/-- The groups of a team, and of its other copy, as a site seats them (R354). -/
def siteSeats (s : State) (t : Team) (x : Site) (enlarged : Bool) : Option (List Group × List Group) :=
  let n := banksFor s x.cluster
  match t.twin.bind s.teams.find with
  | none =>
    if n < t.wantSlots.length then none else
    (siteFits s t x.cluster x.cores (t.candidates s enlarged)).map (fun gs => (gs, []))
  | some w =>
    if n < t.wantSlots.length + w.wantSlots.length ∨ x.cores = x.other ∨ x.cores.length ≠ 1 ∨ x.other.length ≠ 1 then none else
    match siteFits s t x.cluster x.cores (t.candidates s enlarged), siteFits s w x.cluster x.other (w.candidates s enlarged) with
    | some gs, some hs => some (gs, hs)
    | _, _ => none

/-- The sites of a cluster on one core, or for a copied team on two. -/
def singleSites (t : Team) (cluster : Nat) : List Site :=
  (List.range 8).flatMap (fun k =>
    if t.paired then ((List.range 8).filter (· != k)).map (fun m => ⟨cluster, [8 * cluster + k], [8 * cluster + m]⟩)
    else [⟨cluster, [8 * cluster + k], []⟩])

/-- The sites of a cluster on a core pair. -/
def pairSites (t : Team) (cluster : Nat) : List Site :=
  if t.paired then [] else (List.range 4).map (fun k => ⟨cluster, [8 * cluster + 2 * k, 8 * cluster + 2 * k + 1], []⟩)

/-- A team fits one core of a die. -/
def fitsSingle (s : State) (t : Team) (die : Nat) (enlarged : Bool) : Bool :=
  (List.range 28).any (fun c => (singleSites t (28 * die + c)).any (fun x => (siteSeats s t x enlarged).isSome))

/-- A team fits somewhere on a die. -/
def fitsDie (s : State) (t : Team) (die : Nat) (enlarged : Bool) : Bool :=
  fitsSingle s t die enlarged ||
  (List.range 28).any (fun c => (pairSites t (28 * die + c)).any (fun x => (siteSeats s t x enlarged).isSome))

/-- The enlarged allocation of R184 is taken when it fits some empty core or pair. -/
def Team.takesEnlarged (t : Team) (s : State) : Bool := t.evictReq && fitsEmpty t (t.candidates s true)

/-- Place in the lists of R353: at their head teams that R184 has evicted, then begun teams in the order they began, then by priority,
then by start of record and number. -/
def listKey (s : State) (t : Team) : Nat × Nat × Nat :=
  if t.begun then (if t.evictReq then 0 else 1, t.order, t.id) else (2, 7 - (s.queue t.queue).prio, t.id)

/-- Lexicographic order of list places. -/
def keyBefore (a b : Nat × Nat × Nat) : Bool :=
  decide (a.1 < b.1) || (a.1 == b.1 && (decide (a.2.1 < b.2.1) || (a.2.1 == b.2.1 && decide (a.2.2 < b.2.2))))

/-- A team waits for a place; a trailing copy is placed with its leading copy. -/
def Team.wants (t : Team) : Bool := t.phase != .resident && t.copy != .trailing

/-- No team ahead in the lists of a die fits anywhere on it (R353). -/
def firstInList (s : State) (t : Team) (die : Nat) : Bool :=
  s.teams.all (fun e => e.1 == t.id || !e.2.wants || !keyBefore (listKey s e.2) (listKey s t) ||
    !fitsDie s e.2 die (e.2.takesEnlarged s))

/-! ## Placing a team (R34, R352, R354, R364) -/

/-- The L1 of a core, of a fused cluster all of it, is invalidated when a team of a different context becomes resident on it (R34). -/
def enterCore (s : State) (ctx core : Nat) : State :=
  let k := core / 8
  let ks := s.l1Cores core
  let cl := s.cluster k
  let s := if ks.all (fun c => cl.lastctx.find (c % 8) == some ctx) then s else
    ks.foldl (fun (s : State) c => s.dropL1 c (fun _ => true)) s
  let cl := s.cluster k
  s.putCluster k { cl with lastctx := ks.foldl (fun (m : Map Nat) c => m.put (c % 8) ctx) cl.lastctx }

/-- A value of the injection port that waits for the team reaches its group before the first run (R447). -/
def takeInjection (s : State) (team : Nat) : State :=
  match s.teams.find team with
  | none => s
  | some t =>
    let mine (p : Nat × Nat × Nat × Word) : Bool := p.1 == t.ctx && p.2.1 == t.number
    let ps := s.inject.pending.filter mine
    let good := ps.filter (fun p => goodErrinj t.desc.protect p.2.2.2 && (t.group? p.2.2.1).isSome)
    let s := good.foldl (fun (s : State) p => (s.pairOf team).foldl (fun (s : State) i =>
      s.onGroup i p.2.2.1 (fun g => { g with errinj := p.2.2.2 })) s) s
    if ps.isEmpty then s else
    { s with inject := { s.inject with pending := s.inject.pending.filter (fun p => !mine p),
                                       status := if good.length < ps.length then 3 else 0 } }

/-- The tiles of a team that becomes resident: cleared, or as they were saved; half 1 of a team on one core stays aside
(R34, R360). -/
def enterTiles (s : State) (t : Team) : State :=
  if t.desc.matCount = 0 then s else
  let saved (h z : Nat) : Tile := match t.saved with
    | some v => v.tiles.getD (4 * h + z) (if h = 0 then Tile.reset else
        t.half1.getD z { Tile.reset with tcfg := (v.tiles.getD z Tile.reset).tcfg })
    | none => Tile.reset
  t.halves.foldl (fun (s : State) h => (List.range 4).foldl (fun (s : State) z => s.putTile t z h (saved h z)) s) s

/-- Accesses that a re-placed team has saved are translated again for their unfinished lanes (R245, R246, R364), and its suspended
copies go on, into the window as it now stands (R330). -/
def rearm (s : State) (team cluster : Nat) : State :=
  let ops := (s.ops.filter (fun o => o.2.team == team)).map (·.1)
  let s := { s with
    ops := s.ops.map (fun (o : Nat × Op) => if o.2.team = team then (o.1, match o.2.body with
      | .mem m => { o.2 with body := .mem (m.setLanes (fun a => !a.st.ended) .walk) }
      | _ => o.2) else o)
    copies := s.copies.map (fun (k : Nat × Copy) => if k.2.team = team then
      (k.1, { k.2 with phase := .active, cluster := cluster, banks := [] }) else k) }
  s.onTeam team (fun t => { t with groups := t.groups.map (fun (g : Group) =>
    g.mapGangs (fun k => ops.foldl (fun (k : Gang) i => k.unpark i) k)) })

/-- One copy of a team becomes resident on cores of a cluster, with its groups seated; banks are promised to its slots (R256). No line
that an L1 has filled before is read by a group that comes from another place (log entry 16). -/
def settleTeam (s : State) (team cluster : Nat) (cores : List Nat) (gs : List Group) (oldRegs : List Nat) : State :=
  match s.teams.find team with
  | none => s
  | some t =>
    let new := t.groups.isEmpty
    let core := cores.headD 0
    let cl := s.cluster cluster
    let s := if (residents s cluster).isEmpty then s.putCluster cluster { cl with fused := t.desc.fused } else s
    let s := cores.foldl (fun (s : State) k => enterCore s t.ctx k) s
    let old (g : Group) : Group := { g with acqt := s.clock, lastPage := [], seen := [], busy := [] }
    let t1 : Team := { t with phase := .resident, core := core, pair := decide (cores.length = 2),
                              groups := if new then gs else gs.map old, evictReq := false, oldRegs := oldRegs,
                              placedAt := s.clock, placeSeq := s.now, promised := t.wantSlots }
    let t1 := if new then
        { t1 with tokens := List.replicate 4 (if t.desc.matCount = 0 then none else some t.desc.matFirst),
                  startAt := s.clock + 256, started := t.copy != .trailing, suspended := false }
      else t1.unpause s.clock
    let s := enterTiles (s.putTeam team t1) t1
    let s := if t.wantSlots.isEmpty then s.onTeam team (fun t => { t with saved := none }) else s
    keepPromises (rearm s team cluster) cluster 64

/-- A team takes a site; none when it does not fit (R354, R184). -/
def placeTeam (s : State) (t : Team) (x : Site) : Option State :=
  let big := t.takesEnlarged s
  let asked (t : Team) : List Nat := if t.evictReq && !big then
      (t.groups.filter (fun g => g.gangs.any (fun k => match k.wait with | .grow n => decide (g.vregs < n) | _ => false))).map (·.id)
    else []
  (siteSeats s t x big).map (fun p =>
    let s1 := settleTeam s t.id x.cluster x.cores p.1 (asked t)
    let s2 := match t.twin.bind s.teams.find with
      | some w => settleTeam s1 w.id x.cluster x.other p.2 (asked w)
      | none => s1
    if t.groups.isEmpty then takeInjection s2 t.id else s2)

/-! ## The save area (R360) -/

/-- Bytes of a group's area. -/
def groupArea (w : Nat) : Nat := 8192 + (w * 512 + 4095) / 4096 * 4096 + (w * 64 + 4095) / 4096 * 4096

/-- The requirement of SAVESIZE for one copy, in 4 KiB units. -/
def Desc.saveUnits (d : Desc) : Nat := 1 + d.threads / max 1 d.width * (groupArea d.width / 4096) + 72 + 128

/-- Where a team's save area begins: a trailing copy uses the second half (R352, R432). -/
def Team.saveBase (t : Team) : Nat :=
  t.desc.savebase + 4096 * t.desc.savesize * t.number + (if t.copy = .trailing then 2048 * t.desc.savesize else 0)

/-- Offset of the bank area. -/
def Team.bankArea (t : Team) : Nat := 4096 * (t.desc.saveUnits - 128)

/-- A chunk of the save area is written for the team's context; a page that does not translate keeps what it holds. -/
def saveChunk (s : State) (t : Team) (va : Nat) (bs : List Byte) : State :=
  match writeGlobal s t.id 0 t.ctx (BitVec.ofNat 64 va) bs 0 with
  | .ok _ s => s
  | _ => s

/-- A byte of the areas before the banks: how their fields are laid out is left open, so each is a free value. -/
def saveByte (first i : Nat) : Byte := BitVec.ofNat 8 (Config.freeNat (first + i))

/-- The areas before the banks are written, from their i-th sector on. -/
def saveFree (t : Team) (first : Nat) : Nat → Nat → State → State
  | _, 0, s => s
  | i, n + 1, s =>
    saveFree t first (i + 1) n (saveChunk s t (t.saveBase + 64 * i) ((List.range 64).map (fun j => saveByte first (64 * i + j))))

/-- The contents of a bank go to the area of its slot. -/
def saveBank (s : State) (t : Team) (slot : Nat) (mem : List Host.Cell) : State :=
  (List.range 512).foldl (fun (s : State) i =>
    saveChunk s t (t.saveBase + t.bankArea + 32768 * slot + 64 * i) (Memory.readN mem 64 (64 * i))) s

/-- Slots of a team that are attached, with their banks. -/
def Team.attached (t : Team) : List (Nat × Nat) :=
  t.slots.zipIdx.filterMap (fun x => match x.1 with | .attached b => some (x.2, b) | _ => none)

/-- The banks of a team that a save reads are awake; those in retention begin to leave it (R267). -/
def wakeSaved (s : State) (t : Team) : Bool × State :=
  t.attached.foldl (fun (r : Bool × State) x => let y := r.2.wakeBank t.pool x.2; (r.1 && y.1, y.2)) (true, s)

/-- The save area of a team is written; reading its banks corrects and counts single-bit errors (R268). -/
def writeSave (s : State) (t : Team) : State :=
  let first := s.freeCtr
  let s := saveFree t first 0 (t.bankArea / 64) { s with freeCtr := first + t.bankArea }
  t.attached.foldl (fun (s : State) x =>
    saveBank (s.correctBank t.pool x.2 0 32768) t x.1 ((s.cluster t.pool).bank x.2).mem) s

/-- The bytes of a bank's area as they stand at re-placement; a sector that cannot be read has its saved bytes. -/
def loadBank (s : State) (t : Team) (slot : Nat) (mem : List Host.Cell) : List Host.Cell :=
  (List.range 512).foldl (fun (m : List Host.Cell) i =>
    match readGlobal s t.id t.ctx (BitVec.ofNat 64 (t.saveBase + t.bankArea + 32768 * slot + 64 * i)) 64 with
    | .ok bs _ => Memory.writeAll m (cellsAt (64 * i) bs)
    | _ => Memory.writeAll m (cellsAt (64 * i) (Memory.readN mem 64 (64 * i)))) []

/-- A sector of the areas before the banks is not as it has been saved. -/
def areaAltered (s : State) (t : Team) (first i : Nat) : Bool :=
  match readGlobal s t.id t.ctx (BitVec.ofNat 64 (t.saveBase + 64 * i)) 64 with
  | .ok bs _ => bs != (List.range 64).map (fun j => saveByte first (64 * i + j))
  | _ => false

/-- Somebody has altered the areas before the banks (R360). -/
def saveAltered (s : State) (t : Team) : Bool :=
  match t.saved with
  | some v => (List.range (t.bankArea / 64)).any (areaAltered s t v.first)
  | none => false

/-- A re-placed team's banks hold what the save area holds (R266, R360). -/
def loadSave (s : State) (t : Team) : State :=
  match t.saved with
  | none => s
  | some v => s.putTeam t.id { t with saved := some { v with banks := v.banks.map (fun (b : Nat × List Host.Cell) =>
      (b.1, loadBank s t b.1 b.2)) } }

/-- A restore that finds a field out of its limits ends the team (R360). Which bytes hold which field is left open: where an area
before the banks has been altered, a free value says whether it does (log entry 17). -/
def restoreFails (s : State) (t : Team) : Option State :=
  if !(s.pairOf t.id).any (fun i => match s.teams.find i with | some u => saveAltered s u | none => false) then none else
  let (n, s) := s.free
  if n % 2 = 0 then none else
  some (terminateTeam (postTeam s t 0 { code := 0x11, kind := 0, inrun := false, replay := false, sysmode := false,
                                        double := false, group := wholeTeam, num := 0x62, iaddr := 0, lanes := 0, faddr := 0 }) t.id)

/-- A team takes a site with what its save area holds; none when it does not fit. -/
def placeLoaded (s : State) (t : Team) (x : Site) : Option State :=
  if (siteSeats s t x (t.takesEnlarged s)).isNone then none else
  match restoreFails s t with
  | some s => some s
  | none =>
  let s1 := (s.pairOf t.id).foldl (fun (s : State) i => match s.teams.find i with
    | some u => loadSave s u
    | none => s) s
  (s1.teams.find t.id).bind (fun u => placeTeam s1 u x)

/-- TEAM_PLACEMENT (R353, R354): the subject names a team, a cluster and a core (of a copied team leading core + 8 ×
trailing core), with the flag for a core pair, which a team takes only when no core of the die takes it. -/
def execTeamPlacement (s : State) : Host.Outcome State Fault Refusal :=
  onEvent (fun e s =>
    match s.teams.find e.a with
    | none => s
    | some t =>
      let die := e.b / 28
      let x : Site :=
        if t.paired then ⟨e.b, [8 * e.b + e.c % 8], [8 * e.b + e.c / 8 % 8]⟩
        else if e.flag then ⟨e.b, [8 * e.b + e.c % 8 / 2 * 2, 8 * e.b + e.c % 8 / 2 * 2 + 1], []⟩
        else ⟨e.b, [8 * e.b + e.c % 8], []⟩
      if !t.wants || decide (224 ≤ e.b) || !firstInList s t die || (e.flag && !t.paired && fitsSingle s t die (t.takesEnlarged s)) then s
      else (placeLoaded s t x).getD s) s

/-! ## Leaving (R34, R175, R364, R362) -/

/-- A cluster that drains accepts teams again once it is empty (R362). -/
def reopen (s : State) (cluster : Nat) : State :=
  let cl := s.cluster cluster
  if cl.door = .draining ∧ (residents s cluster).isEmpty then s.putCluster cluster { cl with door := .opened } else s

/-- A team's storage is freed: banks are zeroed, tiles and last-page registers cleared (R34, R240). -/
def freeStorage (s : State) (team : Nat) (phase : TeamPhase) : State :=
  match s.teams.find team with
  | none => s
  | some t =>
    let s := t.slots.foldl (fun (s : State) x => match x with
      | .attached b => s.releaseBank t.pool b
      | .leaving b => s.releaseBank t.pool b
      | _ => s) s
    let s := if t.desc.matCount = 0 then s else
      t.coreList.foldl (fun (s : State) k => s.putCore k { s.core k with tiles := [] }) s
    let gs := t.groups.map (fun (g : Group) => { g with lastPage := [], seen := [] })
    let s := s.putTeam team { t with phase := phase, slots := List.replicate 16 .detached, waitSince := s.clock, promised := [], groups := gs }
    if t.command then s else reopen s t.cluster

/-- The rings of a cluster that a team owns are undefined (R276, R363). -/
def dropRingsIn (s : State) (team cluster : Nat) : State :=
  ((s.cluster cluster).rings.filter (fun r => r.2.team == team)).foldl (fun (s : State) r =>
    undefineRing s (BitVec.ofNat 32 (cluster * 64 + r.1))) s

/-- The rings that a team owns are undefined, and rings that it alone sends to take another producer (R274, R276). -/
def dropRings (s : State) (team : Nat) : State :=
  let s := (s.clusters.map (·.1)).foldl (fun (s : State) k => dropRingsIn s team k) s
  { s with clusters := s.clusters.map (fun (c : Nat × Cluster) =>
      (c.1, { c.2 with rings := c.2.rings.map (fun (r : Nat × Ring) =>
        if r.2.producer = some team then (r.1, { r.2 with producer := none }) else r) })) }

/-- A team is no more, and its grid counts it: as terminated or as ended (R350, R362). Of a copied team both copies go. -/
def removeTeam (s : State) (team : Nat) (terminated : Bool) : State :=
  match s.teams.find team with
  | none => s
  | some t =>
    let ids := s.pairOf team
    let s := ids.foldl dropRings s
    let s := { s with teams := s.teams.filter (fun e => !ids.contains e.1),
                      ops := s.ops.filter (fun o => !ids.contains o.2.team),
                      copies := s.copies.filter (fun k => !ids.contains k.2.team),
                      grids := if t.command then s.grids else s.grids.adjust t.grid (fun g =>
                        if terminated then { g with terminated := g.terminated + 1 } else { g with ended := g.ended + 1 }) }
    if t.command then s else reopen s t.cluster

/-- An operation that eviction saves with its progress: a parked access or fetch, or one that waits on another team's provisional
sector, or a multiplication or drain that still translates (R70, R364, R397). -/
def savedOp (s : State) (t : Team) (o : Op) : Bool :=
  match o.body with
  | .fetch _ => true
  | .matrix _ _ _ _ _ _ _ false _ _ => true
  | .mdrain _ _ _ _ (some _) none => true
  | .mem m => m.open? && m.accs.all (fun a => a.st.ended || a.st.soft || laneHeld s t.id m a ||
      (t.wordOps.contains o.id && (a.st == .walk || a.st == .ready)))
  | _ => false

/-- No block of a team is in a FIFO, a merge point or the compare engine, but for atomics that wait on LINKSTALL (R364, R475). -/
def blocksGone (s : State) (t : Team) : Bool :=
  let mine (b : Block) : Bool := b.team == t.id && !atomStalled s b
  t.groups.all (fun g => g.fifo.isEmpty) && !s.cores.any (fun c => c.2.merge.any mine || c.2.comm.any mine) &&
  t.cmp.held.isEmpty && t.cmp.seen.isEmpty

/-- A copy of a team stands as eviction needs it: every gang at a run boundary, parked or blocked, every operation over or to
be saved, every copy finished or waiting (R364 steps 1 to 3, R330). -/
def evictable (s : State) (t : Team) : Bool :=
  t.groups.all (fun g => groupStopped s t g && (g.retired || !catchesUp s t g)) && t.fail.isNone && blocksGone s t &&
  s.ops.all (fun o => o.2.team != t.id || savedOp s t o.2) &&
  s.copies.all (fun k => k.2.team != t.id || k.2.phase == .waiting || k.2.posted)

/-- BOPENs that no give has matched are cancelled (R261, R266). -/
def cancelOpens (s : State) (team : Nat) : State :=
  (s.ops.filter (fun o => o.2.team == team)).foldl (fun (s : State) o => cancelOpen s o.1) s

/-- A copy of a team is evicted: saved, and its storage freed (R364 steps 4 to 6). -/
def evictCopy (s : State) (team : Nat) : State :=
  match s.teams.find team with
  | none => s
  | some t =>
    let first := s.freeCtr
    let s := writeSave s t
    let tiles : Map Tile := if t.desc.matCount = 0 then [] else
      t.halves.flatMap (fun h => (List.range 4).map (fun z => (4 * h + z, s.tileOf t z h)))
    let half1 : Map Tile := if t.pair then (List.range 4).map (fun z => (z, s.tileOf t z 1)) else t.half1
    let before := t.promised.map (fun i => (i, match t.saved with | some v => (v.banks.getD i [], v.bad.getD i []) | none => ([], [])))
    let banks : Map (List Host.Cell × List Nat) := before.foldl (fun m x => m.put x.1 x.2)
      (t.attached.map (fun x => let b := (s.cluster t.pool).bank x.2; (x.1, (b.mem, b.bad))))
    let saved : Saved := { first := first, tiles := tiles, banks := banks.map (fun x => (x.1, x.2.1)), bad := banks.map (fun x => (x.1, x.2.2)) }
    let s := s.loseBlocks (fun b => b.team == team && atomStalled s b)
    let s := { s with
      monitors := s.monitors.filter (fun (m : Monitor) => match m.who with
        | .op i => (match s.ops.find i with | some o => o.team != team | none => true)
        | .copy i => (match s.copies.find i with | some k => k.team != team | none => true))
      copies := s.copies.map (fun (k : Nat × Copy) => if k.2.team = team then (k.1, { k.2 with phase := .waiting }) else k) }
    freeStorage (s.putTeam team { t with saved := some saved, half1 := if t.desc.matCount = 0 then [] else half1 }) team .evicted

/-- A copy of a team is ready for its storage to be freed at termination: accesses that have not gone out are abandoned, and
everything else is over. -/
def endable (s : State) (t : Team) : Bool :=
  t.phase != .resident ||
  (t.groups.all (groupStopped s t) && blocksGone s t &&
   s.ops.all (fun o => o.2.team != t.id || savedOp s t o.2 || (match o.2.body with | .evict .. => true | .flush [] true => false | _ => false)) &&
   s.copies.all (fun k => k.2.team != t.id || k.2.phase == .waiting || k.2.posted))

/-- What the compare engine still holds of a copied team that ends is never performed. -/
def dropHeld (s : State) (team : Nat) : State :=
  match s.teams.find team with
  | none => s
  | some t =>
    let s := (t.cmp.held ++ t.cmp.seen).foldl dropEvent s
    s.onTeam team (fun t => { t with cmp := { t.cmp with held := [], seen := [], values := [] } })

/-- What a termination does next: accesses are given up, open levels are rolled back, the storage of every copy is freed,
and the team is gone (R362, R364, R424); none while it waits. -/
def terminateNext (s : State) (team : Nat) : Option State :=
  match s.teams.find team with
  | none => none
  | some t0 =>
    let s := (s.pairOf team).foldl (fun (s : State) i => match s.teams.find i with
      | some t => cancelOpens (abandonAccesses (if t.paired ∧ t.groups.all (groupStopped s t) then dropHeld s i else s) t) i
      | none => s) s
    let all (p : Team → Bool) : Bool := (s.pairOf team).all (fun i => match s.teams.find i with | some t => p t | none => true)
    if !all (endable s) then some s
    else if !all (fun t => t.levels.isEmpty && t.fail.isNone) then
      some ((s.pairOf team).foldl (fun (s : State) i => rollbackAll s i) s)
    else
      let s := (s.pairOf team).foldl (fun (s : State) i => match s.teams.find i with
        | some t => if t.phase = .resident then freeStorage s i .evicted else s
        | none => s) s
      some (removeTeam s t0.id true)

/-! ## Register words for GROW (R184) -/

/-- The registers that a group asks for in GROW. -/
def Group.asks (g : Group) : Option Nat :=
  g.gangs.findSome? (fun k => match k.wait with | .grow n => some n | _ => none)

/-- Place of a group in placement order. -/
def placeKey (t : Team) (g : Group) : Nat × Nat × Nat := (t.placeSeq, t.id, g.id)

/-- The resident groups of a core-half that have not retired. -/
def halfGroups (s : State) (core half : Nat) : List (Team × Group) :=
  s.teams.flatMap (fun e => if e.2.phase = .resident then
    (e.2.groups.filter (fun g => !g.retired && g.core == core && g.half == half)).map (fun g => (e.2, g)) else [])

/-- The first in placement order of some groups. -/
def oldestOf : List (Team × Group) → Option (Team × Group)
  | [] => none
  | x :: xs => some (xs.foldl (fun a y => if keyBefore (placeKey y.1 y.2) (placeKey a.1 a.2) then y else a) x)

/-- The last in placement order of some groups. -/
def youngestOf : List (Team × Group) → Option (Team × Group)
  | [] => none
  | x :: xs => some (xs.foldl (fun a y => if keyBefore (placeKey a.1 a.2) (placeKey y.1 y.2) then y else a) x)

/-- The oldest group of a core-half that waits in GROW gets its words, where they are free. -/
def grantOldest (s : State) (core half : Nat) : State :=
  match oldestOf ((halfGroups s core half).filter (fun x => x.2.asks.isSome)) with
  | none => s
  | some (t, g) =>
    match g.asks with
    | none => s
    | some n =>
      if n ≤ g.vregs ∨ !growFits s g n then s else
      s.onGroup t.id g.id (fun g' => { g' with vregs := n, rows := g'.rows ++ growWords s g n })

/-- What an EVICT or a termination does next; none while it waits. Register 512 marks the operation that ends a team. -/
def evictDone (s : State) (o : Op) (team d : Nat) (terminate : Bool) : Option State :=
  if terminate then
    if 512 ≤ d then terminateNext s team
    else if (s.teams.find team).isSome then none else some (finishOp s o.id [0] d)
  else
    let ids := s.pairOf team
    if ids.isEmpty then some (finishOp s o.id [1] d) else
    let s := ids.foldl cancelOpens s
    if !ids.all (fun i => match s.teams.find i with | some t => evictable s t | none => true) then
      (if s.ops.any (fun x => match x.2.body with | .evict k _ true => k == team | _ => false) then some (finishOp s o.id [2] d)
       else some s)
    else
      let (awake, s) := ids.foldl (fun (r : Bool × State) i => match r.2.teams.find i with
        | some t => let y := wakeSaved r.2 t; (r.1 && y.1, y.2)
        | none => r) (true, s)
      if !awake then some s else
      let old := ids.filterMap s.teams.find
      let s := ids.foldl evictCopy s
      let s := (old.filter (·.evictReq)).foldl (fun (s : State) t =>
        (t.coreList.flatMap (fun k => [(k, 0), (k, 1)])).foldl (fun (s : State) x => grantOldest s x.1 x.2) s) s
      some (finishOp s o.id [0] d)

/-- A SUSPEND is over once every group has stopped, or the team is gone (R362); none while it waits. A gang inside a run whose group is
parked on a provisional sector then stays where it is (R70, R95). -/
def suspendDone (s : State) (o : Op) (team d : Nat) : Option State :=
  let ids := s.pairOf team
  let stopped := ids.all (fun i => match s.teams.find i with
    | some t => t.fail.isNone && t.groups.all (fun g => groupStopped s t g && (g.retired || !catchesUp s t g)) && t.cmp.held.isEmpty
    | none => true)
  let hold (k : Gang) : Gang := if k.issuing && k.wait == .none then { k with wait := .woken } else k
  if stopped then
    some (finishOp (ids.foldl (fun (s : State) i => s.onTeam i (fun t => { t with groups := t.groups.map (fun (g : Group) =>
      { g with gangs := g.gangs.map hold }) })) s) o.id [0] d)
  else none

/-- A CLOFF is over once its cluster is empty (R362). -/
def closedDone (s : State) (o : Op) (cluster d : Nat) : Option State :=
  if (residents s cluster).isEmpty then some (finishOp s o.id [0] d) else none

/-! ## PREEMPT (R362, R363) -/

/-- The team that a handle names; of a copied team the leading copy. -/
def teamByHandle (s : State) (h : Word) : Option Team :=
  (s.teams.find? (fun e => !e.2.command && e.2.copy != .trailing && e.2.handle == h)).map (·.2)

/-- An action on a team is still under way (R362: applied in the order of their issue). -/
def actionBusy (s : State) (team : Nat) : Bool :=
  s.ops.any (fun o => match o.2.body with
    | .evict k d _ => k == team && decide (d < 512)
    | .suspend k _ => k == team
    | _ => false)

/-- What an action on a team does: a code at once, an operation that ends later, or a wait. -/
inductive Action where
  | code (n : Nat) (s : State)
  | op (body : OpBody) (s : State)
  | wait (s : State)

/-- A privileged word on a team: its action once no earlier one is under way. -/
def teamWord (d a regs : Nat) (bad : Bool) (act : Group → Team → State → Action) (s : State) : Host.Outcome State Fault Refusal :=
  issue { priv := true, sr := [(a, regs)], sw := [(d, 1)], bad := bad, long := some true } (fun c g run s =>
    match teamByHandle s (g.rf.S a) with
    | none => .ok (s.longOp c run true (.ret d [1])).2
    | some t =>
      if actionBusy s t.id then .stay s else
      match act g t s with
      | .code n s => .ok (s.longOp c run true (.ret d [n])).2
      | .op body s => .ok (s.longOp c run true body).2
      | .wait s => .stay s) s

/-- Both copies stop. -/
def pauseTeam (s : State) (team : Nat) : State :=
  (s.pairOf team).foldl (fun (s : State) i => s.onTeam i (fun t => t.pause s.clock)) s

/-- Both copies go on. -/
def resumeTeam (s : State) (team : Nat) : State :=
  (s.pairOf team).foldl (fun (s : State) i => s.onTeam i (fun t => t.unpause s.clock)) s

/-- A termination has begun. -/
def terminating (s : State) (team : Nat) : Bool :=
  s.ops.any (fun o => match o.2.body with | .evict k d true => k == team && decide (512 ≤ d) | _ => false)

/-- PREEMPT SUSPEND (R362). -/
def execPreemptSuspend (d a : BitVec 8) (s : State) : Host.Outcome State Fault Refusal :=
  teamWord d.toNat a.toNat 1 false (fun _ t s =>
    if t.phase ≠ .resident ∨ terminating s t.id then .code 2 s
    else if t.suspended then .code 0 s
    else .op (.suspend t.id d.toNat) (pauseTeam s t.id)) s

/-- PREEMPT RESUME (R362). -/
def execPreemptResume (d a : BitVec 8) (s : State) : Host.Outcome State Fault Refusal :=
  teamWord d.toNat a.toNat 1 false (fun _ t s =>
    if t.phase ≠ .resident ∨ terminating s t.id then .code 2 s else .code 0 (resumeTeam s t.id)) s

/-- PREEMPT EVICT (R362, R364). -/
def execPreemptEvict (d a : BitVec 8) (s : State) : Host.Outcome State Fault Refusal :=
  teamWord d.toNat a.toNat 1 false (fun _ t s =>
    if t.phase ≠ .resident ∨ terminating s t.id then .code 2 s
    else .op (.evict t.id d.toNat false) (pauseTeam s t.id)) s

/-- PREEMPT TERMINATE (R362, R424): of a team not yet placed too. -/
def execPreemptTerminate (d a : BitVec 8) (s : State) : Host.Outcome State Fault Refusal :=
  teamWord d.toNat a.toNat 1 false (fun _ t s => .op (.evict t.id d.toNat true) (terminateTeam s t.id)) s

/-- PREEMPT SYSRESUME (R362): gangs parked at a SYSCALL go on behind it. -/
def execPreemptSysresume (d a : BitVec 8) (s : State) : Host.Outcome State Fault Refusal :=
  teamWord d.toNat a.toNat 2 false (fun g t s =>
    let k := (g.rf.S (a.toNat + 1)).toNat
    if t.phase ≠ .resident then .code 2 s else
    if (t.group? k).isNone then .code 1 s else
    .code 0 ((s.pairOf t.id).foldl (fun (s : State) i => match s.group? i k with
      | some x => x.gangs.foldl (fun (s : State) y => if y.wait = .syscall then s.finishWord i k y.id else s) s
      | none => s) s)) s

/-- A privileged word on a cluster. -/
def clusterWord (d a : Nat) (act : Nat → Cluster → State → Action) (s : State) : Host.Outcome State Fault Refusal :=
  issue { priv := true, sr := [(a, 1)], sw := [(d, 1)], long := some true } (fun c g run s =>
    let k := (g.rf.S a).toNat
    if 224 ≤ k then .ok (s.longOp c run true (.ret d [1])).2 else
    match act k (s.cluster k) s with
    | .code n s => .ok (s.longOp c run true (.ret d [n])).2
    | .op body s => .ok (s.longOp c run true body).2
    | .wait s => .stay s) s

/-- A cluster stops taking teams. A team that waits for it as the place of its rings counts its wait from here (R363). -/
def shutDoor (s : State) (k : Nat) (d : Door) : State :=
  let cl := s.cluster k
  let s := if cl.door ≠ .opened then s else
    { s with teams := s.teams.map (fun (e : Nat × Team) =>
      if e.2.phase = .evicted ∧ (ringClusters s e.1).contains k then (e.1, { e.2 with waitSince := s.clock }) else e) }
  s.putCluster k { cl with door := d }

/-- PREEMPT CLDRAIN (R362): a cluster that is closed or offline stays so. -/
def execPreemptCldrain (d a : BitVec 8) (s : State) : Host.Outcome State Fault Refusal :=
  clusterWord d.toNat a.toNat (fun k cl s =>
    if cl.door = .closed ∨ cl.door = .offline then .code 2 s
    else .code 0 (reopen (shutDoor s k .draining) k)) s

/-- PREEMPT CLOPEN (R362). -/
def execPreemptClopen (d a : BitVec 8) (s : State) : Host.Outcome State Fault Refusal :=
  clusterWord d.toNat a.toNat (fun k cl s => .code 0 (s.putCluster k { cl with door := .opened })) s

/-- PREEMPT CLOFF (R362): complete when the cluster is empty. -/
def execPreemptCloff (d a : BitVec 8) (s : State) : Host.Outcome State Fault Refusal :=
  clusterWord d.toNat a.toNat (fun k cl s =>
    .op (.closed k d.toNat) (shutDoor s k (if cl.door = .offline then .offline else .closed))) s

/-! ## CTXSAVE, CTXLOAD (R365) -/

/-- CTXSAVE (R365). -/
def execCtxsave (d a : BitVec 8) (s : State) : Host.Outcome State Fault Refusal :=
  teamWord d.toNat a.toNat 1 false (fun _ t s =>
    if t.phase ≠ .resident ∨ !t.suspended ∨ terminating s t.id then .code 2 s
    else
      let (awake, s) := (s.pairOf t.id).foldl (fun (r : Bool × State) i => match r.2.teams.find i with
        | some x => let y := wakeSaved r.2 x; (r.1 && y.1, y.2)
        | none => r) (true, s)
      if !awake then .wait s else
      .code 0 ((s.pairOf t.id).foldl (fun (s : State) i => match s.teams.find i with
        | some x => writeSave s x
        | none => s) s)) s

/-- CTXLOAD (R365): an evicted team goes to the named place at once, when it fits there. -/
def execCtxload (d a : BitVec 8) (s : State) : Host.Outcome State Fault Refusal :=
  teamWord d.toNat a.toNat 2 (odd a) (fun g t s =>
    let w := (g.rf.S (a.toNat + 1)).toNat
    let cl := w % 256
    let k := natBits w 8 3
    if t.phase ≠ .evicted ∨ terminating s t.id then .code 2 s
    else if !natBit w 11 ∨ 2 ^ 12 ≤ w ∨ 224 ≤ cl then .code 3 s
    else
      let sites : List Site :=
        if t.paired then ((List.range 8).filter (· != k)).map (fun m => ⟨cl, [8 * cl + k], [8 * cl + m]⟩)
        else ⟨cl, [8 * cl + k], []⟩ :: (if k % 2 = 0 then [⟨cl, [8 * cl + k, 8 * cl + k + 1], []⟩] else [])
      match sites.findSome? (placeLoaded s t) with
      | some s => .code 0 s
      | none => .code 3 s) s

end Sys2Proof.Machine
end

