-- ==== Sys2Proof/Machine/Launch.lean ====
section
/-! DEFINITION. Queues, command records and launches (R347 to R352), and the words QKICK, LAUNCH, QWAIT, the stage rings and
ROLEQ (R357 to R359). -/

namespace Sys2Proof.Machine

/-! ## QKICK, LAUNCH, QWAIT (R359) -/

/-- A queue of the issuing context. -/
def ownQueue (s : State) (t : Team) (q : Nat) : Option Queue :=
  match s.queues.find q with
  | some e => if e.v ∧ e.ctx = t.ctx then some e else none
  | none => none

/-- A DEV queue of the issuing context. -/
def devQueue (s : State) (t : Team) (q : Nat) : Bool :=
  match ownQueue s t q with
  | some e => e.dev
  | none => false

/-- QKICK (R359). -/
def execQkick (a : BitVec 8) (s : State) : Host.Outcome State Fault Refusal :=
  issue { sr := [(a.toNat, 2)], bad := odd a, long := some false, pair := true } (fun c g run s =>
    let q := (g.rf.S a.toNat).toNat
    let v := (g.rf.S (a.toNat + 1)).toNat
    onceWord c g run { d := 512, words := [q, v], log := some logQkick } (fun t s =>
      if !devQueue s t q then .fault { code := 0x11, datum := 0x60, lanes := c.lanes } s
      else .go (.qkick q (BitVec.ofNat 64 v)) s) s)  s

/-- LAUNCH (R359). -/
def execLaunch (d a : BitVec 8) (s : State) : Host.Outcome State Fault Refusal :=
  issue { sr := [(a.toNat, 4)], sw := [(d.toNat, 1)], bad := a.toNat % 4 != 0, long := some true, pair := true } (fun c g run s =>
    let da := g.rf.S64 a.toNat
    let q := (g.rf.S (a.toNat + 2)).toNat
    let inc := (g.rf.S (a.toNat + 3)).toNat % 256
    onceWord c g run { fa := true, d := d.toNat, words := [da.toNat, q, inc], faddr := da, log := some logLaunch } (fun t s =>
      if da.toNat % 64 ≠ 0 then .fault { code := 0x08, lanes := c.lanes, faddr := da } s
      else if !devQueue s t q then .fault { code := 0x11, datum := 0x60, lanes := c.lanes } s
      else .go (.launch q d.toNat da inc) s) s) s

/-- QWAIT (R359). -/
def execQwait (a : BitVec 8) (s : State) : Host.Outcome State Fault Refusal :=
  issue { sr := [(a.toNat, 4)], bad := a.toNat % 4 != 0, long := some false, pair := true } (fun c g run s =>
    match s.teams.find c.team with
    | none => .ok s
    | some t =>
      let q := (g.rf.S a.toNat).toNat
      let target := (g.rf.S64 (a.toNat + 2)).toNat
      match ownQueue s t q with
      | none => .fault { code := 0x11, datum := 0x61, lanes := c.lanes } s
      | some e =>
        if target ≤ e.counter then .ok ((s.acquire c 4).longOp c run false .done).2
        else .stay (s.setWait c (.queue q target))) s

/-- The older accesses of an operation's group are released at pkg scope. -/
def releasedPkg (s : State) (o : Op) : Bool :=
  match s.teams.find o.team, s.group? o.team o.group with
  | some t, some g => releaseDone s t g 4 o.id
  | _, _ => true

/-- A QKICK reaches the hub (R348); none while it waits for its release or its match. -/
def qkickDone (s : State) (o : Op) (q : Nat) (v : DWord) : Option State :=
  if opHeld s o || !releasedPkg s o then none else
  let s := if (s.queue q).v then kick s q v else s
  some (finishOp (logDone s o logQkick 0 0) o.id [] 512)

/-- Address in queue memory of record k of a queue (R348). -/
def recordAt (e : Queue) (k : Nat) : Nat := e.base + 64 + 64 * (k % 2 ^ e.logsize)

/-- A LAUNCH puts its record at the queue's tail, or finds the ring full; none while it waits. -/
def launchDone (s : State) (o : Op) (q d : Nat) (addr : DWord) (inc : Nat) : Option State :=
  if opHeld s o || !releasedPkg s o then none else
  let e := s.queue q
  let full := !e.v || decide (2 ^ e.logsize ≤ (e.tail - e.head).toNat)
  let rec0 : List Byte := [1, 0, BitVec.ofNat 8 inc, 0] ++ bytesLE 4 0 ++ bytesLE 8 addr.toNat ++ List.replicate 48 0
  let s' := if full then s else
    ({ s with qmem := Memory.writeAll s.qmem (cellsAt (recordAt e e.tail.toNat) rec0) }).putQueue q { e with tail := e.tail + 1 }
  let r := if full then 0xFFFFFFFF else e.tail.toNat
  some (finishOp (logDone s' o logLaunch 0 r) o.id [r] d)

/-! ## Stage rings and ROLEQ (R357, R358) -/

/-- Stages of a ring; none for a ring that the launch does not have. -/
def Team.stages (t : Team) (r : Nat) : Option Nat := (t.phases[r]?).map (fun p => p.length)

/-- A word on a stage ring: OPERAND for a ring or stage that is not there. -/
def stageWord (u : Uses) (r k : Nat) (solo : Bool) (own : Cur → Team → Group → Run → Nat → State → Eff) (s : State) :
    Host.Outcome State Fault Refusal :=
  issue u (fun c g run s =>
    match s.teams.find c.team with
    | none => .ok s
    | some t =>
      match t.stages r with
      | none => .fault { code := 0x03, lanes := c.lanes } s
      | some n =>
        if n ≤ k ∨ (solo ∧ g.parted) then .fault { code := 0x03, lanes := c.lanes } s
        else own c t g run n s) s

/-- STAGEINIT (R358). -/
def execStageinit (r : BitVec 2) (a : BitVec 8) (s : State) : Host.Outcome State Fault Refusal :=
  stageWord { sr := [(a.toNat, 1)], long := some false } r.toNat 0 true (fun c t g run n s =>
    let w := (g.rf.S a.toNat).toNat
    if 2 ^ n ≤ w then .fault { code := 0x03, lanes := c.lanes } s
    else .ok ((s.onTeam t.id (fun t => { t with phases := setAt t.phases r.toNat ((List.range n).map (natBit w)) })).longOp c run
      false .done).2) s

/-- STAGEARV (R358). -/
def execStagearv (r : BitVec 2) (k : BitVec 3) (s : State) : Host.Outcome State Fault Refusal :=
  stageWord { long := some false } r.toNat k.toNat true (fun c _ _ run _ s =>
    .ok (s.longOp c run false (.stagearv r.toNat k.toNat)).2) s

/-- A STAGEARV takes effect after its release at team scope; none while it waits. -/
def stagearvDone (s : State) (o : Op) (r k : Nat) : Option State :=
  match s.teams.find o.team, s.group? o.team o.group with
  | some t, some g =>
    if !releaseDone s t g 1 o.id then none else
    some ((s.onTeam t.id (fun t =>
      let p := t.phases.getD r []
      { t with phases := setAt t.phases r (setAt p k (!(p.getD k false))) })).completeOp o.id)
  | _, _ => some (s.completeOp o.id)

/-- STAGEWT (R358). -/
def execStagewt (r : BitVec 2) (h : BitVec 1) (k : BitVec 3) (s : State) : Host.Outcome State Fault Refusal :=
  stageWord { long := some false } r.toNat k.toNat false (fun c t _ run _ s =>
    if (t.phases.getD r.toNat []).getD k.toNat false = (h == 1) then .ok ((s.acquire c 1).longOp c run false .done).2
    else .stay (s.setWait c (.stage r.toNat k.toNat (h == 1)))) s

/-- ROLEQ (R358): role 3 is reserved. -/
def execRoleq (d : BitVec 8) (r : BitVec 2) (s : State) : Host.Outcome State Fault Refusal :=
  issue { sw := [(d.toNat, 1)], bad := r == 3, long := some true } (fun c _ run s =>
    match s.teams.find c.team with
    | none => .ok s
    | some t =>
      let role : Role := if r = 0 then .vector else if r = 1 then .copy else .matrix
      let mine := (List.range t.ngroups).filter (fun g => t.desc.role g == role)
      let w := match mine with | g :: _ => mine.length * 65536 + g | [] => 0
      .ok (s.longOp c run true (.ret d.toNat [w])).2) s

/-! ## Command records (R349 to R351) -/

/-- A command record as it is read. -/
structure CmdRecord where
  kind : Nat
  flags : Nat
  inc : Nat
  wqueue : Nat
  arg0 : Nat
  arg1 : Nat
  arg2 : Nat
  status : Nat
  bad : Option Nat
  deriving DecidableEq, Repr

/-- The lowest offset of a malformed field of a record (R349, R351, R352). -/
def recordBad (bs : List Byte) : Option Nat :=
  let k := field bs 0 1
  if 3 < k then some 0
  else if 4 ≤ field bs 1 1 then some 1
  else if field bs 3 1 ≠ 0 then some 3
  else if k ≠ 2 ∧ field bs 4 2 ≠ 0 then some 4
  else if field bs 6 2 ≠ 0 then some 6
  else if k = 1 ∧ field bs 8 8 % 64 ≠ 0 then some 8
  else if k ≠ 3 ∧ field bs 0x10 8 ≠ 0 then some 0x10
  else if k ≠ 3 ∧ field bs 0x18 8 ≠ 0 then some 0x18
  else if field bs 0x28 24 ≠ 0 then some 0x28 else none

/-- The record at a queue's HEAD. -/
def headRecord (s : State) (e : Queue) : CmdRecord :=
  let bs := Memory.readN s.qmem 64 (recordAt e e.head.toNat)
  { kind := field bs 0 1, flags := field bs 1 1, inc := field bs 2 1, wqueue := field bs 4 2, arg0 := field bs 8 8,
    arg1 := field bs 0x10 8, arg2 := field bs 0x18 8, status := field bs 0x20 8, bad := recordBad bs }

/-- Records of a queue as it stands that have started and not completed. -/
def Queue.open (e : Queue) : List Started := e.started.filter (fun r => decide (r.index < 2 ^ 32))

/-- The record at HEAD may start (R350). -/
def canStart (e : Queue) (r : CmdRecord) : Bool :=
  e.v && !e.stopped && e.head != e.tail && !e.open.any (fun x => x.kind == 2) && (!natBit r.flags 0 || e.open.isEmpty)

/-- The status word of a record (R351). -/
def statusWord (count grid detail code : Nat) : Nat := count * 2 ^ 32 + grid * 2 ^ 16 + detail * 2 ^ 8 + code

/-- A record starts: HEAD advances, and the outcome is kept when it is already known. -/
def startRecord (s : State) (q : Nat) (r : CmdRecord) (target grid : Nat) (result : Option Nat) : State :=
  let e := s.queue q
  s.putQueue q { e with head := e.head + 1, started := e.started ++
    [{ index := e.head.toNat, kind := r.kind, flags := r.flags, inc := r.inc, status := r.status, wqueue := r.wqueue,
       target := target, grid := grid, result := result }] }

/-- The status address translates for a store of the queue's context. -/
def statusOk (s : State) (ctx : Nat) (r : CmdRecord) : Bool :=
  r.status == 0 || (match walk s ctx (BitVec.ofNat 64 r.status) .store with | .ok _ => true | _ => false)

/-- The turn of a queue's next record, when it is one of the listed kinds: a malformed record or one whose status address
fails is refused, any other goes on. -/
def recordTurn (mine : Nat → Bool) (go : State → Nat → Queue → CmdRecord → State) (s : State) :
    Host.Outcome State Fault Refusal :=
  onEvent (fun x s =>
    match s.queues.find x.a with
    | none => s
    | some e =>
      let r := headRecord s e
      if !mine r.kind || !canStart e r then s else
      match r.bad with
      | some o => startRecord s x.a r 0 0 (some (statusWord 0 0 o 1))
      | none =>
        if !statusOk s e.ctx r then startRecord s x.a { r with status := 0 } 0 0 (some (statusWord 0 0 0 6))
        else go s x.a e r) s

/-- NOP_RECORD (R350); a record of unknown KIND is malformed. -/
def execNopRecord (s : State) : Host.Outcome State Fault Refusal :=
  recordTurn (fun k => k == 0 || decide (3 < k)) (fun s q _ r => startRecord s q r 0 0 (some 0)) s

/-- WAIT_RECORD (R350). -/
def execWaitRecord (s : State) : Host.Outcome State Fault Refusal :=
  recordTurn (fun k => k == 2) (fun s q e r =>
    let w := s.queue r.wqueue
    if !w.v ∨ w.ctx ≠ e.ctx then startRecord s q r 0 0 (some (statusWord 0 0 0 8))
    else startRecord s q r r.arg0 0 none) s

/-! ## The launch descriptor (R352) -/

/-- Offset of the first byte of a list, from an offset on, that is not zero. -/
def firstByte (bs : List Byte) (lo n : Nat) : Option Nat := (List.range n).findSome? (fun i => if bs.getD (lo + i) 0 ≠ 0 then some (lo + i) else none)

/-- The descriptor of 256 bytes. -/
def Desc.fromBytes (bs : List Byte) : Desc :=
  let st := field bs 0x28 2
  let rings := natBits st 12 3
  { entry := BitVec.ofNat 64 (field bs 0 8), param := BitVec.ofNat 64 (field bs 8 8), gx := field bs 0x10 4, gy := field bs 0x14 4,
    gz := field bs 0x18 4, width := field bs 0x1C 1, vregs := field bs 0x1D 1, threads := field bs 0x1E 2,
    sregs := field bs 0x20 2, slots := field bs 0x22 1, fused := natBit (field bs 0x23 1) 0,
    protect := natBits (field bs 0x23 1) 1 2, copyFirst := field bs 0x25 1, copyCount := field bs 0x24 1,
    matFirst := field bs 0x27 1, matCount := field bs 0x26 1,
    stages := (List.range rings).map (fun r => natBits st (3 * r) 3 + 1), rcsize := field bs 0x2A 2, slack := field bs 0x2C 1,
    rcbase := field bs 0x30 8, savebase := field bs 0x38 8, savesize := field bs 0x40 4, diemask := field bs 0x44 1 }

/-- The fields WIDTH to RCSIZE that break a limit, in offset order: code and detail (R352; a .tvf kernel entry stores the
same fields, R111). -/
def kernelBad (d : Desc) (bs : List Byte) : Option (Nat × Nat) :=
  let groups := d.threads / max 1 d.width
  let st := field bs 0x28 2
  let m := field bs 0x23 1
  let overlap := d.copyCount ≠ 0 ∧ d.matCount ≠ 0 ∧ d.copyFirst < d.matFirst + d.matCount ∧ d.matFirst < d.copyFirst + d.copyCount
  if !([16, 32, 64].contains d.width) then some (2, 0x1C)
  else if d.vregs % 8 ≠ 0 ∨ d.vregs = 0 ∨ 128 < d.vregs then some (2, 0x1D)
  else if d.threads < d.width ∨ 2048 < d.threads then some (2, 0x1E)
  else if d.threads % d.width ≠ 0 then some (3, 0)
  else if d.sregs % 32 ≠ 0 ∨ d.sregs = 0 ∨ 512 < d.sregs then some (2, 0x20)
  else if 16 < d.slots then some (2, 0x22)
  else if 8 ≤ m ∨ d.protect = 3 then some (2, 0x23)
  else if d.copyCount ≠ 0 ∧ groups < d.copyFirst + d.copyCount then some (2, 0x24)
  else if (d.matCount ≠ 0 ∧ groups < d.matFirst + d.matCount) ∨ overlap then some (2, 0x26)
  else if natBit st 15 ∨ 4 < natBits st 12 3 ∨ st % 2 ^ 12 ≠ st % 2 ^ (3 * natBits st 12 3) then some (2, 0x28)
  else if 256 < d.rcsize then some (2, 0x2A) else none

/-- The first check of a descriptor that fails: code and detail (R351, R352, R360, R432). -/
def descFault (bs : List Byte) : Option (Nat × Nat) :=
  let d := Desc.fromBytes bs
  if d.entry.toNat % 4 ≠ 0 ∨ !canonical d.entry then some (2, 0)
  else if d.gx = 0 ∨ 2 ^ 20 < d.gx * d.gy * d.gz then some (2, 0x10)
  else if d.gy = 0 then some (2, 0x14)
  else if d.gz = 0 then some (2, 0x18)
  else match kernelBad d bs with
  | some f => some f
  | none =>
    if 64 < d.slack then some (2, 0x2C)
    else match firstByte bs 0x2D 3 with
    | some o => some (2, o)
    | none =>
      if d.rcbase % 4096 ≠ 0 then some (2, 0x30)
      else if d.savebase % 4096 ≠ 0 then some (2, 0x38)
      else if d.savesize < d.saveUnits * (if d.protect = 2 then 2 else 1) then some (5, 0)
      else (firstByte bs 0x45 187).map (fun o => (2, o))

/-! ## Grids and their teams (R350, R352) -/

/-- One copy of a team that waits for its first place. -/
def newTeam (d : Desc) (id grid number ctx queue clock : Nat) (copy : CopyRole) (twin : Option Nat) : Team :=
  { id := id, handle := BitVec.ofNat 32 (grid * 2 ^ 20 + number), ctx := ctx, grid := grid, number := number, queue := queue,
    desc := d, command := false, phase := .waiting, begun := false, order := 0, core := 0, pair := false, suspended := false,
    suspendedAt := 0, evictReq := false, waitSince := clock, placedAt := 0, placeSeq := 0, resident := 0, groups := [], trapvec := 0, barps := [],
    phases := d.stages.map (fun n => List.replicate n false), slots := List.replicate 16 .detached,
    tokens := [none, none, none, none], tokpend := [none, none, none, none], levels := [], forming := none, fail := none,
    failSince := 0, rbcause := 0, committed := 0, rolled := 0, cmp := Compare.reset, copy := copy, twin := twin,
    started := copy != .trailing, startAt := 0, saved := none, half1 := [], oldRegs := [], promised := [], regionHit := false }

/-- The records of one team: two under core-pair protection (R427). -/
def gridTeams (d : Desc) (id grid number ctx queue clock : Nat) : List (Nat × Team) :=
  if d.protect = 2 then
    [(2 * id, newTeam d (2 * id) grid number ctx queue clock .leading (some (2 * id + 1))),
     (2 * id + 1, newTeam d (2 * id + 1) grid number ctx queue clock .trailing (some (2 * id)))]
  else [(2 * id, newTeam d (2 * id) grid number ctx queue clock .only none)]

/-- The grid's teams join placement. Team numbers rise, so the map keeps its order. -/
def startGrid (s : State) (d : Desc) (h ctx q index : Nat) : State :=
  let total := d.gx * d.gy * d.gz
  let new := (List.range total).flatMap (fun n => gridTeams d (s.teamCtr + 1 + n) h n ctx q s.clock)
  { s with teams := s.teams ++ new, teamCtr := s.teamCtr + total,
           grids := s.grids.put h { handle := h, queue := q, index := index, total := total, ended := 0, terminated := 0 } }

/-- LAUNCH_RECORD (R350, R352): the descriptor is read and checked, and its grid starts; without a free grid handle, or
while the descriptor cannot be read yet, the record does not start. -/
def execLaunchRecord (s : State) : Host.Outcome State Fault Refusal :=
  recordTurn (fun k => k == 1) (fun s q e r =>
    match (globalReadN 8 s e.ctx (BitVec.ofNat 64 r.arg0) 256).1 with
    | .wait s => s
    | .stall _ => s
    | .page _ => startRecord s q r 0 0 (some (statusWord 0 0 0 6))
    | .bad _ _ => startRecord s q r 0 0 (some (statusWord 0 0 0 6))
    | .ok bs s =>
      match descFault bs with
      | some (code, detail) => startRecord s q r 0 0 (some (statusWord 0 0 detail code))
      | none =>
        let d := Desc.fromBytes bs
        let probe := newTeam d 0 0 0 e.ctx q 0 (if d.protect = 2 then .leading else .only) none
        if !fitsEmpty probe (probe.candidates s false) then startRecord s q r 0 0 (some (statusWord 0 0 0 4))
        else match (List.range 4096).find? (fun h => (s.grids.find h).isNone) with
        | none => s
        | some h => startGrid (startRecord s q r 0 h none) d h e.ctx q e.head.toNat) s

/-- The outcome of a started record, once there is one, and the state without its grid (R350). -/
def recordResult (s : State) (r : Started) : Option (Nat × State) :=
  match r.result with
  | some w => some (w, s)
  | none =>
    if r.kind = 2 then
      let w := s.queue r.wqueue
      if !w.v then some (8, s) else if r.target ≤ w.counter then some (0, s) else none
    else match s.grids.find r.grid with
    | none => some (0, s)
    | some g =>
      if g.ended + g.terminated < g.total then none
      else some (statusWord g.terminated r.grid 0 (if g.terminated = 0 then 0 else 7), { s with grids := s.grids.del r.grid })

/-- The status word is written for the queue's context; none while the access has to wait. An access that is refused is
dropped (R345). -/
def writeStatus (s : State) (ctx addr w : Nat) : Option State :=
  if addr = 0 then some s else
  match (globalWriteN 2 s ctx (BitVec.ofNat 64 addr) (bytesLE 8 w)).1 with
  | .ok _ s => some s
  | .wait _ => none
  | .stall _ => none
  | _ => some s

/-- COMMAND_RECORD_COMPLETE (R350, R351): the subject is a queue and the index of a started record. The status word is
written, INC is added to COUNTER, and the queue stops when the record says so or was malformed. -/
def execCommandRecordComplete (s : State) : Host.Outcome State Fault Refusal :=
  onEvent (fun x s =>
    let e := s.queue x.a
    match e.started.find? (fun r => r.index == x.b) with
    | none => s
    | some r =>
      match recordResult s r with
      | none => s
      | some (w, s') =>
        match writeStatus s' e.ctx r.status w with
        | none => s
        | some s =>
          let code := w % 256
          let stop := e.v && decide (r.index < 2 ^ 32) && (code == 1 || (natBit r.flags 1 && code != 0))
          let e := s.queue x.a
          s.putQueue x.a { e with started := e.started.filter (fun k => k.index != x.b), counter := (e.counter + r.inc) % 2 ^ 64,
                                  stopped := e.stopped || stop,
                                  errcode := if stop then BitVec.ofNat 32 (code + 256 * (r.index % 2 ^ 24)) else e.errcode }) s

end Sys2Proof.Machine
end

