-- ==== Sys2Proof/Machine/Finaliser.lean ====
section
/-! DEFINITION. The Marigold finaliser (R110 to R118): the .tvf image, the runs it forms, the native image, and the LOAD
record that asks for it. -/

namespace Sys2Proof.Machine

/-! ## Registers that a word names (R79, R81, R114) -/

/-- A span of v registers or of uniform registers. -/
structure Span where
  scalar : Bool
  first : Nat
  count : Nat
  deriving DecidableEq, Repr

def Span.has (x : Span) (r : Nat) : Bool := decide (x.first ≤ r) && decide (r < x.first + x.count)

def Span.meets (x y : Span) : Bool :=
  x.scalar == y.scalar && decide (x.first < y.first + y.count) && decide (y.first < x.first + x.count)

/-- The spans of count registers from an operand code on; v[x] reaches the windows that the image sets (R216). -/
def codeSpans (wins : List Span) (c n : Nat) : List Span :=
  if c < 0x80 then [⟨false, c, n⟩] else if c < 0x88 then [] else if c ≤ 0x8B then wins
  else if 0xC0 ≤ c then [⟨true, c - 0xC0, n⟩] else []

/-- The temporaries of count registers from an operand code on. -/
def codeTemps (c n : Nat) : List Nat := (List.range 8).filter (fun t => decide (c ≤ 0x80 + t) && decide (0x80 + t < c + n) && decide (0x80 ≤ c))

def usesVec3 (d a b : BitVec 8) : Uses := { vr := [a.toNat, b.toNat], vw := [d.toNat] }
def usesVec2 (d a : BitVec 8) : Uses := { vr := [a.toNat], vw := [d.toNat] }
def usesS3 (d a b : BitVec 8) : Uses := { sr := [(a.toNat, 1), (b.toNat, 1)], sw := [(d.toNat, 1)] }
def usesRed (d a : BitVec 8) (u : BitVec 1) : Uses :=
  if u = 1 then { vr := [a.toNat], sw := [(d.toNat, 16)] } else usesVec2 d a

/-- The registers that an instruction word names, and the flag it attaches to (R86): vrs and vws give an operand code and
how many registers from it; n is how many registers a memory word moves (R222). SHRINK may release any register from v8 on
(R183). -/
def wordUses (n : Nat) : Instr → Uses
  | .sadd d a b | .ssub d a b | .smul d a b | .smulh d a b | .sand d a b | .sor d a b | .sxor d a b | .sandn d a b
  | .sshl d a b | .sshr d a b | .ssar d a b | .srot d a b | .smin d a b | .smax d a b | .sminu d a b | .smaxu d a b
  | .sseq d a b | .ssne d a b | .sslt d a b | .ssltu d a b | .ssle d a b | .ssleu d a b => usesS3 d a b
  | .ssel d a b => { sr := [(a.toNat, 1), (b.toNat, 1), (d.toNat, 1)], sw := [(d.toNat, 1)] }
  | .smov d a _ | .spopc d a | .sclz d a | .sbrev d a | .sbfe d a _ => { sr := [(a.toNat, 1)], sw := [(d.toNat, 1)] }
  | .sli d _ | .sliu d _ => { sw := [(d.toNat, 1)] }
  | .slih d _ | .saddi d _ => { sr := [(d.toNat, 1)], sw := [(d.toNat, 1)] }
  | .sbfi d a => { sr := [(a.toNat, 1), (d.toNat, 1)], sw := [(d.toNat, 1)] }
  | .smovh h a => { sr := [(a.toNat, 1)], sw := [(256 + h.toNat, 1)] }
  | .smovl d h => { sr := [(256 + h.toNat, 1)], sw := [(d.toNat, 1)] }
  | .sadd64 d a | .ssub64 d a => { sr := [(a.toNat, 2), (d.toNat, 2)], sw := [(d.toNat, 2)] }
  | .sshl64 d a | .sshr64 d a _ => { sr := [(a.toNat, 1), (d.toNat, 2)], sw := [(d.toNat, 2)] }
  | .smulw d a _ => { sr := [(a.toNat, 1), (d.toNat, 1)], sw := [(d.toNat, 2)] }
  | .rdsr d k => { sw := [(d.toNat, if k = 0x0C then 2 else 1)] }
  | .wrsr _ a => { sr := [(a.toNat, 1)] }
  | .brs c a _ => { sr := if c = 0 then [] else [(a.toNat, 1)] }
  | .loop a _ => { sr := [(a.toNat, 1)], sw := [(a.toNat, 1)] }
  | .brx a => { sr := [(a.toNat, 2)] }
  | .regang a m => { sr := if m = 1 then [(a.toNat, 1)] else [] }
  | .barp a _ | .sleep a | .grow a | .errinj a => { sr := [(a.toNat, 1)] }
  | .shrink a => { sr := [(a.toNat, 1)], vws := [(8, 120)] }
  | .waitev d a => { sr := [(a.toNat, 1)], sw := [(d.toNat, 1)] }
  | .sigev a b => { sr := [(a.toNat, 1), (b.toNat, 1)] }
  | .syscall a _ | .convjoin a => { sr := [(a.toNat, 2)] }
  | .elect d _ => { sw := [(d.toNat, 1)] }
  | .vadd d a b | .vsub d a b | .vmul d a b | .vmin d a b | .vmax d a b | .vmulh d a b | .vmad d a b | .vand d a b
  | .vor d a b | .vxor d a b | .vandn d a b | .vsel _ d a b | .vshl d a b | .vshr d a b | .vbfe d a b | .vsadd d a b
  | .vssub d a b => usesVec3 d a b
  | .vma d a b | .vbfi d a b | .vdot2 d a b | .vdot4 d a b => { vr := [a.toNat, b.toNat, d.toNat], vw := [d.toNat] }
  | .vcmp _ _ a b | .vcmpa _ _ a b | .vcmpo _ _ a b => { vr := [a.toNat, b.toNat] }
  | .vcvt _ _ _ d a | .vretag _ d a | .vmov d a | .vrcp d a | .vrsq d a | .vsqrt d a | .vexp2 d a | .vlog2 d a
  | .vsin d a | .vcos d a | .vtanh d a | .vfrac d a | .vround d a _ | .vclass d a | .vabs d a | .vneg d a | .vnot d a
  | .vclz d a | .vpopc d a | .vbrev d a | .vshfl d a | .vshflu d a | .vshfld d a | .vshflx d a | .vbcast d a
  | .vscanadd d a _ _ | .vscanmin d a _ _ | .vscanmax d a _ _ => usesVec2 d a
  | .vmovs d k => { sr := [(k.toNat, 1)], vw := [d.toNat] }
  | .vli d _ | .vlane d | .vtid d | .vslice d | .vactive d | .vballot d _ => { vw := [d.toNat] }
  | .vredadd d a _ u | .vredmin d a _ u | .vredmax d a _ u | .vredand d a _ u | .vredor d a _ u | .vredxor d a _ u =>
    usesRed d a u
  | .vzip k d a | .vunzip k d a => { vrs := [(a.toNat, k.toNat + 1)], vws := [(d.toNat, k.toNat + 1)] }
  | .xset _ a => { vr := [a.toNat] }
  | .vrand d a k | .vrandu d a k => { vr := [a.toNat], vw := [d.toNat], sr := [(2 * k.toNat, 2)] }
  | .ld _ _ d a p | .lds _ _ d a p => { vr := [a.toNat], vws := [(d.toNat, n)], sr := [(2 * p.toNat, 2)], long := some true }
  | .st _ _ d a p | .sts _ _ d a p =>
    { vr := [a.toNat], vrs := [(d.toNat, n)], sr := [(2 * p.toNat, 2)], long := some false }
  | .ldu d p | .ldsu d p => { sr := [(2 * p.toNat, 2)], sw := [(d.toNat, n)], long := some true }
  | .stu d p | .stsu d p => { sr := [(2 * p.toNat, 2), (d.toNat, n)], long := some false }
  | .pref _ a p => { vr := [a.toNat], sr := [(2 * p.toNat, 2)] }
  | .probe d a p => { vr := [a.toNat], vw := [d.toNat], sr := [(2 * p.toNat, 2)], long := some true }
  | .invpg a b | .seal a b | .unseal a b | .discard a b | .flush a b =>
    { sr := [(a.toNat, 2), (b.toNat, 1)], long := some false }
  | .atom _ w d a p =>
    { vr := [a.toNat], vrs := [(d.toNat, if w = 3 then 2 else 1)], vws := [(d.toNat, if w = 3 then 2 else 1)],
      sr := [(2 * p.toNat, 2)], long := some true }
  | .atomn _ w d a p =>
    { vr := [a.toNat], vrs := [(d.toNat, if w = 3 then 2 else 1)], sr := [(2 * p.toNat, 2)], long := some false }
  | .cmlr a k => { sr := [(a.toNat, 2 * (k.toNat + 1))], long := some false }
  | .cmls d a k => { sr := [(a.toNat, 2 * (k.toNat + 1) + 1)], sw := [(d.toNat, 1)], long := some true }
  | .wobseal d a | .launch d a => { sr := [(a.toNat, 4)], sw := [(d.toNat, 1)], long := some true }
  | .wobrel a | .wrevoke a | .stageinit _ a | .mcfg _ a | .lnkpark a _ | .lnkwake a _ | .lnkthr a _ =>
    { sr := [(a.toNat, 1)], long := some false }
  | .vcquery d a => { sr := [(a.toNat, 1)], sw := [(d.toNat, 2)], long := some true }
  | .vcdef a | .vcresize a | .qkick a | .tokpass _ a | .slotld a _ => { sr := [(a.toNat, 2)], long := some false }
  | .vcresizeMove a | .qwait a => { sr := [(a.toNat, 4)], long := some false }
  | .btake d _ | .bquery d _ _ | .roleq d _ | .tchk _ d _ _ _ => { sw := [(d.toNat, 1)], long := some true }
  | .bfree _ | .bgive _ _ _ | .bdrain _ _ | .cseal _ | .stagearv _ _ | .stagewt _ _ _ | .mzero _ | .tokwait _ | .slotsw _
  | .lnkretrain _ | .fence | .invl1 => { long := some false }
  | .bopen d _ _ => { sr := [(d.toNat, 1)], sw := [(d.toNat, 1)], long := some true }
  | .swinit x a | .send x a => { sr := [(x.toNat, 1), (a.toNat, 2)], long := some false }
  | .swadd x a | .ringack x a => { sr := [(x.toNat, 1), (a.toNat, 1)], long := some false }
  | .swwait d x | .ringwait d x => { sr := [(x.toNat, 1), (d.toNat, 1)], sw := [(d.toNat, 1)], long := some true }
  | .swread d x => { sr := [(x.toNat, 1)], sw := [(d.toNat, 4)], long := some true }
  | .ringdef d a => { sr := [(a.toNat, 3), (d.toNat, 1)], sw := [(d.toNat, 1)], long := some true }
  | .copy a | .copy2d a | .cgath a | .cscat a | .cfill a | .rput a | .rget a => { sr := [(a.toNat, 16)], long := some false }
  | .ratom d a => { sr := [(a.toNat, 16)], sw := [(d.toNat, 2)], long := some true }
  | .cwait d _ _ | .cstat d _ => { sw := [(d.toNat, 2)], long := some true }
  | .wexport d a => { sr := [(a.toNat, 8)], sw := [(d.toNat, 1)], long := some true }
  | .preemptSuspend d a | .preemptResume d a | .preemptEvict d a | .preemptTerminate d a | .preemptSysresume d a
  | .preemptCldrain d a | .preemptClopen d a | .preemptCloff d a | .ctxsave d a | .ctxload d a =>
    { sr := [(a.toNat, 2)], sw := [(d.toNat, 1)], long := some true }
  | .mmp _ a b _ | .mmpb _ a b _ | .mmpg _ a b _ => { sr := [(a.toNat, 8), (b.toNat, 8)], long := some false }
  | .tread _ d r _ => { sr := [(r.toNat, 1)], vw := [d.toNat], long := some true }
  | .twrite _ a r _ => { sr := [(r.toNat, 1)], vr := [a.toNat], long := some false }
  | .mdrain _ a _ => { sr := [(a.toNat, 8)], long := some false }
  | .ensure l _ => { sr := [(l.toNat, 1)] }
  | .rbstat d | .cmpstat d | .lnkstat d _ => { sw := [(d.toNat, 4)], long := some true }
  | .cmppoint a s k =>
    if s = 1 then { sr := [(a.toNat, k.toNat + 1)], long := some false }
    else { vrs := [(a.toNat, k.toNat + 1)], long := some false }
  | _ => {}

/-- What a word with its hints reads and writes. -/
structure WordUse where
  all : List Span
  dest : List Span
  tempsRead : List Nat
  tempsWritten : List Nat
  long : Option Bool
  deriving DecidableEq, Repr

/-- The instruction of a word of the code section, if it is one. -/
def instrOf (w : Nat) : Option Instr :=
  match decodeWord w with
  | .ok i => some i
  | .error _ => none

def majorOf (w : Nat) : Nat := natBits w 26 6

/-- The HOPND code that hint words give. -/
def hintHop (ws : List Nat) : Option Nat := (ws.find? (fun w => majorOf w == 4)).map (fun w => natBits w 16 8)
/-- The register count that an MPFX among hint words gives. -/
def hintRegs (ws : List Nat) : Option Nat := (ws.find? (fun w => majorOf w == 5)).map (fun w => rcntRegs (natBits w 9 2))

/-- Registers that a HOPND names at the word it attaches to: two for the compare value of a 64-bit atomic (R298). -/
def hopRegs : Option Instr → Nat
  | some (.atom _ w _ _ _) => if w = 3 then 2 else 1
  | some (.atomn _ w _ _ _) => if w = 3 then 2 else 1
  | _ => 1

/-- The use of a word after its hints, when it is a memory word of n registers. -/
def wordUse (wins : List Span) (ws : List Nat) (n : Nat) : WordUse :=
  let i := (ws.getLast?).bind instrOf
  let u : Uses := match i with | some i => wordUses n i | none => {}
  let hop : List (Nat × Nat) := match hintHop ws with | some h => [(h, hopRegs i)] | none => []
  let reads := u.vr.map (fun (c : Nat) => (c, 1)) ++ u.vrs ++ hop
  let writes := u.vw.map (fun (c : Nat) => (c, 1)) ++ u.vws
  let span (x : Nat × Nat) : List Span := codeSpans wins x.1 x.2
  let s (x : Nat × Nat) : Span := ⟨true, x.1, x.2⟩
  { all := (reads ++ writes).flatMap span ++ (u.sr ++ u.sw).map s,
    dest := if u.long = some true then writes.flatMap span ++ u.sw.map s else [],
    tempsRead := reads.flatMap (fun x => codeTemps x.1 x.2), tempsWritten := writes.flatMap (fun x => codeTemps x.1 x.2),
    long := u.long }

/-- The use of a word after its hints. How many registers a memory word without an MPFX moves depends on MDEF when it issues,
which the finaliser cannot know: it takes the most, four, for the registers that the word touches, and the one that it surely
reads for the temporaries (the model's choice, log entry 19). -/
def chunkUse (wins : List Span) (ws : List Nat) : WordUse :=
  { wordUse wins ws ((hintRegs ws).getD 4) with tempsRead := (wordUse wins ws ((hintRegs ws).getD 1)).tempsRead }

/-! ## Forming runs (R114) -/

/-- The BOUND marker (R113). -/
def boundWord : Nat := 0x04000000

/-- A branch target of a word at an index: index of the word it names, and whether a run begins there. -/
def targetAt (i : Nat) (o : Int) : Option Nat := if (i : Int) + o < 0 then none else some ((i : Int) + o).toNat

/-- The hint words before an index, in code order (R99). -/
def hintsBefore (ws : List Nat) (i : Nat) : List (Nat × Instr) :=
  (((List.range i).reverse.takeWhile (fun k => [3, 4, 5, 6].contains (majorOf (ws.getD k 0)))).reverse).filterMap (fun k =>
    (instrOf (ws.getD k 0)).map (fun x => (k, x)))

/-- The HIMM.hi and the HIMM.mlo that form the immediate of the word at an index, each as index and value (R100, R401). -/
def pairImm (ws : List Nat) (i : Nat) : Option ((Nat × Nat) × (Nat × Nat)) :=
  (hintsBefore ws i).foldl (fun (acc : Option ((Nat × Nat) × (Nat × Nat)) × Option (Nat × Nat)) x =>
    match x.2 with
    | .himm p v =>
      if p = 2 then (none, some (x.1, v.toNat))
      else if p = 3 then (acc.2.map (fun h => (h, (x.1, v.toNat))), acc.2)
      else (none, none)
    | _ => acc) (none, none) |>.1

/-- The word that the hint at an index attaches to. -/
def attachedAt (ws : List Nat) (i : Nat) : Nat :=
  i + 1 + ((ws.drop (i + 1)).takeWhile (fun w => [3, 4, 5, 6].contains (majorOf w))).length

/-- Indexes at which the word at an index makes a run begin; none for one before the section. -/
def runTargets (ws : List Nat) (i w : Nat) : List (Option Nat) :=
  match instrOf w with
  | some (.brs _ _ o) => [targetAt i o.toInt, some (i + 1)]
  | some (.dbr _ _ t j) => [targetAt i t.toInt, some (i + j.toNat), some (i + 1)]
  | some (.call o) => [targetAt i o.toInt, some (i + 1)]
  | some (.loop _ o) => [targetAt i o.toInt, some (i + 1)]
  | some (.ensure _ e) => [some (i + e.toNat), some (i + 1)] ++
    (match pairImm ws i with | some p => [targetAt i (BitVec.ofNat 16 p.2.2).toInt] | none => [])
  | some .ret | some (.brx _) | some .exit | some (.elseby _) | some .elseerr | some (.verdict _) => [some (i + 1)]
  | _ => []

/-- Indexes at which a run waits on every flag (rule 5): CALL targets and return points. -/
def callPoints (i w : Nat) : List Nat :=
  match instrOf w with
  | some (.call o) => (targetAt i o.toInt).toList ++ [i + 1]
  | _ => []

/-- Words that stay together (rule 3): a word and the hints before it, the index of the first, and whether a forced boundary
stands before it. -/
structure Chunk where
  idx : Nat
  words : List Nat
  forced : Bool
  deriving DecidableEq, Repr

/-- The chunks of the code section, or the refusal 0x21: a forbidden word (R113), or hints that no run can hold with the word they
attach to: parted from it by a boundary of rule 1, or more than 23 of them (the model's choice, log entry 19). -/
def chunks (bounds : List Nat) (ws : List Nat) : Except Nat (List Chunk) :=
  let last := ws.zipIdx.foldl (fun (acc : Except Nat (List Chunk × List Nat × Bool)) (x : Nat × Nat) =>
    match acc with
    | .error e => .error e
    | .ok (cs, pend, force) =>
      let here := bounds.contains x.2 || x.1 == boundWord
      if here && !pend.isEmpty then .error 0x21
      else if x.1 = boundWord then .ok (cs, [], true)
      else if majorOf x.1 = 1 ∨ majorOf x.1 = 2 then .error 0x21
      else if [3, 4, 5].contains (majorOf x.1) || (majorOf x.1 == 6 && !pend.isEmpty) then .ok (cs, pend ++ [x.1], force || here)
      else if 24 ≤ pend.length then .error 0x21
      else .ok (cs ++ [⟨x.2 - pend.length, pend ++ [x.1], force || here⟩], [], false)) (.ok ([], [], true))
  match last with
  | .error e => .error e
  | .ok (cs, pend, _) => if pend.isEmpty then .ok cs else .error 0x21

/-- A run as it is formed: its words with their indexes, what they use, and whether a forced boundary begins it. -/
structure RunPlan where
  first : Nat
  words : List (Nat × Nat)
  all : List Span
  dest : List Span
  temps : List Nat
  fa : Bool
  fb : Bool
  forced : Bool
  deriving DecidableEq, Repr

/-- Ascending registers as ENDRUN ranges: at most 15 each, uniform ones from an even register (R88). -/
def blocks (scalar : Bool) (rs : List Nat) : List Span :=
  rs.foldl (fun (bs : List Span) r =>
    let fresh : Span := if scalar then ⟨true, r - r % 2, 1 + r % 2⟩ else ⟨false, r, 1⟩
    match bs.getLast? with
    | some b => if b.has r then bs
                else if r = b.first + b.count ∧ b.count < 15 then bs.dropLast ++ [{ b with count := b.count + 1 }]
                else bs ++ [fresh]
    | none => [fresh]) []

/-- The ENDRUN ranges that destinations need. -/
def runRanges (dest : List Span) : List Span :=
  let regs (scalar : Bool) : List Nat := (List.range (if scalar then 512 else 128)).filter (fun r =>
    dest.any (fun d => d.scalar == scalar && d.has r))
  blocks false (regs false) ++ blocks true (regs true)

/-- A chunk as a run of its own. -/
def Chunk.start (c : Chunk) (u : WordUse) : RunPlan :=
  { first := c.idx, words := c.words.zipIdx.map (fun x => (x.1, c.idx + x.2)), all := u.all, dest := u.dest,
    temps := u.tempsWritten, fa := u.long == some true, fb := u.long == some false, forced := c.forced }

/-- A run with a chunk at its end. -/
def RunPlan.join (r : RunPlan) (c : Chunk) (u : WordUse) : RunPlan :=
  let k := c.start u
  { r with words := r.words ++ k.words, all := r.all ++ k.all, dest := r.dest ++ k.dest, temps := r.temps ++ k.temps,
           fa := r.fa || k.fa, fb := r.fb || k.fb }

/-- Rule 2: the run ends before the chunk. -/
def RunPlan.cut (r : RunPlan) (c : Chunk) (u : WordUse) : Bool :=
  c.forced || r.dest.any (fun d => u.all.any d.meets) || decide (24 < r.words.length + c.words.length) ||
  decide (2 < (runRanges (r.dest ++ u.dest)).length)

/-- The windows that v[x] may reach: those that the image's XWIN words set, all registers when it writes WINBASE or WINLEN. -/
def imageWindows (ws : List Nat) : List Span :=
  if ws.any (fun w => match instrOf w with | some (.wrsr k _) => k == 0x0A || k == 0x0B | _ => false) then [⟨false, 0, 128⟩]
  else ws.filterMap (fun w => match instrOf w with | some (.xwin b l) => some ⟨false, b.toNat, l.toNat⟩ | _ => none)

/-- The windows after a chunk: the one that an XWIN sets, all registers after a WRSR of WINBASE or WINLEN. -/
def Chunk.windows (c : Chunk) (wins : List Span) : List Span :=
  match (c.words.getLast?).bind instrOf with
  | some (.xwin b l) => [⟨false, b.toNat, l.toNat⟩]
  | some (.wrsr k _) => if k = 0x0A ∨ k = 0x0B then [⟨false, 0, 128⟩] else wins
  | _ => wins

/-- The runs of the chunks, or the refusal 0x22: a temporary is read in a run that has not written it. That a temporary which
only a run end of rule 2 parts from its writer is refused too is the model's choice (log entry 19). The windows are known from an
XWIN to the next forced boundary, and are any of the image's after one. -/
def formRuns (wins : List Span) (cs : List Chunk) : Except Nat (List RunPlan) :=
  (cs.foldl (fun (acc : Except Nat (List RunPlan × List Span)) (c : Chunk) =>
    match acc with
    | .error e => .error e
    | .ok (rs, now) =>
      let now := if c.forced then wins else now
      let u := chunkUse now c.words
      let go (old : List Nat) (rs' : List RunPlan) : Except Nat (List RunPlan × List Span) :=
        if u.tempsRead.all old.contains then .ok (rs', c.windows now) else .error 0x22
      match rs.getLast? with
      | none => go [] [c.start u]
      | some r => if r.cut c u then go [] (rs ++ [c.start u]) else go r.temps (rs.dropLast ++ [r.join c u])) (.ok ([], wins))).map (·.1)

/-! ## Flags, masks and branch offsets (R114 rules 4 and 5, R115) -/

/-- A run with its place in the native code, in words, and its flags. -/
structure PlacedRun where
  plan : RunPlan
  pos : Nat
  fa : Nat
  fb : Nat
  deriving DecidableEq, Repr

/-- The runs one after another, with the flags that the finaliser gives them. -/
def placeRuns (hash : List Byte) (rs : List RunPlan) : List PlacedRun :=
  (rs.zipIdx.foldl (fun (acc : List PlacedRun × Nat) (x : RunPlan × Nat) =>
    let flag (used : Bool) (k : Nat) : Nat := if used then Config.finaliserFlag hash k % 12 else 15
    (acc.1 ++ [⟨x.1, acc.2, flag x.1.fa (2 * x.2), flag x.1.fb (2 * x.2 + 1)⟩], acc.2 + x.1.words.length + 2)) ([], 0)).1

/-- The native place of the run that begins at or after an index, and of the word there. -/
def runPlace (ps : List PlacedRun) (i : Nat) : Option Nat := (ps.find? (fun p => decide (i ≤ p.plan.first))).map (·.pos)
def wordPlace (ps : List PlacedRun) (i : Nat) : Option Nat :=
  ps.findSome? (fun p => (p.plan.words.zipIdx.find? (fun x => decide (i ≤ x.1.2))).map (fun x => p.pos + 1 + x.2))

/-- A word offset as a field of n bits, if it fits. -/
def signedField (n : Nat) (o : Int) : Option (BitVec n) :=
  if -(2 ^ (n - 1) : Int) ≤ o ∧ o < 2 ^ (n - 1) then some (BitVec.ofInt n o) else none
def plainField (n : Nat) (o : Int) : Option (BitVec n) := if 0 ≤ o ∧ o < 2 ^ n then some (BitVec.ofInt n o) else none

/-- The native word of the word at an index, its branch offsets relocated; none where one does not fit or leaves the code. -/
def relocated (ws : List Nat) (ps : List PlacedRun) (w i : Nat) : Option Nat :=
  if (wordPlace ps i).isNone then none else
    let run (o : Int) (base : Nat) : Option Int := do
      let t ← targetAt base o
      let p ← if t < ws.length then runPlace ps t else none
      let b ← wordPlace ps base
      some ((p : Int) - b)
    let term (o base : Nat) : Option Int := do
      let p ← if base + o < ws.length then wordPlace ps (base + o) else none
      let b ← wordPlace ps base
      some ((p : Int) - b)
    match instrOf w with
    | some (.brs c a o) => ((run o.toInt i).bind (signedField 14)).map (fun o => encodeWord (.brs c a o))
    | some (.dbr q n t j) => do
      let t ← (run t.toInt i).bind (signedField 11)
      let j ← (run j.toNat i).bind (plainField 11)
      some (encodeWord (.dbr q n t j))
    | some (.call o) => ((run o.toInt i).bind (signedField 26)).map (fun o => encodeWord (.call o))
    | some (.loop a o) => ((run o.toInt i).bind (signedField 18)).map (fun o => encodeWord (.loop a o))
    | some (.elseby o) => ((term o.toNat i).bind (plainField 12)).map (fun o => encodeWord (.elseby o))
    | some (.ensure l e) =>
      if (pairImm ws i).isNone && (hintsBefore ws i).any (fun x => match x.2 with | .himm _ _ => true | _ => false) then none
      else ((run e.toNat i).bind (plainField 12)).map (fun e => encodeWord (.ensure l e))
    | some (.himm p v) =>
      let k := attachedAt ws i
      match instrOf (ws.getD k 0), pairImm ws k with
      | some (.ensure _ _), some (hi, lo) =>
        if hi.1 = i then ((term v.toNat k).bind (plainField 16)).map (fun v => encodeWord (.himm p v))
        else if lo.1 = i then ((run v.toInt k).bind (signedField 16)).map (fun v => encodeWord (.himm p v))
        else some w
      | _, _ => some w
    | _ => some w

/-- A run waits on every flag (rule 5): it begins at a CALL target or return point, or at a BOUND marker or kernel entry, any
of which a BRX or a trap vector, here or in another image, may name. -/
def waitsAll (ws : List Nat) (entries : List Nat) (r : RunPlan) : Bool :=
  (ws.zipIdx.flatMap (fun x => callPoints x.2 x.1)).contains r.first || entries.contains r.first ||
  (decide (0 < r.first) && ws.getD (r.first - 1) 0 == boundWord)

/-- The wait mask of a run (rules 4 and 5). -/
def waitMask (ws entries : List Nat) (ps : List PlacedRun) (r : RunPlan) : BitVec 12 :=
  let all := waitsAll ws entries r
  let waits (f : Nat) : Bool := ps.any (fun p =>
    (all && (p.fa == f || p.fb == f)) || (p.fa == f && (runRanges p.plan.dest).any (fun d => r.all.any d.meets)))
  (List.range 12).foldl (fun (m : BitVec 12) f => if waits f then m ||| BitVec.twoPow 12 f else m) 0

/-- The ENDRUN word of a run's ranges. -/
def endrunWord (rs : List Span) : Nat :=
  let c (k : Nat) : BitVec 1 := match rs[k]? with | some r => if r.scalar then 1 else 0 | none => 0
  let f (k : Nat) : BitVec 8 := match rs[k]? with
    | some r => BitVec.ofNat 8 (if r.scalar then r.first / 2 else r.first)
    | none => 0
  let n (k : Nat) : BitVec 4 := match rs[k]? with | some r => BitVec.ofNat 4 r.count | none => 0
  encodeWord (.endrun (c 0) (f 0) (n 0) (c 1) (f 1) (n 1))

/-- The native words of one run; none where a branch offset does not fit. -/
def nativeRun (ws entries : List Nat) (ps : List PlacedRun) (p : PlacedRun) : Option (List Nat) :=
  let body := p.plan.words.map (fun (x : Nat × Nat) => relocated ws ps x.1 x.2)
  if body.any (·.isNone) then none else
  some ([encodeWord (.clause (waitMask ws entries ps p.plan) (BitVec.ofNat 4 p.fa) (BitVec.ofNat 4 p.fb)
          (BitVec.ofNat 5 p.plan.words.length))] ++ body.filterMap id ++ [endrunWord (runRanges p.plan.dest)])

/-! ## The .tvf image (R110 to R113) -/

/-- The header's fields. -/
structure Tvf where
  img : List Byte
  nkern : Nat
  codeoff : Nat
  codesize : Nat
  dataoff : Nat
  datasize : Nat
  ktab : Nat
  rel : Nat
  nrel : Nat
  deriving DecidableEq, Repr

def Tvf.ofBytes (bs : List Byte) : Tvf :=
  { img := bs, nkern := field bs 0x0C 4, codeoff := field bs 0x10 8, codesize := field bs 0x18 8, dataoff := field bs 0x20 8,
    datasize := field bs 0x28 8, ktab := field bs 0x30 8, rel := field bs 0x38 8, nrel := field bs 0x60 4 }

/-- The header breaks R110, its HASH apart. -/
def headerBad (bs : List Byte) : Bool :=
  let t := Tvf.ofBytes bs
  bs.take 4 != [0x54, 0x56, 0x46, 0x31] || field bs 4 2 != 1 || field bs 6 2 != 0 || field bs 8 4 != 128 ||
  t.codesize % 4 != 0 || (t.nrel == 0 && t.rel != 0) || (firstByte bs 0x64 28).isSome

/-- Where the sections that the header names end. -/
def Tvf.sections (t : Tvf) : Nat :=
  max (max (max 128 (t.codeoff + t.codesize)) (t.dataoff + t.datasize))
    (max (t.ktab + 64 * t.nkern) (if t.nrel = 0 then 0 else t.rel + 16 * t.nrel))

def Tvf.hash (t : Tvf) : List Byte := (t.img.drop 0x40).take 32

/-- HASH is that of the image with the field taken as zero (R110). -/
def Tvf.hashOk (t : Tvf) : Bool :=
  shake256 (t.img.take 0x40 ++ List.replicate 32 0 ++ t.img.drop 0x60) == t.hash

/-- The words of the code section. -/
def Tvf.code (t : Tvf) : List Nat := (List.range (t.codesize / 4)).map (fun i => field t.img (t.codeoff + 4 * i) 4)

/-- Entry k of the kernel table (R111). -/
def Tvf.nameOff (t : Tvf) (k : Nat) : Nat := field t.img (t.ktab + 64 * k) 8
def Tvf.entryIdx (t : Tvf) (k : Nat) : Nat := field t.img (t.ktab + 64 * k + 8) 4
def Tvf.nwords (t : Tvf) (k : Nat) : Nat := field t.img (t.ktab + 64 * k + 12) 4
def Tvf.desc (t : Tvf) (k : Nat) : List Byte := (t.img.drop (t.ktab + 64 * k + 16)).take 16

/-- A kernel's name with its zero byte; empty when it breaks R111. -/
def Tvf.name (t : Tvf) (k : Nat) : List Byte :=
  let bs := (t.img.drop (t.nameOff k)).take 64
  let n := (bs.takeWhile (fun b => b != 0)).length
  if n = 0 ∨ 64 ≤ n ∨ bs.length ≤ n ∨ (bs.take n).any (fun b => decide (128 ≤ b.toNat)) then [] else bs.take (n + 1)

/-- An entry breaks R111. -/
def Tvf.entryBad (t : Tvf) (k : Nat) : Bool :=
  let bs := List.replicate 0x1C 0 ++ t.desc k ++ List.replicate 0xD4 0
  (t.name k).isEmpty || t.nwords k == 0 || decide (t.codesize / 4 < t.entryIdx k + t.nwords k) ||
  (List.range k).any (fun j => decide (t.entryIdx k < t.entryIdx j + t.nwords j) && decide (t.entryIdx j < t.entryIdx k + t.nwords k)) ||
  (kernelBad (Desc.fromBytes bs) bs).isSome || (firstByte t.img (t.ktab + 64 * k + 0x20) 32).isSome

/-- Relocation entry k (R112): index, kind, addend. -/
def Tvf.relocAt (t : Tvf) (k : Nat) : Nat × Nat × Nat :=
  let o := t.rel + 16 * k
  (field t.img o 4, field t.img (o + 4) 2, field t.img (o + 8) 8)

/-- A relocation entry breaks R112. -/
def Tvf.relocBad (t : Tvf) (k : Nat) : Bool :=
  let (i, kind, add) := t.relocAt k
  let ws := t.code
  let fits : Bool := match instrOf (ws.getD i 0), instrOf (ws.getD (i + 1) 0) with
    | some (.sliu d _), some (.slih e _) => (kind == 1 || kind == 2) && d == e
    | some (.himm p _), some (.himm q _) => kind == 3 && p == 2 && q == 3
    | _, _ => false
  field t.img (t.rel + 16 * k + 6) 2 != 0 || decide (t.datasize ≤ add) || decide (ws.length ≤ i + 1) || !fits

/-- The code section with the data section at an address (R112). -/
def Tvf.relocate (t : Tvf) (data : Nat) : List Nat :=
  (List.range t.nrel).foldl (fun (ws : List Nat) k =>
    let (i, kind, add) := t.relocAt k
    let a := (data + add) % 2 ^ 64
    let put (ws : List Nat) (j v : Nat) : List Nat := setAt ws j (ws.getD j 0 / 65536 * 65536 + v % 65536)
    match kind with
    | 1 => put (put ws i a) (i + 1) (a / 65536)
    | 2 => put (put ws i (a / 2 ^ 32)) (i + 1) (a / 2 ^ 48)
    | _ => put (put ws i (a / 65536)) (i + 1) a) t.code

/-! ## The native image (R114 to R118) -/

/-- Bytes up to a multiple of n. -/
def padTo (n : Nat) (bs : List Byte) : List Byte := bs ++ List.replicate ((n - bs.length % n) % n) 0

/-- The runs of an image, or its refusal. -/
def Tvf.runs (t : Tvf) : Except Nat (List PlacedRun) :=
  let ws := t.code
  let entries := (List.range t.nkern).map t.entryIdx
  let targets := ws.zipIdx.flatMap (fun x => runTargets ws x.2 x.1)
  match chunks (entries ++ targets.filterMap id) ws with
  | .error e => .error e
  | .ok cs =>
    match formRuns (imageWindows ws) cs with
    | .error e => .error e
    | .ok rs => .ok (placeRuns t.hash rs)

/-- The native image for a buffer address and its words of native code, or the refusal of R116. -/
def Tvf.native (t : Tvf) (buf : Nat) : Except Nat (List Byte × Nat) :=
  if !t.hashOk || (List.range t.nkern).any t.entryBad || (List.range t.nrel).any t.relocBad then .error 0x20 else
  match t.runs with
  | .error e => .error e
  | .ok ps =>
    let entries := (List.range t.nkern).map t.entryIdx
    let ncode := (ps.map (fun (p : PlacedRun) => p.plan.words.length + 2)).sum
    let dataoff := (0x100 + 4 * ncode + 255) / 256 * 256
    let ktaboff := (dataoff + t.datasize + 63) / 64 * 64
    let ws := t.relocate (buf + dataoff)
    let moved := ps.map (fun (p : PlacedRun) =>
      let now := p.plan.words.map (fun (x : Nat × Nat) => (ws.getD x.2 0, x.2))
      { p with plan := { p.plan with words := now } })
    let code := moved.map (nativeRun ws entries moved)
    if code.any (·.isNone) then .error 0x23 else
    let names := (List.range t.nkern).map t.name
    let entry (k : Nat) : List Byte :=
      bytesLE 8 (buf + 0x100 + 4 * (runPlace ps (t.entryIdx k)).getD ncode) ++
      bytesLE 8 (buf + ktaboff + 64 * t.nkern + ((names.take k).map (·.length)).sum) ++ t.desc k ++ List.replicate 32 0
    let head : List Byte := [0x48, 0x4E, 0x49, 0x31] ++ bytesLE 2 1 ++ bytesLE 2 Config.finaliserVersion ++ bytesLE 4 t.nkern ++
      bytesLE 4 ncode ++ bytesLE 8 0x100 ++ bytesLE 8 dataoff ++ bytesLE 8 t.datasize ++ bytesLE 8 ktaboff ++ t.hash ++
      List.replicate 176 0
    let body := padTo 256 (head ++ ((code.filterMap id).flatMap id).flatMap (fun (w : Nat) => bytesLE 4 w))
    .ok (padTo 64 (body ++ (t.img.drop t.dataoff).take t.datasize) ++ (List.range t.nkern).flatMap entry ++ names.flatMap id, ncode)

/-! ## The LOAD record (R117, R118, R350) -/

/-- Reads bytes of a context up to a zero byte. -/
def readName : Nat → State → Nat → DWord → Reach
  | 0, s, _, _ => .ok [] s
  | f + 1, s, ctx, va =>
    match readGlobal s noTeam ctx va 1 with
    | .ok bs s =>
      if bs = [0] then .ok bs s else
      (match readName f s ctx (va + 1) with
      | .ok cs s => .ok (bs ++ cs) s
      | r => r)
    | r => r

/-- Reads the names at offsets of an image and answers nothing but the state. -/
def readNames (ctx : Nat) (va : DWord) : List Nat → State → Reach
  | [], s => .ok [] s
  | o :: os, s =>
    match readName 64 s ctx (va + BitVec.ofNat 64 o) with
    | .ok bs s =>
      (match readNames ctx va os s with
      | .ok ns s => .ok (BitVec.ofNat 8 bs.length :: ns) s
      | r => r)
    | r => r

/-- Reads a whole image: header, sections, names. An image whose header is bad answers no bytes. The manual gives no size of
the image: that it ends with the last of its sections and names, which HASH therefore covers and no name leaves, is the model's
choice (log entry 20). -/
def readImage (s : State) (ctx : Nat) (va : DWord) : Reach :=
  match (globalReadN 4 s ctx va 128).1 with
  | .ok h s =>
    if headerBad h then .ok [] s else
    let n := (Tvf.ofBytes h).sections
    (match (globalReadN (n / 64 + 2) s ctx va n).1 with
    | .ok bs s =>
      let t := Tvf.ofBytes bs
      let offs := (List.range t.nkern).map t.nameOff
      (match readNames ctx va offs s with
      | .ok lens s =>
        let m := (offs.zip lens).foldl (fun (m : Nat) x => max m (x.1 + x.2.toNat)) n
        (globalReadN (m / 64 + 2) s ctx va m).1
      | r => r)
    | r => r)
  | r => r

/-- LOAD_RECORD (R118, R350): the image is read, finalised or taken from the context's cache, and written to its buffer;
while an access has to wait the record does not start. Status 0x06, with nothing written, for a buffer that fails translation is
the model's choice (log entry 20). -/
def execLoadRecord (s : State) : Host.Outcome State Fault Refusal :=
  recordTurn (fun k => k == 3) (fun s q e r =>
    let refuse (s : State) (code : Nat) : State := startRecord s q r 0 0 (some (statusWord 0 0 0 code))
    if r.arg1 % 256 ≠ 0 then refuse s 0x25 else
    match readImage s e.ctx (BitVec.ofNat 64 r.arg0) with
    | .wait s => s
    | .stall _ => s
    | .page _ => refuse s 6
    | .bad _ _ => refuse s 6
    | .ok img s =>
      let fresh := Tvf.ofBytes img
      if img.isEmpty || !fresh.hashOk then refuse s 0x20 else
      let cached := s.images.find? (fun x => x.1 == fresh.hash && x.2.1 == e.ctx)
      let t := match cached with | some x => Tvf.ofBytes x.2.2 | none => fresh
      match t.native r.arg1 with
      | .error code => refuse s code
      | .ok (bytes, ncode) =>
        if r.arg2 < bytes.length then refuse s 0x24 else
        match (globalWriteN (bytes.length / 64 + 2) s e.ctx (BitVec.ofNat 64 r.arg1) bytes).1 with
        | .wait s => s
        | .stall _ => s
        | .page _ => refuse s 6
        | .bad _ _ => refuse s 6
        | .ok _ s =>
          let s := if cached.isSome then s else { s with images := s.images ++ [(fresh.hash, e.ctx, img)] }
          startRecord s q r 0 0 (some (statusWord ncode 0 0 0))) s

end Sys2Proof.Machine
end

