-- ==== Sys2Proof/Machine/Life.lean ====
section
/-! DEFINITION. What happens to groups and teams without a word of theirs: barriers, sleep, the end of groups and teams, growth
that nobody can get, and the limits of R192, R362, R363 and R493. -/

namespace Sys2Proof.Machine

/-! ## Barriers (R177, R178) -/

/-- Groups of a team end their wait at a barrier, each with an acq-rel fence at team scope (R61, R178). -/
def passBarrier (s : State) (t : Team) (gs : List Nat) (p : Wait → Bool) : State :=
  gs.foldl (fun (s : State) i => match t.group? i with
    | none => s
    | some g =>
      let s := g.gangs.foldl (fun (s : State) k => if p k.wait then s.finishWord t.id i k.id else s) s
      s.groupOp t.id i (.fence 1 1)) s

/-- The older accesses of groups are performed towards the team (R61). -/
def releasedAll (s : State) (t : Team) (gs : List Nat) : Bool :=
  t.groups.all (fun g => !gs.contains g.id || releaseDone s t g 1 s.opCtr)

/-- A gang waits in BAR. -/
def Wait.atBar (w : Wait) : Bool := match w with | .barrier => true | _ => false

/-- BARRIER_COMPLETE (R177): every group of the team has arrived or retired. -/
def execBarrierComplete (s : State) : Host.Outcome State Fault Refusal :=
  onEvent (fun e s =>
    match s.teams.find e.a with
    | none => s
    | some t =>
      let gs := (t.groups.filter (fun g => !g.retired)).map (·.id)
      if gs.isEmpty ∨ !t.groups.all (fun g => g.retired || g.allWait Wait.atBar) ∨ t.fail.isSome ∨ !releasedAll s t gs then s
      else passBarrier s t gs Wait.atBar) s

/-- The group of a team that has arrived at a barrier without a word of its own: the units that had not issued the BARP have all
finished since (R175, R177, R178); with the gang that waits and the count it has named. -/
def Team.lateArrival (t : Team) (b : Nat) : Option (Group × Gang × Nat) :=
  let x := t.barp b
  t.groups.findSome? (fun g => if g.retired || x.arrived.contains g.id || !g.allWait (Wait.atBarp b x.gen) then none else
    (g.gangs.findSome? (fun k => match k.wait with
      | .barp c e n => if c = b ∧ e = x.gen then some (k, n) else none
      | _ => none)).map (fun y => (g, y.1, y.2)))

/-- BARP_GENERATION_COMPLETE (R178): a group that arrives because its other units have finished does so; the oldest complete
generation lets its groups pass once their older accesses are performed towards the team. -/
def execBarpGenerationComplete (s : State) : Host.Outcome State Fault Refusal :=
  onEvent (fun e s =>
    match s.teams.find e.a with
    | none => s
    | some t =>
      if t.fail.isSome then s else
      match t.lateArrival e.b with
      | some (g, k, n) =>
        if (t.barp e.b).accepts t.ngroups n then s.onTeam t.id (fun t => t.arriveBarp e.b g.id n) else
        let at? := match k.run with | some r => r.clause + BitVec.ofNat 64 (4 * r.off) | none => 0
        let lanes := g.unitLanes ((g.gangUnits k.id).map (fun u => (u.1, u.2.1)))
        takeFault s { team := t.id, group := g.id, gang := k.id, units := [], lanes := lanes, addr := at?, word := 0 } true
          { code := 0x03, lanes := lanes }
      | none =>
        match (t.barp e.b).closed with
        | [] => s
        | (gen, gs) :: rest =>
          if !releasedAll s t gs then s else
          (passBarrier s t gs (Wait.atBarp e.b gen)).onTeam t.id (fun t => t.setBarp e.b { t.barp e.b with closed := rest })) s

/-- A group that retires without having arrived lowers the expected count of an open generation (R178). -/
def Barp.retire (x : Barp) (g : Nat) : Barp :=
  match x.expected with
  | some n => if x.arrived.contains g then x else { x with expected := some (n - 1) }
  | none => x

/-! ## Sleep (R180) -/

/-- SLEEP_EXPIRY (R180): the resident clocks are over. A trailing copy that catches up with a leading copy that has stopped
counts clocks since the stop (R439). -/
def execSleepExpiry (s : State) : Host.Outcome State Fault Refusal :=
  onEvent (fun e s =>
    match s.teams.find e.a, s.group? e.a e.b with
    | some t, some g =>
      match g.gang? e.c with
      | some k => (match k.wait with
        | .sleep due =>
          let ended := if t.suspended then catchesUp s t g && decide (t.suspendedAt + due ≤ s.clock) else decide (due ≤ s.clock)
          if t.phase = .resident ∧ ended = true then
            s.finishWord t.id g.id k.id
          else s
        | _ => s)
      | none => s
    | _, _ => s) s

/-! ## The end of a group and of a team (R175, R371) -/

/-- A group has nothing left that R175 waits for. -/
def Group.isOver (g : Group) (s : State) (t : Team) : Bool :=
  let mine (b : Block) : Bool := b.team == t.id && b.group == g.id
  !g.retired && t.phase == .resident && g.unfinished == 0 && g.flags.isEmpty && g.fifo.isEmpty &&
  !s.cores.any (fun c => c.2.merge.any mine || c.2.comm.any mine) &&
  !(t.cmp.held ++ t.cmp.seen).any (fun e => e.group == g.id) &&
  !s.ops.any (fun o => o.2.team == t.id && o.2.group == g.id && (match o.2.body with | .mdrain .. => true | _ => false))

/-- Where a tile's token goes when its holder retires (R371). -/
def Team.tokenHeir (t : Team) (g : Nat) : Option Nat :=
  let live := (t.groups.filter (fun x => !x.retired && x.id != g)).map (·.id)
  ((live.filter (fun k => decide (t.desc.matFirst ≤ k) && decide (k < t.desc.matFirst + t.desc.matCount))) ++ live).head?

/-- A group retires: its tokens pass on, and the open generations of barriers that it has not reached expect one group less
and may be complete by that (R178). -/
def retireGroup (t : Team) (g : Nat) : Team :=
  (List.range 16).foldl (fun (t : Team) b => t.closeBarp b)
  { t with groups := t.groups.map (fun (x : Group) => if x.id = g then { x with retired := true, gangs := [] } else x),
           tokens := t.tokens.map (fun (o : Option Nat) => if o = some g then t.tokenHeir g else o),
           barps := t.barps.map (fun (x : Barp) => x.retire g) }

/-- GROUP_RETIRE (R175): every lane has finished and nothing of the group is on its way. A fault that an engine kept for the
group's next run ends the team (R274, R394). -/
def execGroupRetire (s : State) : Host.Outcome State Fault Refusal :=
  onEvent (fun e s =>
    match s.teams.find e.a, s.group? e.a e.b with
    | some t, some g =>
      if !g.isOver s t then s else
      match g.late with
      | r :: rest => terminateTeam (postTeam (s.onGroup t.id g.id (fun x => { x with late := rest })) t 0 r) t.id
      | [] => s.onTeam t.id (fun t => retireGroup t g.id)
    | _, _ => s) s

/-- TEAM_RETIRE (R175): every group has retired, in both copies of a copied team, and every copy and remote operation is over.
Its storage is freed, its rings are undefined, and its grid counts it. -/
def execTeamRetire (s : State) : Host.Outcome State Fault Refusal :=
  onEvent (fun e s =>
    match s.teams.find e.a with
    | none => s
    | some t =>
      let ids := s.pairOf t.id
      let done (t : Team) : Bool := t.phase == .resident && t.groups.all (·.retired) &&
        s.copies.all (fun k => k.2.team != t.id || k.2.phase == .finished)
      if t.copy = .trailing ∨ !ids.all (fun i => match s.teams.find i with | some x => done x | none => true) then s
      else removeTeam (ids.foldl (fun (s : State) i => freeStorage s i .evicted) s) t.id false) s

/-! ## Growth that nobody can get (R184) -/

/-- A group waits in GROW, or in a barrier of a team with a group that waits in GROW. -/
def growBlocked (t : Team) (g : Group) : Bool :=
  let stuck (w : Wait) : Bool := match w with
    | .grow _ => true
    | .barrier => t.groups.any (fun x => x.asks.isSome)
    | .barp _ _ _ => t.groups.any (fun x => x.asks.isSome)
    | _ => false
  g.allWait stuck

/-- GROW_DEADLOCK_EVICTION (R184): the subject is a core and a half. The eviction is one that nobody's flag observes. -/
def execGrowDeadlockEviction (s : State) : Host.Outcome State Fault Refusal :=
  onEvent (fun e s =>
    let gs := halfGroups s e.a e.b
    let asking := gs.filter (fun x => x.2.asks.isSome)
    let free := asking.isEmpty || gs.any (fun x => !growBlocked x.1 x.2) || asking.any (fun x => waitReady s x.1 x.2 (.grow (x.2.asks.getD 0)))
    let leaving := gs.any (fun x => x.1.suspended || x.1.command || x.1.fail.isSome)
    if free ∨ leaving then s else
    match oldestOf gs with
    | none => s
    | some old =>
      let other := gs.filter (fun x => !(s.pairOf old.1.id).contains x.1.id)
      let t := match youngestOf other with | some x => x.1 | none => old.1
      let s := (s.pairOf t.id).foldl (fun (s : State) i => s.onTeam i (fun t => { t with evictReq := true })) s
      (pauseTeam s t.id).hiddenOp t.id (.evict t.id 512 false)) s

/-! ## Limits (R192, R362, R363, R493) -/

/-- GROUP_WATCHDOG_EXPIRY (R192, R492): the group takes WATCHDOG, and its cluster counts the event. -/
def execGroupWatchdogExpiry (s : State) : Host.Outcome State Fault Refusal :=
  onEvent (fun e s =>
    match s.teams.find e.a, s.group? e.a e.b with
    | some t, some g =>
      let limit := natBits g.wdcfg.toNat 0 16
      if !watched t g || limit == 0 || decide (g.idle < limit * 4096 * 25) then s else
      match g.gangs with
      | [] => s
      | k :: _ =>
        let pc := match g.nextUnits k with
          | some (a, _) => a
          | none => (match g.units with | u :: _ => u.2.2.pc | [] => 0)
        let c : Cur := { team := t.id, group := g.id, gang := k.id, units := [], lanes := g.unfinished, addr := pc, word := 0 }
        let s := s.onGroup t.id g.id (fun x => { x with idle := 0 })
        let s := takeFault s c k.run.isSome { code := 0x1E, lanes := g.unfinished }
        if t.command then s else
        let cl := s.cluster t.cluster
        let n := min 255 (natBits cl.clwd.toNat 8 8 + 1)
        s.putCluster t.cluster { cl with clwd := (cl.clwd &&& 0xFFFF00FF) ||| BitVec.ofNat 32 (n * 256) }
    | _, _ => s) s

/-- A record that names no team, from an engine of the module (R490). -/
def moduleRecord (code num : Nat) : Record :=
  { code := code, kind := 0, inrun := false, replay := false, sysmode := false, double := false, group := 0xFFFF, num := num,
    iaddr := 0, lanes := 0, faddr := 0 }

/-- CLUSTER_WATCHDOG_FIRE (R493): TRIP, the cluster is closed, a record goes to context 0. -/
def execClusterWatchdogFire (s : State) : Host.Outcome State Fault Refusal :=
  onEvent (fun e s =>
    let w := (s.cluster e.a).clwd
    let limit := natBits w.toNat 0 8
    if 224 ≤ e.a ∨ limit = 0 ∨ w.getLsbD 16 ∨ natBits w.toNat 8 8 < limit then s else
    let s := shutDoor s e.a (if (s.cluster e.a).door = .offline then .offline else .closed)
    let cl := s.cluster e.a
    let s := s.putCluster e.a { cl with clwd := w ||| 0x10000 }
    post (s.watchCommand (e.a / 28)) 0 5 0xFFFFFFFF (e.a / 28) (moduleRecord 0x1E e.a)) s

/-- LECTL.SUSPLIM in clocks; 0 acts as 1 (R346). -/
def suspLimit (s : State) : Nat := max 1 s.susplim * 65536

/-- SUSPENSION_LIMIT_EXPIRY (R362): the team resumes by itself. -/
def execSuspensionLimitExpiry (s : State) : Host.Outcome State Fault Refusal :=
  onEvent (fun e s =>
    match s.teams.find e.a with
    | none => s
    | some t =>
      let leaving := s.ops.any (fun o => match o.2.body with | .evict k _ _ => (s.pairOf t.id).contains k | _ => false)
      if t.phase ≠ .resident ∨ !t.suspended ∨ leaving ∨ s.clock < t.suspendedAt + suspLimit s then s
      else resumeTeam s t.id) s

/-- RING_CLUSTER_WAIT_TIMEOUT (R363): the rings of a team that waits for a cluster which takes nobody are undefined. -/
def execRingClusterWaitTimeout (s : State) : Host.Outcome State Fault Refusal :=
  onEvent (fun e s =>
    match s.teams.find e.a with
    | none => s
    | some t =>
      let late := decide (t.waitSince + suspLimit s ≤ s.clock)
      let gone := (ringClusters s t.id).filter (fun k => match (s.cluster k).door with
        | .opened => false
        | .offline => true
        | _ => late)
      if t.phase ≠ .evicted then s else
      gone.foldl (fun (s : State) k =>
        dropRingsIn s t.id k) s) s

end Sys2Proof.Machine
end

