-- ==== Sys2Proof/Machine/Optical.lean ====
section
/-! DEFINITION. The optical memory port and the drawer: slot tables, what each slot carries, widths, retraining, the zero map
(R452 to R478), and the words of major 0x3B (R480 to R487). -/

namespace Sys2Proof.Machine

/-! ## Entries, widths, held entries (R461, R465, R470) -/

/-- D in slots (R459). -/
def slotDelay : Nat := 1536

def entryClass (e : Nat) : Nat := natBits e 10 6
def entryKind (e : Nat) : Nat := natBits e 8 2
/-- Reads of a bundle. -/
def entrySize (e : Nat) : Nat := natBits e 5 3 + 1

/-- A pair carries data (R470). -/
def Pair.carries : Pair → Bool
  | .active => true
  | .parkpend => true
  | _ => false

/-- The width of a group (R470). -/
def Link.width (l : Link) : Nat := 1 + (l.pairs.filter Pair.carries).length

/-- Bytes that a slot carries (R456). -/
def Link.slotBytes (l : Link) : Nat := 32 * l.width

/-- Drawer entries that a class holds (R465): reads sent, those that a retrain has sent back among them. -/
def Link.held (l : Link) (c : Nat) : Nat := ((l.sent ++ l.reads).filter (fun r => r.cls == c && r.left != 0)).length

/-- Reserved entries of a class (R479). -/
def Link.reserved (l : Link) (c : Nat) : Nat := l.res.getD c 0

/-! ## What a slot carries (R462, R466 to R469, R478) -/

/-- The reads of a class that a bundle of up to n takes in a slot, in queue order, with free entries left, and the queue
without them (R465, R466). -/
def takeBundle (c slot : Nat) : Nat → Nat → List LinkRead → List LinkRead × List LinkRead
  | _, _, [] => ([], [])
  | n, free, r :: rs =>
    if r.cls ≠ c then (let p := takeBundle c slot n free rs; (p.1, r :: p.2))
    else if n = 0 ∨ slot < r.due ∨ (r.left = 0 ∧ free = 0) then ([], r :: rs)
    else (let p := takeBundle c slot (n - 1) (if r.left = 0 then free - 1 else free) rs; (r :: p.1, p.2))

/-- The reads that a bundle of a class and size takes in a slot. -/
def Link.bundle (l : Link) (c n slot : Nat) : List LinkRead × List LinkRead :=
  takeBundle c slot n (l.reserved c - l.held c) l.reads

/-- The write that a write slot of a class carries on (R466, R468). -/
def Link.nextWrite (l : Link) (c slot : Nat) : Option LinkWrite :=
  match l.writes.find? (fun w => w.cls == c) with
  | some w => if w.due ≤ slot then some w else none
  | none => none

/-- A write-back of a block has sent a slot, before a retrain perhaps, and the drawer has not performed it (R312, R478). -/
def startedWrite (s : State) (block : Nat) : Bool :=
  s.links.any (fun l => l.2.writes.any (fun w => w.vc.isSome && w.done.isNone && w.begun &&
    (match w.cells with | c :: _ => c.1 / 4096 == block | [] => false)))

/-- A zero-map command goes out in a slot (R478). -/
def zeroGoes (s : State) (slot : Nat) (z : ZeroCmd) : Bool :=
  z.sentAt.isNone && decide (z.due ≤ slot) && !startedWrite s z.block

/-- A request slot with an entry carries something. -/
def requestCarries (s : State) (l : Link) (slot e : Nat) : Bool :=
  match entryKind e with
  | 1 => !(l.bundle (entryClass e) (entrySize e) slot).1.isEmpty
  | 2 => (l.nextWrite (entryClass e) slot).isSome
  | 3 => l.zeros.any (zeroGoes s slot)
  | _ => false

/-- The reply that a read-reply slot of a class carries (R469). -/
def Link.nextReply (l : Link) (c slot : Nat) : Option LinkRead :=
  match l.sent.find? (fun r => r.cls == c && r.left != 0) with
  | some r => if r.due ≤ slot then some r else none
  | none => none

/-- A write can be acknowledged in a slot (R468). -/
def ackGoes (c slot : Nat) (w : LinkWrite) : Bool :=
  w.cls == c && (match w.done with | some d => decide (d + slotDelay ≤ slot) | none => false)

/-- A zero-map command can be acknowledged in a slot (R478). -/
def zeroOver (slot : Nat) (z : ZeroCmd) : Bool := match z.sentAt with | some d => decide (d + slotDelay ≤ slot) | none => false

/-- A reply slot with an entry carries something. -/
def replyCarries (l : Link) (slot e : Nat) : Bool :=
  match entryKind e with
  | 1 => (l.nextReply (entryClass e) slot).isSome
  | 2 => l.unacked.any (ackGoes (entryClass e) slot)
  | 3 => l.zeros.any (zeroOver slot)
  | _ => false

/-- The reply slots that bundles of a request table claim, counted from the superframe's first slot (R459). -/
def claims (req : Map Nat) : List Nat :=
  req.flatMap (fun e => if entryKind e.2 = 1 then (List.range (entrySize e.2)).map (fun i => e.1 + slotDelay + i) else [])

/-- The reply entries of a superframe: in the first after a switch an entry that a bundle of the last superframe claims is the
old table's (R464). -/
def Link.replyTable (l : Link) : Map Nat :=
  match l.previous with
  | none => l.active.reply
  | some p =>
    let old := (claims p.request).filterMap (fun r => if 4096 ≤ r then some (r - 4096) else none)
    (p.reply.filter (fun e => old.contains e.1)).foldl (fun m e => m.put e.1 e.2) l.active.reply

/-! ## The order of slots (R455) -/

/-- The work that a group does next in its superframe: slot, whether it is in the reply direction, and the entry. -/
structure SlotWork where
  slot : Nat
  reply : Bool
  entry : Nat
  deriving DecidableEq, Repr

/-- The first slot of a table that has begun, is not over and carries something. -/
def firstSlot (s : State) (l : Link) (from' : Nat) (carries : Nat → Nat → Bool) (t : Map Nat) : Option (Nat × Nat) :=
  (t.find? (fun e => let k := 4096 * l.frame + e.1
    decide (from' ≤ k) && decide (k ≤ s.slot) && carries k e.2)).map (fun e => (4096 * l.frame + e.1, e.2))

/-- The next work of a group: the earlier slot, and of one slot the request first. -/
def nextWork (s : State) (l : Link) : Option SlotWork :=
  if l.st ≠ .live then none else
  let q := firstSlot s l l.reqSlot (requestCarries s l) l.active.request
  let r := firstSlot s l l.repSlot (replyCarries l) l.replyTable
  match q, r with
  | some a, some b => if a.1 ≤ b.1 then some ⟨a.1, false, a.2⟩ else some ⟨b.1, true, b.2⟩
  | some a, none => some ⟨a.1, false, a.2⟩
  | none, some b => some ⟨b.1, true, b.2⟩
  | none, none => none

/-- No other group has a slot before a request slot of group g, so that the drawer performs requests in the order of their
slots and, within a slot, of the groups (R455). -/
def slotFirst (s : State) (g : Nat) (l : Link) (slot : Nat) : Bool :=
  s.links.all (fun h => h.1 == g || h.2.st != .live ||
    (decide (l.frame ≤ h.2.frame) && (match nextWork s h.2 with
      | some w => decide (slot < w.slot) || (w.slot == slot && decide (g < h.1))
      | none => true)))

/-- The turn of a group in a kind of slot: it acts only when that is the group's next work. -/
def slotTurn (kind : Nat) (reply : Bool) (go : State → Nat → Link → SlotWork → State) (s : State) : State :=
  let g := s.subject.a
  match s.links.find g with
  | none => s
  | some l =>
    match nextWork s l with
    | none => s
    | some w =>
      if w.reply ≠ reply ∨ entryKind w.entry ≠ kind ∨ (!reply && !slotFirst s g l w.slot) then s
      else go s g (if reply then { l with repSlot := w.slot + 1 } else { l with reqSlot := w.slot + 1 }) w

/-! ## Reads and writes at the drawer (R452, R454, R477) -/

/-- Sectors of a mask. -/
def maskSectors (m : Nat) : List Nat := (List.range 4).filter (natBit m)

/-- The stack of a block (R452). -/
def stackOf (pa : Nat) : Nat := pa / 4096 % 12

/-- The drawer performs a read: its bytes, for a slice with what its write buffer still holds (R291), and its
poisoned sectors; corrected sectors are counted (R454). -/
def drawerRead (s : State) (r : LinkRead) : LinkRead × State :=
  let secs := maskSectors r.mask
  let byte (pa : Nat) : Byte := match r.who with
    | .fill k => belowByte s (k / 2 ^ 34) pa
    | .lane op l => (match (s.ops.find op).map (fun (o : Op) => o.body) with
        | some (.mem m) => if m.space = .global then belowByte s (((m.accs.find? (fun (a : LaneAcc) => a.lane == l)).map (·.vc)).getD 0) pa
            else s.drawer.byte pa
        | _ => s.drawer.byte pa)
    | _ => s.drawer.byte pa
  let bytes := secs.foldl (fun (m : Map Byte) i => (List.range 64).foldl (fun m j =>
    Map.setD m (64 * i + j) (byte (256 * r.block + 64 * i + j)) 0) m) []
  let bad := secs.filter (fun i => s.drawer.poison.contains (4 * r.block + i))
  let weak := secs.filter (fun i => s.drawer.weak.contains (4 * r.block + i))
  let st := stackOf (256 * r.block)
  let d := s.drawer
  let n := min 0xFFFF ((d.cestack.getD st 0).toNat + weak.length)
  ({ r with bytes := bytes, poison := bad, left := 64 * max 1 secs.length },
   { s with drawer := { d with cestack := d.cestack.setD st (BitVec.ofNat 32 n) 0 } })

/-- READ_BUNDLE_SLOT (R462, R465): the bundle's reads take their entries, the drawer performs them, and each is matched with
its reply slot (R459). A read that a retrain has sent back is answered with what it got before (R474). -/
def execReadBundleSlot (s : State) : Host.Outcome State Fault Refusal :=
  onEvent (fun _ s => slotTurn 1 false (fun s g l w =>
    let p := l.bundle (entryClass w.entry) (entrySize w.entry) w.slot
    let (sent, s) := p.1.zipIdx.foldl (fun (a : List LinkRead × State) (x : LinkRead × Nat) =>
      let (r, s) := if x.1.left = 0 then drawerRead a.2 x.1 else (x.1, a.2)
      (a.1 ++ [{ r with due := w.slot + slotDelay + x.2 }], s)) ([], s)
    let l := { l with reads := p.2, sent := l.sent ++ sent }
    s.putLink g l.rearm) s) s

/-- The drawer performs a write (R454, R477). -/
def drawerWrite (s : State) (w : LinkWrite) : State :=
  let secs := (w.cells.map (fun c => c.1 / 64)).eraseDups
  let whole (k : Nat) : Bool := decide (64 ≤ ((w.cells.filter (fun c => c.1 / 64 == k)).map (·.1)).eraseDups.length)
  let d := Drawer.write s.drawer w.cells
  let poison := if w.poison then secs.foldl insertRising d.poison
    else d.poison.filter (fun k => !(secs.contains k && whole k))
  { s with drawer := { d with poison := poison, weak := d.weak.filter (fun k => !secs.contains k) } }

/-- Replaces the first write of a class in a queue, or takes it out. -/
def setWrite (c : Nat) (x : Option LinkWrite) : List LinkWrite → List LinkWrite
  | [] => []
  | w :: ws => if w.cls = c then x.toList ++ ws else w :: setWrite c x ws

/-- WRITE_SLOT (R462, R468): the slot's part of the oldest write; with its last part the drawer performs it, unless it has
performed it before (R474). -/
def execWriteSlot (s : State) : Host.Outcome State Fault Refusal :=
  onEvent (fun _ s => slotTurn 2 false (fun s g l w =>
    let c := entryClass w.entry
    match l.nextWrite c w.slot with
    | none => s
    | some x =>
      let left := x.left - l.slotBytes
      if left ≠ 0 then s.putLink g { l with writes := setWrite c (some { x with left := left, begun := true }) l.writes } else
      let s := if x.done.isNone then drawerWrite s x else s
      s.putLink g { l with writes := setWrite c none l.writes, unacked := l.unacked ++ [{ x with left := 0, begun := true, done := some w.slot }] }) s) s

/-- Takes up to n elements that a predicate picks out of a list. -/
def takeUpTo {α : Type} (p : α → Bool) : Nat → List α → List α
  | _, [] => []
  | 0, xs => xs
  | n + 1, x :: xs => if p x then takeUpTo p n xs else x :: takeUpTo p (n + 1) xs

/-- Changes up to n elements that a predicate picks. -/
def mapUpTo {α : Type} (p : α → Bool) (f : α → α) : Nat → List α → List α
  | _, [] => []
  | 0, xs => xs
  | n + 1, x :: xs => if p x then f x :: mapUpTo p f n xs else x :: mapUpTo p f (n + 1) xs

/-- MAINTENANCE_SLOT (R462, R478): up to 16 zero-map commands go out, or are acknowledged. -/
def execMaintenanceSlot (s : State) : Host.Outcome State Fault Refusal :=
  onEvent (fun e s =>
    let rep := match (s.links.find e.a).bind (nextWork s) with | some w => w.reply | none => false
    slotTurn 3 rep (fun s g l w =>
      if rep then s.putLink g { l with zeros := takeUpTo (zeroOver w.slot) 16 l.zeros } else
      let go : List ZeroCmd := (l.zeros.filter (zeroGoes s w.slot)).take 16
      let s := { s with drawer := go.foldl (fun (d : Drawer) (z : ZeroCmd) => d.mark z.block) s.drawer }
      s.putLink g { l with zeros := mapUpTo (zeroGoes s w.slot) (fun (z : ZeroCmd) => { z with sentAt := some w.slot }) 16 l.zeros }) s) s

/-- ZERO_MAP_BACKGROUND_CLEAR (R477): a marked block's stack holds zeros, and its mark is cleared. -/
def execZeroMapBackgroundClear (s : State) : Host.Outcome State Fault Refusal :=
  onEvent (fun e s =>
    if s.drawer.clear.contains e.a ∨ 768 * 2 ^ 18 ≤ e.a then s else
    { s with drawer := { s.drawer with mem := dropBlock s.drawer.mem e.a, clear := insertRising s.drawer.clear e.a } }) s

/-- READ_REPLY_SLOT (R469): the oldest unfinished reply of the class carries on; with its last byte its entry is free. -/
def execReadReplySlot (s : State) : Host.Outcome State Fault Refusal :=
  onEvent (fun _ s => slotTurn 1 true (fun s g l w =>
    match l.nextReply (entryClass w.entry) w.slot with
    | none => s
    | some r =>
      let left := r.left - l.slotBytes
      let r' := if left = 0 then { r with left := 0, due := w.slot } else { r with left := left }
      s.putLink g { l with sent := mapUpTo (fun x => x == r) (fun _ => r') 1 l.sent }) s) s

/-- ACKNOWLEDGEMENT_SLOT (R468): up to 8 writes of the class are acknowledged, oldest first. -/
def execAcknowledgementSlot (s : State) : Host.Outcome State Fault Refusal :=
  onEvent (fun _ s => slotTurn 2 true (fun s g l w =>
    s.putLink g { l with unacked := takeUpTo (ackGoes (entryClass w.entry) w.slot) 8 l.unacked }) s) s

/-- A reply has reached its requester: 48 clocks after its last slot ended (R459). -/
def replyHere (s : State) (r : LinkRead) : Bool := r.left == 0 && decide (9 * (r.due + 1) + 48 * 25 ≤ s.now)

/-! ## Superframes (R464, R470, R471, R473) -/

/-- What a pair becomes at a superframe boundary. -/
def Pair.boundary : Pair → Pair
  | .parkpend => .parked
  | .wakepend => .waking 3 false
  | .waking _ true => .parked
  | .waking n false => if n ≤ 1 then .active else .waking (n - 1) false
  | p => p

/-- SUPERFRAME_BOUNDARY: a live group whose slots of the superframe are over goes on to the next. -/
def execSuperframeBoundary (s : State) : Host.Outcome State Fault Refusal :=
  onEvent (fun e s =>
    match s.links.find e.a with
    | none => s
    | some l =>
      if l.st ≠ .live ∨ s.slot < 4096 * (l.frame + 1) ∨ (nextWork s l).isSome then s else
      let l := { l with frame := l.frame + 1, sfcount := (l.sfcount + 1) % 2 ^ 32, pairs := l.pairs.map Pair.boundary, previous := none }
      s.putLink e.a (match l.swpend, l.standby with
        | true, some t => { l with previous := some l.active, active := t, standby := none, swpend := false }
        | _, _ => l)) s

/-! ## Retraining (R473 to R476) -/

/-- A group stops carrying slots (R473, R474): replies that are not whole are cut, and what has no answer goes back to the
front of its queue. -/
def startRetrain (s : State) (g : Nat) : State :=
  let l := s.link g
  if l.st ≠ .live then s else
  let back := (l.sent.filter (fun r => r.left != 0)).map (fun (r : LinkRead) =>
    { r with left := 64 * max 1 (maskSectors r.mask).length, due := 0 })
  let again := l.unacked.map (fun (w : LinkWrite) => { w with left := w.cells.length, due := 0 })
  s.putLink g { l with
    st := .retrain s.clock, retrains := sat16 l.retrains, sent := l.sent.filter (fun r => r.left == 0), reads := back ++ l.reads,
    unacked := [], writes := again ++ l.writes.map (fun (w : LinkWrite) => { w with left := w.cells.length }),
    pairs := l.pairs.map (fun (p : Pair) => match p with | .waking _ a => .waking 4 a | p => p) }

/-- LANE_LOSS_OF_LOCK (R473). -/
def execLaneLossOfLock (s : State) : Host.Outcome State Fault Refusal := onEvent (fun e s => startRetrain s e.a) s

/-- SLOT_CHECK_FAILURE (R457, R473): the slot is never delivered. -/
def execSlotCheckFailure (s : State) : Host.Outcome State Fault Refusal := onEvent (fun e s => startRetrain s e.a) s

/-- A lane's atomic has come to the point where only its home slice is before it (R234, R300); in a core-pair team the leading
copy's operation stands for both (R433). -/
def atHome (s : State) (o : Op) (m : MemOp) (lane : Nat) : Bool :=
  s.cores.any (fun c => c.2.merge.any (fun b => (b.op == o.id || m.lead == some b.op) && b.lane == lane))

/-- The link group whose data a lane of an operation waits for: the group of its core's die for drawer-direct space, the group
of the home slice's die for a sector that is being filled. -/
def laneLink (s : State) (o : Op) (m : MemOp) (a : LaneAcc) : Option Nat :=
  match a.st with
  | .miss =>
    (match m.space with
    | .drawer => (s.group? o.team o.group).map (fun g => if 1792 ≤ g.core then g.core - 1792 else g.core / 224)
    | .global => if a.pa < 2 ^ 40 ∧ !present s a.vc a.pa ∧ (m.kind.isAtomic → atHome s o m a.lane) then some (s.homeDie a.vc a.pa)
        else none
    | _ => none)
  | _ => none

/-- Operations whose lanes can take LINKSTALL: loads, and atomics that wait for their sector. -/
def stallable (m : MemOp) : Bool := match m.kind with | .load => true | .loadU => true | k => k.isAtomic

/-- One operation's lanes that wait for a group take LINKSTALL (R243, R475); what follows from it comes at the end of the lanes
(R245). Lanes that their gang has abandoned are dropped. -/
def stallOp (s : State) (g : Nat) (o : Op) (m : MemOp) : State :=
  let here (a : LaneAcc) : Bool := laneLink s o m a == some g
  if !stallable m ∨ !m.accs.any here then s else
  laneOver (s.setBody o.id (.mem (m.setLanes here (if m.loose then .dropped else .stalled)))) o.id

/-- LINKSTALL_TIMEOUT (R475): a retrain has lasted 2,048 clocks. -/
def execLinkstallTimeout (s : State) : Host.Outcome State Fault Refusal :=
  onEvent (fun e s =>
    if !s.linkLost e.a then s else
    s.ops.foldl (fun (s : State) (o : Nat × Op) => match o.2.body with
      | .mem m => stallOp s e.a o.2 m
      | _ => s) s) s

/-- The contexts that have something on a group: a queued or unanswered request, or a group that it parks (R476). -/
def linkContexts (s : State) (g : Nat) : List Nat :=
  let l := s.link g
  let team (t : Nat) : List Nat := ((s.teams.find t).map (·.ctx)).toList
  let op (o : Nat) : List Nat := match s.ops.find o with | some x => team x.team | none => []
  let vc (v : Nat) : List Nat := ((s.vcs.find v).map (·.ctx)).toList
  let blk (b : Nat) : List Nat := s.cores.flatMap (fun c => (c.2.merge.filter (fun x => x.id == b)).map (·.ctx))
  let reads := (l.reads ++ l.sent.filter (fun r => r.left != 0)).flatMap (fun r => match r.who with
    | .fill k => vc (k / 2 ^ 34)
    | .lane o _ => op o
    | .copy k => ((s.copies.find k).map (·.ctx)).toList)
  let writes := (l.writes ++ l.unacked).flatMap (fun w => match w.vc, w.waiter with
    | some v, _ => vc v
    | none, some b => blk b ++ op b ++ ((s.copies.find b).map (·.ctx)).toList
    | none, none => [])
  let zeros := l.zeros.flatMap (fun z => op z.op)
  let parked := s.ops.flatMap (fun o => match o.2.body with
    | .mem m => if m.accs.any (fun a => a.st == .stalled && laneLink s o.2 m { a with st := .miss } == some g) then team o.2.team else []
    | _ => [])
  (reads ++ writes ++ zeros ++ parked).eraseDups

/-- Context numbers in rising order. -/
def risingNats (xs : List Nat) : List Nat := xs.foldl insertRising []

/-- LINKDOWN (R476): a retrain has lasted 20 µs; one record to every context that is concerned. -/
def execLinkdown (s : State) : Host.Outcome State Fault Refusal :=
  onEvent (fun e s =>
    match (s.link e.a).st with
    | .retrain t =>
      if s.clock < t + 45000 then s else
      (risingNats (linkContexts s e.a)).foldl (fun (s : State) c => post s c 4 0xFFFFFFFF e.a (moduleRecord 0x22 e.a))
        (s.putLink e.a { s.link e.a with st := .down s.clock })
    | _ => s) s

/-- The lanes that a group parked are tried again, and their gang goes on (R475): a load asks for its data again, an atomic
still stands at its home slice. -/
def unstall (s : State) (g : Nat) (o : Op) (m : MemOp) : State :=
  let here (a : LaneAcc) : Bool := a.st == .stalled && laneLink s o m { a with st := .miss } == some g
  if !m.accs.any here then s else
  let m' := m.setLanes here (if m.kind.isAtomic then .miss else .ready)
  let s := s.setBody o.id (.mem { m' with posted := m.posted && m'.accs.any (fun a => a.st.soft) })
  s.onGroup o.team o.group (fun x => x.mapGangs (fun k => k.unpark o.id))

/-- LINK_LIVE (R473 to R475): the group carries slots again from the next one on, and what it parked is woken. A module whose
pairing values differ carries none (R496). -/
def execLinkLive (s : State) : Host.Outcome State Fault Refusal :=
  onEvent (fun e s =>
    let l := s.link e.a
    if l.st = .live ∨ 8 ≤ e.a ∨ s.mgmt.mismatch ∨ s.mgmt.booted < 3 then s else
    let s := s.putLink e.a { l with st := .live, sfcount := 0, frame := s.slot / 4096, reqSlot := s.slot + 1, repSlot := s.slot + 1,
                                    previous := none }
    s.ops.foldl (fun (s : State) (o : Nat × Op) => match o.2.body with
      | .mem m => unstall s e.a o.2 m
      | _ => s) s) s

/-! ## Words of major 0x3B (R480 to R487) -/

/-- The mask of the pairs for which p holds; bit k is pair k. -/
def Link.pairMask (l : Link) (p : Pair → Bool) : Nat :=
  l.pairs.zipIdx.foldl (fun n (x : Pair × Nat) => if p x.1 then n + 2 ^ (x.2 + 1) else n) 0

/-- A mask over the pairs, and what naming does to a pair (R470, R481). -/
def pairWord (a : Nat) (g : Nat) (act : Pair → Pair) (body : List Nat → OpBody) (s : State) : Host.Outcome State Fault Refusal :=
  issue { priv := true, sr := [(a, 1)], long := some false } (fun c gr run s =>
    let m := (gr.rf.S a).toNat
    if 256 ≤ m ∨ natBit m 0 then .fault { code := 0x03, lanes := c.lanes } s else
    let named := (List.range 7).filter (fun i => natBit m (i + 1))
    let l := s.link g
    let pairs := l.pairs.zipIdx.map (fun (x : Pair × Nat) => if named.contains x.2 then act x.1 else x.1)
    if pairs = l.pairs then .ok s
    else .ok ((s.putLink g { l with pairs := pairs }).longOp c run false (body named)).2) s

/-- LNKPARK (R470, R481). -/
def execLnkpark (a : BitVec 8) (g : BitVec 3) (s : State) : Host.Outcome State Fault Refusal :=
  pairWord a.toNat g.toNat (fun p => match p with
    | .active => .parkpend
    | .wakepend => .parked
    | .waking n _ => .waking n true
    | p => p) (.park g.toNat) s

/-- LNKWAKE (R470, R481). -/
def execLnkwake (a : BitVec 8) (g : BitVec 3) (s : State) : Host.Outcome State Fault Refusal :=
  pairWord a.toNat g.toNat (fun p => match p with
    | .parkpend => .active
    | .parked => .wakepend
    | .waking n _ => .waking n false
    | p => p) (.wake g.toNat) s

/-- The four words of LNKSTAT (R483). -/
def Link.stat (l : Link) : List Nat :=
  let st := match l.st with | .live => 0 | .retrain _ => 1 | .down _ => 2
  let held := ((l.sent ++ l.reads).filter (fun r => r.left != 0)).length
  [st * 2 ^ 30 + (1 + l.pairMask Pair.carries) * 2 ^ 16 +
     l.pairMask (fun p => match p with | .wakepend => true | .waking _ a => !a | _ => false) * 2 ^ 8 +
     l.pairMask (fun p => match p with | .parkpend => true | .waking _ a => a | _ => false),
   min l.waiting 0xFFFF * 2 ^ 16 + held, l.sfcount,
   l.retrains * 2 ^ 16 + (if l.swpend then 2 else 0) + (if l.standby.isSome then 1 else 0)]

/-- LNKSTAT (R483): the values are those at issue. -/
def execLnkstat (d : BitVec 8) (g : BitVec 3) (s : State) : Host.Outcome State Fault Refusal :=
  issue { priv := true, sw := [(d.toNat, 4)], bad := d.toNat % 4 ≠ 0, long := some true } (fun c _ run s =>
    .ok (s.longOp c run true (.ret d.toNat (s.link g.toNat).stat)).2) s

/-- The first n halfwords of a list of bytes. -/
def halfwords : Nat → List Byte → List Nat
  | 0, _ => []
  | n + 1, bs => leVal (bs.take 2) :: halfwords n (bs.drop 2)

/-- n entries of a table image from the i-th on (R484). -/
def imageTable (bs : List Byte) (i n : Nat) : List Nat := halfwords n (bs.drop (2 * i))

/-- The checks of a pair of tables (R463): reason and slot of the first that fails. -/
def tablesBad (req rep : List Nat) : Option (Nat × Nat) :=
  let qs := req.zipIdx
  let rs := rep.zipIdx
  let repMap : Map Nat := rs.map (fun e => (e.2, e.1))
  let own (e : Nat) : Bool := entryKind e == 0 || entryKind e == 3
  let bad1 := qs.find? (fun e => natBits e.1 0 5 != 0 || (entryKind e.1 != 1 && natBits e.1 5 3 != 0) || (own e.1 && entryClass e.1 != 0))
  let bad2 := rs.find? (fun e => natBits e.1 0 8 != 0 || (own e.1 && entryClass e.1 != 0))
  let bad3 := qs.find? (fun e => entryKind e.1 == 1 && (List.range (entrySize e.1)).any (fun i =>
    let r := repMap.getD ((e.2 + slotDelay + i) % 4096) 0
    entryKind r != 1 || entryClass r != entryClass e.1))
  let counts := (claims (qs.map (fun e => (e.2, e.1)))).foldl (fun (m : Map Nat) r => m.put (r % 4096) (m.getD (r % 4096) 0 + 1)) []
  let bad4 := counts.find? (fun e => decide (1 < e.2))
  let acks := (rep.filter (fun r => entryKind r == 2)).map entryClass |>.eraseDups
  let bad5 := qs.find? (fun e => entryKind e.1 == 2 && !acks.contains (entryClass e.1))
  match bad1, bad2, bad3, bad4, bad5 with
  | some e, _, _, _, _ => some (1, e.2)
  | _, some e, _, _, _ => some (2, e.2)
  | _, _, some e, _, _ => some (3, e.2)
  | _, _, _, some e, _ => some (4, e.1)
  | _, _, _, _, some e => some (5, e.2)
  | none, none, none, none, none =>
    if !req.any (fun e => entryKind e == 3) then some (6, 0)
    else if !rep.any (fun e => entryKind e == 3) then some (7, 0) else none

/-- A table of entries with the idle ones unlisted. -/
def sparse (es : List Nat) : Map Nat := es.zipIdx.filterMap (fun e => if e.1 = 0 then none else some (e.2, e.1))

/-- SLOTBAD with a reason and a slot (R463). -/
def tableFault (c : Cur) (reason slot : Nat) (s : State) : Eff := .fault { code := 0x23, datum := reason * 4096 + slot, lanes := c.lanes } s

/-- SLOTLD (R463, R484). -/
def execSlotld (a : BitVec 8) (g : BitVec 3) (s : State) : Host.Outcome State Fault Refusal :=
  issue { priv := true, sr := [(a.toNat, 2)], bad := odd a, long := some false } (fun c gr run s =>
    match s.teams.find c.team with
    | none => .ok s
    | some t =>
      let va := gr.rf.S64 a.toNat
      let l := s.link g.toNat
      if l.swpend then .fault { code := 0x03, lanes := c.lanes } s
      else if va.toNat % 4096 ≠ 0 then .fault { code := 0x08, lanes := c.lanes, faddr := va } s
      else match globalReadN 257 s t.ctx va 16384 with
      | (.page e, at?) => .stay (parkWord c t gr run s at? e)
      | (.wait s, _) => .stay s
      | (.stall _, _) => .stay s
      | (.bad code _, at?) =>
        let d := match walk s t.ctx at? .load with | .fault _ d => d | _ => 0
        .fault { code := code, datum := d, lanes := c.lanes, faddr := at? } s
      | (.ok bs s, _) =>
        let s := run.unpark s
        let req := imageTable bs 0 4096
        let rep := imageTable bs 4096 4096
        match tablesBad req rep with
        | some (r, k) => tableFault c r k s
        | none =>
          let s := s.putLink g.toNat { s.link g.toNat with standby := some ⟨sparse req, sparse rep⟩ }
          .ok ((s.longOp c run false .done).2.acquire c 4)) s

/-- Reply slots of the first superframe after a switch that both tables claim (R464). -/
def doubleClaims (old new : Map Nat) : List Nat :=
  let before := (claims old).filterMap (fun r => if 4096 ≤ r then some (r - 4096) else none)
  (claims new).filter (fun r => decide (r < 4096) && before.contains r)

/-- SLOTSW (R464, R485). -/
def execSlotsw (g : BitVec 3) (s : State) : Host.Outcome State Fault Refusal :=
  issue { priv := true, long := some false } (fun c _ run s =>
    let l := s.link g.toNat
    if l.swpend then .fault { code := 0x03, lanes := c.lanes } s else
    match l.standby with
    | none => tableFault c 9 0 s
    | some t =>
      match doubleClaims l.active.request t.request with
      | r :: rs => tableFault c 8 (rs.foldl min r) s
      | [] => .ok ((s.putLink g.toNat { l with swpend := true }).longOp c run false (.switch g.toNat)).2) s

/-- LNKTHR (R472, R482). -/
def execLnkthr (a : BitVec 8) (g : BitVec 3) (s : State) : Host.Outcome State Fault Refusal :=
  issue { priv := true, sr := [(a.toNat, 1)], long := some false } (fun c gr _ s =>
    let t := (gr.rf.S a.toNat).toNat
    if 65536 ≤ t then .fault { code := 0x03, lanes := c.lanes } s else
    let l := s.link g.toNat
    .ok (s.putLink g.toNat { l with thr := t, armed := decide (l.waiting < t) })) s

/-- LNKRETRAIN (R473, R486). -/
def execLnkretrain (g : BitVec 3) (s : State) : Host.Outcome State Fault Refusal :=
  issue { priv := true, long := some false } (fun c _ run s =>
    .ok ((startRetrain s g.toNat).longOp c run false (.retrain g.toNat)).2) s

/-- A LNKPARK or LNKWAKE is over when every named pair is where it was sent (R481); none while it waits. -/
def pairsDone (s : State) (o : Op) (g : Nat) (named : List Nat) (goal : Pair) : Option State :=
  if named.all (fun i => (s.link g).pairs[i]? == some goal) then some (finishOp s o.id [] 512) else none

/-- A SLOTSW is over once the switch has taken effect (R485). -/
def switchDone (s : State) (o : Op) (g : Nat) : Option State :=
  if (s.link g).swpend then none else some (finishOp s o.id [] 512)

/-- A LNKRETRAIN is over once the group is LIVE or DOWN (R486). -/
def retrainDone (s : State) (o : Op) (g : Nat) : Option State :=
  match (s.link g).st with
  | .retrain _ => none
  | _ => some (finishOp s o.id [] 512)

end Sys2Proof.Machine
end

