-- ==== Sys2Proof/Machine/Manage.lean ====
section
/-! DEFINITION. The management processor: boot, signed images, attestation, in-field test, heat, the restart of a command core,
and errors that storage takes (R285, R268, R194, R232, R454, R494 to R502). -/

namespace Sys2Proof.Machine

/-! ## Boot (R495 to R498) -/

/-- An image is accepted (R498): its signature verifies and its version is not below the stored minimum. -/
def imageOk (s : State) (i : SignedImage) : Bool :=
  xmssVerify i.bytes i.signature && decide (s.mgmt.minVersion ≤ i.version)

/-- The boot slot set (R497). -/
def bootTables : Tables :=
  let entry (i k1 k2 j1 j2 last : Nat) : Option (Nat × Nat) :=
    if i = last then some (i, 3 * 256) else if i % 4 = k1 then some (i, j1 * 256) else if i % 4 = k2 then some (i, j2 * 256) else none
  { request := (List.range 4096).filterMap (fun i => entry i 0 2 1 2 4095),
    reply := (List.range 4096).filterMap (fun i => entry i 0 1 1 2 4095) }

/-- A link group after boot step 3 (R495, R497): LIVE when it has trained. -/
def bootLink (trained : Bool) : Link := { Link.reset with st := if trained then .live else .down 0, active := bootTables }

/-- VC 0 of the boot state (R497). -/
def bootVc : Vc :=
  { ctx := 0, lsize := 1, assoc := 7, wpol := 0, repl := 0, lclass := 0, half := 0, shares := (List.range 128).map (24 * ·),
    clearing := [], old := none, moved := [], queued := [] }

/-- Context 0 of the boot state (R497). -/
def bootCtx (b : BootInput) : Ctx :=
  { Ctx.reset with v := true, ptroot := b.ptRoot, splbase := b.splBase, splcount := b.splCount, fqbase := b.fqBase, fqlog := b.fqLog }

/-- The descriptor of a command core's team (R13, R497): one group of W = 64; its registers are the whole of a core-half (log
entry 32). -/
def commandDesc (entry : DWord) : Desc := { probeDesc with entry := entry, slots := 16 }

/-- A command core starts in context 0 at an address (R497). The manual gives its team no handle: that it holds the die's
number is the model's choice (log entry 22). -/
def startCommand (s : State) (die : Nat) (entry : DWord) : State :=
  let d := commandDesc entry
  let g := { freshGroup d (s.ctx 0) true 0 s.now with core := 1792 + die, rows := List.range 512 }
  let id := 2 * (s.teamCtr + 1)
  let t : Team := { newTeam d id 0 die 0 0 s.clock .only none with
    handle := BitVec.ofNat 32 die, command := true, phase := .resident, begun := true, order := s.now, core := die, placedAt := s.clock,
    placeSeq := s.now, groups := [g] }
  { s with teamCtr := s.teamCtr + 1, teams := s.teams.put id t }

/-- What module reset leaves of the state before: what non-volatile storage holds (R498 to R500), the free values used up, and
what is still to come. -/
def afterReset (s : State) (b : Option BootInput) : State :=
  let keep := s.clusters.filter (fun c => c.2.door == .offline)
  { State.reset with
    agenda := s.agenda, freeCtr := s.freeCtr,
    clusters := keep.map (fun c => (c.1, { Cluster.reset with door := .offline })),
    mgmt := { State.reset.mgmt with minVersion := s.mgmt.minVersion, leaf := s.mgmt.leaf, boot := b,
                                    results := s.mgmt.results.filter (fun r => !r.2.1) } }

/-- Boot step 1: the image that the management processor runs, or none (R495). -/
def bootFirmware (s : State) (b : BootInput) : Option SignedImage :=
  if imageOk s b.firmware then some b.firmware else b.previous

/-- Boot step 4 (R495, R497): Marigold and the boot state reach the drawer through link group 0, and the command cores start. -/
def bootMarigold (s : State) (b : BootInput) : State :=
  let d := b.placed.foldl (fun (d : Drawer) p => d.write (cellsAt p.1 p.2)) s.drawer
  let s := { s with drawer := d, ctxs := [(0, bootCtx b)], vcs := [(0, bootVc)],
                    mgmt := { s.mgmt with booted := 4, marigold := some b.marigold, entry := b.entry } }
  (List.range 8).foldl (fun s die => startCommand s die b.entry) s

/-- MODULE_RESET (R495): the boot sequence, with what it meets as the subject; a failure stops it at its step. -/
def execModuleReset (s : State) : Host.Outcome State Fault Refusal :=
  onEvent (fun e s =>
    match e.boot with
    | none =>
      let r := afterReset s none
      { r with mgmt := { r.mgmt with recovery := true } }
    | some b =>
      let r := afterReset s (some b)
      match bootFirmware r b with
      | none => { r with mgmt := { r.mgmt with recovery := true } }
      | some fw =>
        let r := { r with mgmt := { r.mgmt with booted := 1, firmware := some fw } }
        if b.pairPackage ≠ b.pairDrawer then { r with mgmt := { r.mgmt with mismatch := true } } else
        let r := { r with mgmt := { r.mgmt with booted := 3 }, links := (List.range 8).map (fun g => (g, bootLink (b.trained.contains g))) }
        if !imageOk r b.marigold || !b.trained.contains 0 then r else bootMarigold r b) s

/-! ## The command-core level of the watchdog tree (R494) -/

/-- An operation acts on a user team and goes on when the command core that asked for it is reset: user teams carry on (R494). -/
def Op.outlives (o : Op) : Bool :=
  match o.body with
  | .evict _ _ false => true
  | .suspend _ _ => true
  | _ => false

/-- A command core is reset: what it ran and held is gone (R494). -/
def resetCommand (s : State) (die : Nat) : State :=
  let mine := (s.teams.filter (fun t => t.2.command && t.2.core == die)).map (·.1)
  let gone (i : Nat) : Bool := match s.ops.find i with | some o => mine.contains o.team | none => false
  { s with teams := s.teams.filter (fun t => !mine.contains t.1), ops := s.ops.filter (fun o => !mine.contains o.2.team || o.2.outlives),
           copies := s.copies.filter (fun k => !mine.contains k.2.team),
           monitors := s.monitors.filter (fun (m : Monitor) => match m.who with | .op i => !gone i | .copy _ => true),
           cores := s.cores.del (1792 + die), clusters := s.clusters.del (224 + die),
           mgmt := { s.mgmt with halted := s.mgmt.halted.filter (· != die), ccount := s.mgmt.ccount.del die } }

/-- COMMAND_CORE_WATCHDOG_EXPIRY (R494): the command core of the die is reset, every TRIP of the die is cleared, and Marigold
runs again from its verified image. -/
def execCommandCoreWatchdogExpiry (s : State) : Host.Outcome State Fault Refusal :=
  onEvent (fun e s =>
    let limit := (s.ccwd.getD e.a 0x0400).toNat % 2 ^ 16
    match s.mgmt.ccount.find e.a with
    | none => s
    | some since =>
      if limit = 0 ∨ s.clock < since + limit * 65536 then s else
      let s := resetCommand s e.a
      let s := { s with clusters := s.clusters.map (fun (c : Nat × Cluster) =>
        if c.1 < 224 ∧ c.1 / 28 = e.a then (c.1, { c.2 with clwd := c.2.clwd &&& 0xFFFEFFFF }) else c) }
      match s.mgmt.marigold with
      | some _ => startCommand s e.a s.mgmt.entry
      | none => s) s

/-! ## Attestation (R499) -/

/-- Clusters that are recorded offline (R500). -/
def offlineClusters (s : State) : List Nat := (s.clusters.filter (fun c => c.2.door == .offline)).map (·.1)

/-- Hash of an image, or none. -/
def imageHash : Option SignedImage → List Byte
  | some i => shake256 i.bytes
  | none => []

/-- What a report signs, in the order in which R499 names it. -/
def reportBody (s : State) (nonce : List Byte) (leaf : Nat) : List Byte :=
  nonce ++ bytesLE 4 leaf ++ imageHash s.mgmt.firmware ++ imageHash s.mgmt.marigold ++
  s.mgmt.packages.flatMap (fun p => imageHash (some p)) ++ [if s.mgmt.mismatch then 1 else 0] ++
  (offlineClusters s).map (fun n => BitVec.ofNat 8 n)

/-- ATTESTATION_REQUEST (R499): the index of the next leaf is advanced before the signature is released; with no leaf left the
module refuses reports. -/
def execAttestationRequest (s : State) : Host.Outcome State Fault Refusal :=
  onEvent (fun e s =>
    if e.raw.length ≠ 32 then s else
    if 2 ^ 20 ≤ s.mgmt.leaf then { s with mgmt := { s.mgmt with refusing := true } } else
    let body := reportBody s e.raw s.mgmt.leaf
    { s with mgmt := { s.mgmt with leaf := s.mgmt.leaf + 1,
                                   reports := s.mgmt.reports ++ [body ++ Config.xmssSign s.mgmt.leaf body] } }) s

/-! ## In-field test (R500) -/

/-- FOXGLOVE_PACKAGE_LOAD (R498, R500): a package that verifies is loaded; any other is refused. -/
def execFoxglovePackageLoad (s : State) : Host.Outcome State Fault Refusal :=
  onEvent (fun e s =>
    match e.image with
    | some p => if imageOk s p ∧ p.cluster < 224 then { s with mgmt := { s.mgmt with packages := s.mgmt.packages ++ [p] } } else s
    | none => s) s

/-- IN_FIELD_SCAN (R500): the subject is the cluster and whether it passes. The scan needs a package for the cluster and a
cluster that is closed and empty; it tests the bank pool only when every bank is free. -/
def execInFieldScan (s : State) : Host.Outcome State Fault Refusal :=
  onEvent (fun e s =>
    let cl := s.cluster e.a
    let named := s.mgmt.packages.any (fun p => p.cluster == e.a)
    if !named ∨ (cl.door ≠ .closed ∧ cl.door ≠ .offline) ∨ !(residents s e.a).isEmpty then s else
    let pool := (List.range 64).all (fun b => (cl.bank b).st == .free)
    let s := { s with mgmt := { s.mgmt with results := s.mgmt.results ++ [(e.a, e.flag, pool)] } }
    if e.flag then s else s.putCluster e.a { cl with door := .offline }) s

/-! ## Heat (R502) -/

/-- THERMAL_THROTTLE (R501, R502): a die above 100 °C; the grant of issue clocks is time only. -/
def execThermalThrottle (s : State) : Host.Outcome State Fault Refusal :=
  onEvent (fun e s => { s with mgmt := { s.mgmt with hot := insertRising s.mgmt.hot e.a } }) s

/-- THERMAL_THROTTLE_RELEASE (R502). -/
def execThermalThrottleRelease (s : State) : Host.Outcome State Fault Refusal :=
  onEvent (fun e s => { s with mgmt := { s.mgmt with hot := s.mgmt.hot.filter (· != e.a) } }) s

/-- THERMAL_SHUTDOWN (R502): a record to every defined context; what it says beside its source is left open. Power goes after
1 ms. -/
def execThermalShutdown (s : State) : Host.Outcome State Fault Refusal :=
  onEvent (fun _ s =>
    if s.mgmt.shutdownAt.isSome then s else
    let (n, s) := s.free
    let cs := (s.ctxs.filter (fun c => c.2.v)).map (·.1)
    let r := moduleRecord (n % 256) (n / 256 % 65536)
    let s := cs.foldl (fun (s : State) c => post s c 6 0xFFFFFFFF 0 r) s
    { s with mgmt := { s.mgmt with shutdownAt := some (s.clock + 2250000) } }) s

/-- THERMAL_POWER_REMOVAL (R502): 1 ms after the records. -/
def execThermalPowerRemoval (s : State) : Host.Outcome State Fault Refusal :=
  onEvent (fun _ s =>
    match s.mgmt.shutdownAt with
    | some k => if s.clock < k then s else { s with mgmt := { s.mgmt with powered := false } }
    | none => s) s

/-! ## Storage errors (R194, R232, R268, R285, R454) -/

/-- An error in a sector at its home (R285). -/
def sectorError (s : State) (key : Nat) (double : Bool) : State :=
  match s.homes.find key with
  | none => s
  | some x =>
    let held : State := { s with homes := s.homes.put key (if double then { x with poison := true } else { x with weak := true }) }
    match x.st with
    | .dirty => held
    | .prov _ _ => held
    | .clean => { s with homes := s.homes.del key }
    | .sealed => { s with homes := s.homes.del key }
    | _ => s

/-- A lane register of a group takes an error. -/
def laneError (s : State) (team group : Nat) (f : RegFile → RegFile) : State :=
  s.onGroup team group (fun g => { g with rf := f g.rf })

/-- STORAGE_BIT_ERROR: an error arises at a site; what it leads to shows at the next read. -/
def execStorageBitError (s : State) : Host.Outcome State Fault Refusal :=
  onEvent (fun e s =>
    match e.site with
    | none => s
    | some (.slice vc sector double) => sectorError s (vc * 2 ^ 34 + sector % 2 ^ 34) double
    | some (.bank c b w double) => s.onBank c b (fun x =>
        if double then { x with bad := insertRising x.bad w } else { x with weak := insertRising x.weak w })
    | some (.l1 core line word) =>
      let k := s.core core
      s.putCore core { k with l1 := k.l1.map (fun (l : L1Line) => if l.line = line then { l with bad := insertRising l.bad word } else l) }
    | some (.stack sector double) =>
      { s with drawer := if double then { s.drawer with poison := insertRising s.drawer.poison sector }
                         else { s.drawer with weak := insertRising s.drawer.weak sector } }
    | some (.residue t g r l) => laneError s t g (fun rf =>
        let x := rf.v.getD (r * 64 + l) VWord.zero
        rf.setRaw r l ⟨x.val, if residue x.val = 2 then 0 else residue x.val + 1⟩)
    | some (.parityX t g r l) => laneError s t g (fun rf => { rf with xbad := insertRising rf.xbad (r * 64 + l) })
    | some (.parityQ t g r l) => laneError s t g (fun rf => { rf with qbad := insertRising rf.qbad (r * 64 + l) })
    | some (.unit t g l) => s.onGroup t g (fun g => { g with unitBad := insertRising g.unitBad l })) s

end Sys2Proof.Machine
end

