-- ==== Sys2Proof/Machine/Traffic.lean ====
section
/-! DEFINITION. The traffic of the access engine and the slices (R39 to R58, R226 to R251, R282, R300): when loads, stores and
atomics are performed, fills, walks and parks, and the completion of every long-latency operation (R86). -/

namespace Sys2Proof.Machine

/-! ## Ordering (R45 to R52) -/

/-- A load, or an atomic that orders as one (R45, R56). -/
def MemOp.loads (m : MemOp) : Bool :=
  match m.kind with
  | .load => true
  | .loadU => true
  | .atom _ => m.mods.use != 3
  | _ => false

/-- A lane that is not over holds back a later load of its group (R45). One that waits on PAGE or LINKSTALL holds back only a load of
the bytes that it names (R41; log entry 28). -/
def LaneAcc.holdsBack (x : LaneAcc) (n : Nat) (a : LaneAcc) (k : Nat) : Bool :=
  !x.st.ended && (!x.st.soft || (decide (x.va.toNat < a.va.toNat + k) && decide (a.va.toNat < x.va.toNat + n)))

/-- The lanes of one load are performed block by block, in the order of the lowest lane that touches each (R39, R227). -/
def MemOp.laneTurn (m : MemOp) (a : LaneAcc) : Bool :=
  let low (x : LaneAcc) : Nat := ((m.accs.filter (fun y => y.range m.space == x.range m.space)).map (·.lane)).headD 0
  m.accs.all (fun x => !x.holdsBack m.bytes a m.bytes ||
    (if x.range m.space = a.range m.space then decide (a.lane ≤ x.lane) else decide (low a < low x)))

/-- A lane of a load may be performed (R45, R50, R52): older loads of its group and earlier lanes first, older acquires of its
group first, and for a seq-cst load older seq-cst stores. -/
def loadReady (s : State) (t : Team) (g : Group) (o : Op) (m : MemOp) (a : LaneAcc) : Bool :=
  let mine (b : Block) : Bool := b.team == t.id && b.group == g.id && decide (b.id < o.id) && b.mods.order == 4
  m.laneTurn a &&
  !olderOp s t.id g.id o.id (fun k => match k.body with
    | .mem n => n.loads && n.accs.any (fun x => x.holdsBack n.bytes a m.bytes)
    | _ => false) &&
  (m.mods.use == 1 || !acquiresOut s t.id g.id o.id) &&
  (m.mods.order != 4 || !(g.fifo.any mine || (heldBlocks t g).any mine || (s.mergePoint g.core).any mine))

/-- The group's oldest block may pass to the merge point (R45, R49, R50). -/
def mergeReady (s : State) (t : Team) (g : Group) (b : Block) : Bool :=
  !olderOp s t.id g.id b.op (fun k => match k.body with
    | .mem n => n.loads && n.open?
    | .fence order scope => releases order && b.mods.use != 1 && !releaseDone s t g scope k.id
    | _ => false) &&
  (b.mods.use == 1 || !acquiresOut s t.id g.id b.op) &&
  (!releases b.mods.order || releaseDone s t g b.mods.scope b.op)

/-! ## Forwarding (R43, R44, R235) -/

/-- Scratch and sync space are one storage. -/
def sameSpace (a b : Space) : Bool :=
  a == b || ((a == .scratch || a == .sync) && (b == .scratch || b == .sync))

/-- The byte that a block holds for an address. -/
def Block.holds (b : Block) (sp : Space) (vc pa : Nat) : Option Byte :=
  if sameSpace b.space sp && (sp != .global || b.vc == vc) then lastCell b.cells pa else none

/-- A block whose bytes are what memory will hold. -/
def Block.plain (b : Block) : Bool :=
  match b.kind with
  | .store => true
  | .swinit _ _ => true
  | _ => false

/-- The newest byte for an address in a list of blocks, oldest first. -/
def newest (bs : List Block) (sp : Space) (vc pa : Nat) : Option Byte :=
  bs.foldl (fun (r : Option Byte) b => if b.plain then (match b.holds sp vc pa with | some x => some x | none => r) else r) none

/-- A block written inside a level that another team's group may not see (R70). -/
def foreignBlock (s : State) (team : Nat) (b : Block) : Bool :=
  b.level != 0 && b.team != team && !sameConversation s b.team team

/-- The bytes of a lane's load that its group's FIFO and the merge point give; none while it waits for an atomic of its
group, a raise, or a block it may not see (R70, R235, R301); a seq-cst load waits until what other groups have stored is performed
(R52). -/
def forward (s : State) (t : Team) (g : Group) (o : Op) (m : MemOp) (a : LaneAcc) : Option (List (Option Byte)) :=
  let pas := (List.range m.bytes).map (a.pa + ·)
  let over? (b : Block) : Bool := pas.any (fun p => (b.holds m.space a.vc p).isSome)
  let own := (g.fifo ++ heldBlocks t g).filter (fun b => decide (b.id < o.id))
  let mp := s.mergePoint g.core
  let mine (b : Block) : Bool := b.team == t.id && b.group == g.id && decide (b.id < o.id)
  let raise (b : Block) : Bool := match b.kind with | .swadd _ => true | _ => false
  if own.any (fun b => over? b && !b.plain) ||
      mp.any (fun b => over? b && (raise b || foreignBlock s t.id b || (mine b && !b.plain) ||
        (m.mods.order == 4 && !(b.team == t.id && b.group == g.id)))) ||
      (s.core (s.mergeKey g.core)).comm.any (fun b => over? b && mine b) then none
  else some (pas.map (fun p => match newest own m.space a.vc p with
    | some x => some x
    | none => newest mp m.space a.vc p))

/-- Bytes with those that forwarding gives laid over them. -/
def overBytes (fs : List (Option Byte)) (bs : List Byte) : List Byte :=
  fs.zipIdx.map (fun (f : Option Byte × Nat) => f.1.getD (bs.getD f.2 0))

/-! ## The end of a lane -/

/-- The stores of other groups whose bytes a lane's load returns: a later release of its group waits for them (R49). -/
def observed (s : State) (g : Group) (o : Op) (m : MemOp) (a : LaneAcc) : List (Nat × Nat) :=
  let mp := s.mergePoint g.core
  let over? (b : Block) : Bool := (List.range m.bytes).any (fun i => (b.holds m.space a.vc (a.pa + i)).isSome)
  g.seen.filter (fun x => mp.any (fun b => b.id == x.1)) ++
    (mp.filter (fun b => over? b && !(b.team == o.team && b.group == o.group))).map (fun b => (b.id, o.id))

/-- An access has acquired at clus or wider scope: the group's ACQT (R47, R229). -/
def acquireWide (s : State) (o : Op) (m : MemOp) : State :=
  match s.teams.find o.team with
  | some t => if acquires m.mods.order && decide (3 ≤ t.scope m.mods.scope) then
      s.onGroup o.team o.group (fun (g : Group) => { g with acqt := s.clock }) else s
  | none => s

/-- A lane's data come: registers are written, and an acquire at clus or wider sets ACQT (R223, R229). -/
def bindData (s : State) (o : Op) (m : MemOp) (a : LaneAcc) (bs : List Byte) : State :=
  let s := (acquireWide s o m).onGroup o.team o.group (fun (g : Group) =>
    { g.bindLane m.kind m.tag m.regs a.lane a.reg bs with seen := observed s g o m a })
  laneOver (setLane s o m a.lane (fun a => { a with st := .bound, data := bs })) o.id

/-- A lane ends with a fault that it met at delivery. -/
def lateLane (s : State) (o : Op) (m : MemOp) (lane code datum : Nat) : State :=
  laneOver (setLane s o m lane (fun a => { a with st := .faulted code datum })) o.id

/-! ## L1 (R228 to R233) -/

/-- A line that a group's load may use (R229). -/
def L1Line.live (l : L1Line) (clock acqt : Nat) : Bool := l.sealed || (decide (clock < l.filled + 2048) && decide (acqt < l.filled))

/-- The line of an address in the portion that serves a core. -/
def State.l1Line (s : State) (core vc pa : Nat) : Option L1Line :=
  (s.core (s.l1Key core pa)).l1.find? (fun l => l.vc == vc && l.line == pa / 256)

/-- A corrected error of a core's L1 is counted (R232). -/
def State.countL1 (s : State) (core : Nat) : State :=
  if 1792 ≤ core then s else
  let c := s.cluster (core / 8)
  let n : Word := BitVec.ofNat 32 (min 0xFFFF ((c.cecore.getD (core % 8) 0).toNat + 1))
  s.putCluster (core / 8) { c with cecore := c.cecore.setD (core % 8) n 0 }

/-- A load's bytes in L1; a line in which a word of them has a parity error is dropped, and the error counted (R229, R232). -/
def l1Read (s : State) (g : Group) (m : MemOp) (a : LaneAcc) : Option (List Byte) × State :=
  if m.mods.cpol = 4 then (none, s) else
  match s.l1Line g.core a.vc a.pa with
  | none => (none, s)
  | some l =>
    if !l.live s.clock g.acqt then (none, s) else
    match l.sectors.find (a.pa / 64 % 4) with
    | none => (none, s)
    | some x =>
      if l.bad.any (fun w => decide (a.pa % 256 / 4 ≤ w) && decide (w ≤ (a.pa % 256 + m.bytes - 1) / 4)) then
        (none, (s.onLine g.core a.vc a.pa (fun l => { l with sectors := [] })).countL1 (s.l1Key g.core a.pa))
      else
        (some ((List.range m.bytes).map (fun i => x.getD (a.pa % 64 + i) 0)),
         s.onLine g.core a.vc a.pa (fun l => { l with prio := policyPrio m.mods.cpol, used := s.clock }))

/-- The set of a line has no free way: the line of lowest priority, then of least recent use, goes (R228). -/
def l1Room (s : State) (core pa : Nat) : State :=
  let k := s.l1Key core pa
  let c := s.core k
  let set := c.l1.filter (fun l => s.l1Set core l.line == s.l1Set core (pa / 256))
  if set.length < 8 then s else
  match set with
  | [] => s
  | x :: xs =>
    let v := xs.foldl (fun (a : L1Line) (l : L1Line) => if l.prio < a.prio ∨ (l.prio = a.prio ∧ l.used < a.used) then l else a) x
    s.putCore k { c with l1 := c.l1.filter (fun l => l != v) }

/-- A sector comes into the L1 that serves a core, with the merge point's stores over it (R229 to R231). Provisional sectors,
and sectors that the core holds an atomic or a write inside a level for, are not kept, nor is what bypasses L1: the sector that is
there goes, so that no later load finds what this one has left behind (R41). fresh says that the load may not use the line that is
there. -/
def fillL1 (s : State) (core vc pa : Nat) (sealed : Bool) (cpol acqt : Nat) (fresh : Bool) : State :=
  let base := pa / 64 * 64
  let here (b : Block) : Bool := b.space == .global && b.vc == vc && b.cells.any (fun c => c.1 / 64 == pa / 64)
  let mp := (s.mergePoint core).filter here
  let prov := match s.homes.find (homeKey vc pa) with | some x => (match x.st with | .prov _ _ => true | _ => false) | none => false
  if cpol == 3 || cpol == 4 || prov || mp.any (fun b => b.level != 0 || !b.plain) || (s.core (s.mergeKey core)).comm.any here then
    s.dropSector core vc pa
  else
  let bs := overBytes ((List.range 64).map (fun i => newest mp .global vc (base + i))) (homeBytes s vc 64 base)
  let x : Map Byte := bs.zipIdx.foldl (fun (m : Map Byte) (b : Byte × Nat) => m.setD b.2 b.1 0) []
  let i := pa / 64 % 4
  match s.l1Line core vc pa with
  | some l =>
    if !fresh && l.live s.clock acqt then
      s.onLine core vc pa (fun (l : L1Line) =>
        { l with sectors := l.sectors.put i x, bad := l.bad.filter (fun w => w / 16 != i), prio := policyPrio cpol, used := s.clock })
    else s.onLine core vc pa (fun (l : L1Line) =>
      { l with sealed := sealed, filled := s.clock, prio := policyPrio cpol, used := s.clock, sectors := [(i, x)], bad := [] })
  | none =>
    let s := l1Room s core pa
    let k := s.l1Key core pa
    let c := s.core k
    let l : L1Line :=
      { vc := vc, line := pa / 256, sealed := sealed, filled := s.clock, prio := policyPrio cpol, used := s.clock,
        sectors := [(i, x)], bad := [] }
    s.putCore k { c with l1 := l :: c.l1 }

/-! ## Reads that bypass or miss the slices (R283, R454, R460) -/

/-- The die whose link group serves a core. -/
def coreDie (core : Nat) : Nat := if 1792 ≤ core then core - 1792 else core / 224

/-- The read at the port that an operation has asked for in a block. -/
def LinkRead.isFor (r : LinkRead) (op block : Nat) : Bool :=
  r.block == block && (match r.who with | .lane k _ => k == op | _ => false)

/-- Lanes of a block that are not over. -/
def MemOp.inBlock (m : MemOp) (block : Nat) : List LaneAcc := m.accs.filter (fun a => !a.st.ended && a.pa / 256 == block)

/-- Applies a function to every link group. -/
def State.allLinks (s : State) (f : Link → Link) : State := { s with links := s.links.map (fun (l : Nat × Link) => (l.1, f l.2)) }

/-- Reads at the port go, but for those that hold entries of the drawer. -/
def dropReads (s : State) (p : LinkRead → Bool) : State :=
  s.allLinks (fun l =>
    { l with sent := l.sent.filter (fun r => !p r), reads := l.reads.filter (fun r => !(p r && r.left == 0)) }.rearm)

/-- A reply that an operation waits for has come: its lanes of the block are bound, or take UNCORR. A drawer-direct one gives what
the drawer gave; one that has come through a home slice, what the slice has by now (R39, R454). -/
def bindBlock (s : State) (o : Op) (m : MemOp) (block : Nat) (r : LinkRead) : State :=
  let s := dropReads s (fun x => x.isFor o.id block)
  (m.inBlock block).foldl (fun (s : State) (a : LaneAcc) =>
    match (s.ops.find o.id).map (fun (k : Op) => k.body) with
    | some (.mem m) =>
      if r.poison.contains (a.pa / 64 % 4) then lateLane s o m a.lane 0x17 0
      else bindData s o m a (if m.space = .global then homeBytes s a.vc m.bytes a.pa else
        (List.range m.bytes).map (fun i => r.bytes.getD (a.pa % 256 + i) 0))
    | _ => s) s

/-- The reply of an operation for a block that has come. -/
def replyFor (s : State) (op block : Nat) : Option LinkRead :=
  (s.links.flatMap (fun l => l.2.sent)).find? (fun r => r.isFor op block && replyHere s r)

/-- Asks for a block of an operation through a link group: one read for its lanes in the block, by their lowest lane, once no
older block of theirs is on its way and every earlier block has been asked for (R55, R227). -/
def askBlock (s : State) (t : Team) (g : Group) (o : Op) (m : MemOp) (block die cls : Nat) : State :=
  let ls := m.inBlock block
  let asked := s.links.any (fun l => (l.2.reads ++ l.2.sent).any (fun r => r.isFor o.id block))
  let clear (a : LaneAcc) : Bool := match forward s t g o m a with | some fs => fs.all (·.isNone) | none => false
  let low := (ls.map (·.lane)).headD 0
  let first := m.accs.all (fun a => decide (low ≤ a.lane) || a.st != .ready)
  if !asked && !(first && ls.all clear) then s else
  let s := if asked then s else
    queueRead s die (LinkRead.new cls block ((ls.map (fun a => 2 ^ (a.pa / 64 % 4))).foldl (fun x y => x ||| y) 0) (.lane o.id low))
  s.setBody o.id (.mem { m with accs := m.accs.map (fun (a : LaneAcc) =>
    if a.st == .ready && a.pa / 256 == block then { a with st := .miss } else a) })

/-! ## Loads where they are performed (R219 to R236, R268, R371) -/

/-- Bytes of a tile half from a byte offset on. -/
def tileBytes (x : Tile) (off n : Nat) : List Byte :=
  ((List.range ((off % 4 + n + 3) / 4)).flatMap (fun i => bytesLE 4 (x.acc.getD (off / 4 + i) 0).toNat)).drop (off % 4) |>.take n

/-- A load of scratch or sync space at its bank. -/
def loadScratch (s : State) (t : Team) (g : Group) (o : Op) (m : MemOp) (a : LaneAcc) : State :=
  match forward s t g o m a with
  | none => s
  | some fs =>
    let b := a.pa / 32768
    let off := a.pa % 32768
    match s.wakeBank t.pool b with
    | (false, s) => s
    | (true, s) =>
      let x := (s.cluster t.pool).bank b
      if x.bad.any (fun w => decide (off / 8 ≤ w) && decide (w ≤ (off + m.bytes - 1) / 8)) then lateLane s o m a.lane 0x17 b
      else bindData (s.correctBank t.pool b off m.bytes) o m a (overBytes fs (Memory.readN x.mem m.bytes off))

/-- A load of the drawer-direct space (R55): its reply, what is forwarded to it whole, or its request. -/
def loadDrawer (s : State) (t : Team) (g : Group) (o : Op) (m : MemOp) (a : LaneAcc) : State :=
  match replyFor s o.id (a.pa / 256) with
  | some r => bindBlock s o m (a.pa / 256) r
  | none =>
    match forward s t g o m a with
    | none => s
    | some fs =>
      if fs.all (·.isSome) then bindData s o m a (overBytes fs [])
      else askBlock s t g o m (a.pa / 256) (coreDie g.core) a.lclass

/-- Device space is read uncached, in the order of the group's accesses and of the lanes (R223). -/
def loadDevice (s : State) (t : Team) (g : Group) (o : Op) (m : MemOp) (a : LaneAcc) : State :=
  let mine (b : Block) : Bool := b.device && b.team == t.id && b.group == g.id && decide (b.id < o.id)
  let ahead := m.accs.any (fun x => decide (x.lane < a.lane) && !x.st.ended && decide (2 ^ 40 ≤ x.pa)) || g.fifo.any mine || (heldBlocks t g).any mine || (s.mergePoint g.core).any mine ||
    olderOp s t.id g.id o.id (fun k => match k.body with
      | .mem n => n.space == .global && n.accs.any (fun x => !x.st.ended && decide (2 ^ 40 ≤ x.pa))
      | _ => false)
  if ahead then s else bindData s o m a (devBytes s a.pa m.bytes)

/-- A load that finds no sector at the home slice asks for it, or, where it may not allocate, for the bytes alone (R283). -/
def missHome (s : State) (t : Team) (g : Group) (o : Op) (m : MemOp) (a : LaneAcc) (v : Vc) : State :=
  let wait (s : State) : State := setLane s o m a.lane (fun a => { a with st := .miss })
  let pending := match s.homes.find (homeKey a.vc a.pa) with | some x => (match x.st with | .pending _ => true | _ => false) | none => false
  if pending then wait s
  else if m.mods.cpol = 3 ∨ (makeRoom s a.vc a.pa).isNone then askBlock s t g o m (a.pa / 256) (s.homeDie a.vc a.pa) v.lclass
  else wait (startFill s a.vc a.pa (policyPrio m.mods.cpol))

/-- A load of global space beyond what is forwarded to it: L1, or the home slice; there it waits while another team's provisional
sector blocks it (R70). -/
def loadGlobal (s : State) (t : Team) (g : Group) (o : Op) (m : MemOp) (a : LaneAcc) : State :=
  match replyFor s o.id (a.pa / 256) with
  | some r => bindBlock s o m (a.pa / 256) r
  | none =>
    match forward s t g o m a with
    | none => s
    | some fs =>
      if fs.all (·.isSome) then bindData s o m a (overBytes fs []) else
      let home := acquires m.mods.order && decide (3 ≤ t.scope m.mods.scope)
      match if home then (none, s) else l1Read s g m a with
      | (some bs, s) => bindData s o m a (overBytes fs bs)
      | (none, s) =>
        match s.vcs.find a.vc with
        | none => lateLane s o m a.lane 0x11 0x50
        | some v =>
          if provBlocked s t.id (homeKey a.vc a.pa) then setLane s o m a.lane (fun a => { a with st := .miss }) else
          match s.wakeSlice a.vc a.pa with
          | (false, s) => s
          | (true, s) =>
            if !present s a.vc a.pa then missHome s t g o m a v
            else if homePoison s a.vc a.pa then lateLane s o m a.lane 0x17 0
            else
              let s := touchHome (s.correct a.vc a.pa) a.vc a.pa m.mods.cpol
              let bs := homeBytes s a.vc m.bytes a.pa
              bindData (fillL1 s g.core a.vc a.pa a.sealed m.mods.cpol g.acqt home) o m a (overBytes fs bs)

/-- A prefetch brings its sector to the slice and, for both, to L1; what a load would fault or wait for forever it leaves
(R247). -/
def loadPref (s : State) (t : Team) (g : Group) (o : Op) (m : MemOp) (a : LaneAcc) : State :=
  let done (s : State) : State := setLane s o m a.lane (fun a => { a with st := .bound })
  if 2 ^ 40 ≤ a.pa ∨ (s.vcs.find a.vc).isNone then done s
  else if provBlocked s t.id (homeKey a.vc a.pa) then s
  else match s.wakeSlice a.vc a.pa with
    | (false, s) => s
    | (true, s) =>
      if present s a.vc a.pa then
        (if m.tag = 0 && !homePoison s a.vc a.pa then
          done (fillL1 (touchHome s a.vc a.pa m.mods.cpol) g.core a.vc a.pa a.sealed m.mods.cpol g.acqt false)
         else done s)
      else if s.drawer.poison.contains (a.pa / 64) ∨ m.mods.cpol = 3 ∨
          ((makeRoom s a.vc a.pa).isNone ∧ !(match s.homes.find (homeKey a.vc a.pa) with | some x => x.st != .invalid | none => false)) then done s
      else setLane (askFill s a.vc a.pa m.mods.cpol) o m a.lane (fun a => { a with st := .miss })

/-- A load that is not to be performed yet may have its sector brought to the home slice. -/
def askAhead (s : State) (t : Team) (m : MemOp) (a : LaneAcc) : State :=
  if m.space != .global || decide (2 ^ 40 ≤ a.pa) || m.mods.cpol == 3 || present s a.vc a.pa || provBlocked s t.id (homeKey a.vc a.pa)
  then s else askFill s a.vc a.pa m.mods.cpol

/-- LOAD_REPLY (R223, R235): a lane of a load is performed where its bytes are, or goes on waiting. -/
def execLoadReply (s : State) : Host.Outcome State Fault Refusal :=
  onEvent (fun e s =>
    match s.ops.find e.a with
    | none => s
    | some o =>
      match o.body, s.teams.find o.team, s.group? o.team o.group with
      | .mem m, some t, some g =>
        (match m.accs.find? (fun (a : LaneAcc) => a.lane == e.b && (a.st == .ready || a.st == .miss)) with
        | none => s
        | some a =>
          if t.phase ≠ .resident then s else
          match m.kind with
          | .probe => bindData s o m a a.data
          | .pref => loadPref s t g o m a
          | .load | .loadU =>
            if !loadReady s t g o m a then askAhead s t m a else
            (match m.space with
            | .tile => if tileWaits s t (a.pa / 2 ^ 15) o.id then s else
                bindData s o m a (tileBytes (s.tileOf t (a.pa / 2 ^ 15) (g.core - t.core)) (a.pa % 2 ^ 15) m.bytes)
            | .scratch => loadScratch s t g o m a
            | .sync => loadScratch s t g o m a
            | .drawer => loadDrawer s t g o m a
            | .remote => s
            | .global => if 2 ^ 40 ≤ a.pa then loadDevice s t g o m a else loadGlobal s t g o m a)
          | _ => s)
      | _, _, _ => s) s

/-! ## Stores: the merge point (R228, R230, R234, R301) -/

/-- What a block does to the L1 copy of its bytes as it passes the merge point. -/
def mergeL1 (s : State) (core : Nat) (b : Block) : State :=
  if b.space ≠ .global ∨ b.device then s else
  let pa := (b.cells.headD (0, 0)).1
  let secs := (b.cells.map (fun c => c.1 / 64)).eraseDups
  if b.mods.cpol = 4 then s.onLine core b.vc pa (fun l => { l with sectors := [] })
  else if !b.plain ∨ b.level ≠ 0 then secs.foldl (fun (s : State) k => s.dropSector core b.vc (64 * k)) s
  else s.onLine core b.vc pa (fun (l : L1Line) =>
    { l with prio := policyPrio b.mods.cpol, used := s.clock,
             bad := l.bad.filter (fun w => !(List.range 4).all (fun i => b.cells.any (fun c => c.1 == l.line * 256 + 4 * w + i))),
             sectors := l.sectors.map (fun (x : Nat × Map Byte) => (x.1, (b.cells.filter (fun c => c.1 / 64 % 4 == x.1)).foldl
               (fun (m : Map Byte) c => m.setD (c.1 % 64) c.2 0) x.2)) })

/-- The merge point of a core has room for a block (R234). -/
def mergeRoom (s : State) (core : Nat) (b : Block) : Bool :=
  decide (entries (s.mergePoint core ++ [b]) ≤ (if s.mergeKey core ≠ core ∨ (core < 1792 ∧ (s.cluster (core / 8)).fused) then 1024 else 128))

/-- STORE_BLOCK_MERGE (R234): the group's oldest block passes to the merge point; a commutative contribution is combined in
L1 (R56), and a drawer-direct block sets out for the drawer. -/
def execStoreBlockMerge (s : State) : Host.Outcome State Fault Refusal :=
  onEvent (fun e s =>
    match s.teams.find e.a, s.group? e.a e.b with
    | some t, some g =>
      (match g.fifo with
      | [] => s
      | b :: rest =>
        let comm := b.mods.use == 2
        if !mergeReady s t g b || (!comm && !mergeRoom s g.core b) then s else
        let s := s.onGroup t.id g.id (fun g => { g with fifo := rest })
        let s := mergeL1 s g.core b
        let k := s.mergeKey g.core
        let c := s.core k
        let s := s.putCore k (if comm then { c with comm := c.comm ++ [b] } else { c with merge := c.merge ++ [b] })
        if b.space = .drawer then queueWrite s (coreDie g.core) b.lclass b.cells none false (some b.id) else s)
    | _, _ => s) s

/-! ## Stores and atomics where they are performed (R39, R269, R300, R389) -/

/-- The operation that a block stands for. -/
def Block.asOp (b : Block) : Op :=
  { id := b.op, team := b.team, group := b.group, gang := b.gang, iaddr := b.iaddr, lanes := b.lanes, flag := none,
    level := b.level, body := .done }

/-- A block that faults where it would be performed writes nothing. -/
def lateBlock (s : State) (b : Block) (code datum : Nat) : State :=
  takeLate (s.dropBlock b.id) b.asOp { code := code, datum := datum, lanes := b.lanes, faddr := b.va }

/-- The operations that an atomic block answers: its own and those of the trailing copy that follow it (R433). -/
def atomOps (s : State) (b : Block) : List Nat :=
  b.op :: (s.ops.filter (fun o => match o.2.body with | .mem m => m.lead == some b.op && o.1 != b.op | _ => false)).map (·.1)

/-- An atomic has been performed: the old value goes into the log of each copy, and to the lane where it is asked for; an acquiring
one at clus or wider scope sets ACQT (R52, R229). -/
def atomBound (s : State) (b : Block) (bs : List Byte) : State :=
  let one (s : State) (id : Nat) : State :=
    match s.ops.find id with
    | none => s
    | some o => (match o.body with
      | .mem m => (match m.kind, m.accs.find? (fun (a : LaneAcc) => a.lane == b.lane) with
        | .atom _, some a => if a.st.ended then s else bindData s o m a bs
        | .atomn _, some _ => laneOver (setLane (acquireWide s o m) o m b.lane (fun a => { a with st := .bound })) id
        | _, _ => laneOver s id)
      | _ => s)
  let fn := match (s.ops.find b.op).map (fun (o : Op) => o.body) with
    | some (.mem m) => if m.kind.returns then logAtom else logAtomn
    | _ => logAtomn
  let s := logDone s b.asOp fn b.lane (leVal bs)
  (atomOps s b).foldl one (s.dropBlock b.id)

/-- An atomic meets an uncorrectable sector or an undefined VC. -/
def atomLate (s : State) (b : Block) (code datum : Nat) : State :=
  if (s.ops.find b.op).isNone then lateBlock s b code datum else
  (atomOps s b).foldl (fun (s : State) id => match s.ops.find id with
    | some o => (match o.body with | .mem m => lateLane s o m b.lane code datum | _ => s)
    | none => s) (s.dropBlock b.id)

/-- A lane's atomic whose lane waits on LINKSTALL is not performed while its gang is parked (R245, R475). -/
def atomParked (s : State) (b : Block) : Bool :=
  match (s.ops.find b.op).map (fun (o : Op) => o.body) with
  | some (.mem m) => m.accs.any (fun a => a.lane == b.lane && a.st.soft)
  | _ => false

/-- One lane's atomic at its home, as one step (R300). -/
def atomAck (s : State) (b : Block) (op : Nat) (wide : Bool) : State :=
  if atomParked s b then s else
  let pa := (b.cells.headD (0, 0)).1
  let d := leVal (b.cells.map (·.2))
  let tag := if op = 8 then 0 else b.cmp
  let cmp := if op = 8 then b.cmp else 0
  if b.device then
    let bs := devBytes s pa (if wide then 8 else 4)
    match atomicNew op wide tag (leVal bs) d cmp with
    | some v => atomBound (devWrite s (cellsAt pa (bytesLE bs.length v))) b bs
    | none => atomBound s b bs
  else if (s.vcs.find b.vc).isNone then atomLate s b 0x11 0x50
  else match homeAtomic s b.team b.vc pa op wide tag d cmp b.mods.cpol with
    | .ok bs s =>
      let n := if wide then 8 else 4
      atomBound (if (atomicNew op wide tag (leVal bs) d cmp).isSome then hitRegions s b.ctx b.va.toNat n else s) b bs
    | .wait s => s
    | .bad code _ => atomLate s b code 0
    | _ => s

/-- A store's part in one sector at its home; the block is performed when no part is left. -/
def storeSector (s : State) (b : Block) (sec : Nat) : State :=
  let part := b.cells.filter (fun c => c.1 / 64 == sec)
  let rest := b.cells.filter (fun c => c.1 / 64 != sec)
  match s.wakeSlice b.vc (64 * sec) with
  | (false, s) => s
  | (true, s) =>
    match homeWrite s b.team b.level b.vc part b.mods.cpol with
    | .wait => s
    | .overflow => lateBlock s b 0x1C 0
    | .done s =>
      let s := part.foldl (fun (s : State) c => hitRegions s b.ctx (b.va.toNat / 256 * 256 + c.1 % 256) 1) s
      if rest.isEmpty then s.dropBlock b.id
      else s.allCores (fun c =>
        { c with merge := c.merge.map (fun (x : Block) => if x.id = b.id then { x with cells := rest } else x) })

/-- A block of scratch or sync space at its bank (R64, R269). -/
def bankAck (s : State) (t : Team) (b : Block) : State :=
  match s.wakeBank t.pool b.bank with
  | (false, s) => s
  | (true, s) =>
    let cells := b.cells.map (fun c => (c.1 % 32768, c.2))
    let o := (cells.headD (0, 0)).1
    let cells := match b.kind with
      | .swadd n => cellsAt o (syncRaise (Memory.readN ((s.cluster t.pool).bank b.bank).mem 16 o) n none)
      | _ => cells
    match bankWrite s t.id t.pool b.bank cells with
    | some s => s.dropBlock b.id
    | none => lateBlock s b 0x1C 2

/-- The words that a tile-space block writes. -/
def tileWords (b : Block) : List (Nat × Word) :=
  (b.cells.filter (fun c => c.1 % 4 == 0)).map (fun c => (c.1 % 2 ^ 15 / 4, BitVec.ofNat 32 (leVal ((List.range 4).map (fun i =>
    (lastCell b.cells (c.1 + i)).getD 0)))))

/-- A block has come to its home slice and waits there, on a provisional sector (R70) or, an atomic, on its fill. -/
def heldAtHome (s : State) (b : Block) : Bool :=
  b.cells.any (fun c => provBlocked s b.team (homeKey b.vc c.1)) ||
  (match b.kind with | .atomic _ _ => !present s b.vc (b.cells.headD (0, 0)).1 | _ => false)

/-- Two blocks go to one home slice: one source's requests arrive there in the order in which they have left (R281). -/
def sameSlice (s : State) (x b : Block) : Bool :=
  let slice (k : Block) (c : Host.Cell) : Option Nat := (s.vcs.find k.vc).map (fun v => v.slice c.1)
  x.cells.any (fun c => b.cells.any (fun d => slice x c == slice b d))

/-- A block of a merge point that another one has to wait for: one that covers the same bytes, one on its way to the same home
slice, one for the same bank (R269), or one of its group for device space (R223). -/
def blockAhead (s : State) (x b : Block) : Bool :=
  match b.space with
  | .scratch => sameSpace x.space .scratch && x.bank == b.bank
  | .sync => sameSpace x.space .scratch && x.bank == b.bank
  | .global => x.space == .global && ((x.device && b.device && x.team == b.team && x.group == b.group) ||
      (x.vc == b.vc && x.cells.any (fun c => b.cells.any (fun k => k.1 == c.1))) ||
      (!x.device && !b.device && sameSlice s x b && !heldAtHome s x))
  | .tile => false
  | _ => false

/-- A block at its destination; pick names the sector of a store that is performed. -/
def ackBlock (s : State) (b : Block) (pick : Nat) : State :=
  match s.teams.find b.team, s.group? b.team b.group with
  | some t, some g =>
    (match b.space with
    | .scratch => bankAck s t b
    | .sync => bankAck s t b
    | .tile =>
      let z := (b.cells.headD (0, 0)).1 / 2 ^ 15
      if tileWaits s t z b.op then s
      else (s.putTile t z (g.core - t.core) ((s.tileOf t z (g.core - t.core)).write (tileWords b))).dropBlock b.id
    | .drawer => if s.links.any (fun l => (l.2.writes ++ l.2.unacked).any (fun w => w.waiter == some b.id)) then s else s.dropBlock b.id
    | .remote => s.dropBlock b.id
    | .global =>
      (match b.kind with
      | .atomic op wide => atomAck s b op wide
      | _ =>
        if b.device then (devWrite s b.cells).dropBlock b.id
        else if (s.vcs.find b.vc).isNone then lateBlock s b 0x11 0x50
        else
          let secs := (b.cells.map (fun c => c.1 / 64)).eraseDups
          storeSector s b (secs.getD (pick % max 1 secs.length) 0)))
  | _, _ => s.dropBlock b.id

/-- STORE_ACKNOWLEDGE (R234): the subject is a merge point, a block that it holds, and which sector of the block. -/
def execStoreAcknowledge (s : State) : Host.Outcome State Fault Refusal :=
  onEvent (fun e s =>
    let mp := (s.core e.a).merge
    match mp.find? (fun b => b.id == e.b) with
    | none => s
    | some b => if (mp.takeWhile (fun x => x.id != b.id)).any (fun x => blockAhead s x b) then s else ackBlock s b e.c) s

/-- COMMUTATIVE_FLUSH (R56, R58): the contributions that a core's L1 has combined are performed, each exactly once. -/
def execCommutativeFlush (s : State) : Host.Outcome State Fault Refusal :=
  onEvent (fun e s => (s.core e.a).comm.foldl (fun (s : State) b => ackBlock s b 0) s) s

/-! ## Translation (R226, R237 to R250) -/

/-- The word that PROBE gives a lane (R250), from what one translation has met: its outcome, and whether a leaf was reached. -/
def probeWord (w : Walk) (reached : Bool) : Nat :=
  match w with
  | .ok l => l.vc * 2 ^ 24 + l.lclass * 2 ^ 18 + (if l.size = 2 ^ 16 then 0 else if l.size = 2 ^ 21 then 1 else 2) * 2 ^ 16 +
      (if l.sealed then 2 ^ 12 else 0) + l.perm * 2 ^ 9 + 2 ^ 8
  | .page _ => 0x10
  | .fault _ _ => (if reached then 2 ^ 8 else 0) + 0x11

/-- What a memory instruction needs of a leaf. -/
def MemKind.need : MemKind → Need
  | .store => .store
  | .storeU => .store
  | .atom _ => .both
  | .atomn _ => .both
  | _ => .load

/-- A lane whose translation has ended. What would stop a lane of a PREF, or of an instruction that its gang has abandoned, drops it
(R247, R187). -/
def translatedLane (m : MemOp) (a : LaneAcc) (w : Walk) (reached : Bool) : LaneAcc :=
  if m.kind = .probe then { a with st := .ready, data := bytesLE 4 (probeWord w reached) } else
  let stop (st : LaneState) : LaneAcc := { a with st := if m.kind = .pref ∨ m.loose then .dropped else st }
  match w with
  | .page e => stop (.parked e)
  | .fault code d => stop (.faulted code d)
  | .ok l =>
    if m.kind.isAtomic && l.sealed then stop (.faulted 0x12 0)
    else if m.space = .drawer ∧ 2 ^ 40 ≤ l.pa then stop (.faulted 0x11 0)
    else { a with pa := l.pa / 256 * 256 + a.va.toNat % 256, vc := l.vc, lclass := l.lclass, sealed := l.sealed,
                  psize := l.size, st := .ready }

/-- Some lane of a team on a cluster's cores waits for the walk of a page (R240). -/
def walkWanted (s : State) (cluster : Nat) (p : Nat × Nat) : Bool :=
  s.ops.any (fun o => match o.2.body, s.teams.find o.2.team, s.group? o.2.team o.2.group with
    | .mem m, some t, some g => t.ctx == p.1 && walkerOf g.core == cluster &&
        m.accs.any (fun a => a.st == .walk && a.va.toNat / 65536 == p.2)
    | _, _, _ => false)

/-- A TLB miss at the walkers of a cluster (R240): it joins the walk of its page or begins one where fewer than 64 are under way,
and a walk under way comes to its end. None while the lane waits. -/
def missWalk (s : State) (core ctx : Nat) (va : DWord) (need : Need) : Option (Walk × Bool) × State :=
  let k := walkerOf core
  let p := (ctx, va.toNat / 65536)
  let cl := s.cluster k
  if !cl.walks.contains p then
    let ws := cl.walks.filter (walkWanted s k)
    (none, if ws.length < 64 then s.putCluster k { cl with walks := ws ++ [p] } else s.putCluster k { cl with walks := ws })
  else
    match clusterWalk s k ctx va need with
    | (none, s) => (none, s)
    | (some r, s) =>
      let s := s.putCluster k { s.cluster k with walks := (s.cluster k).walks.filter (· != p) }
      (some r, match r.1 with | .ok l => s.keepLeaf core ctx l | _ => s)

/-- What a lane's address leads to: through its last-page register, the core TLB, or a walk (R226, R240); beside it, whether the
register alone has answered. None while it waits. -/
def laneWalk (s : State) (g : Group) (ctx lane : Nat) (va : DWord) (need : Need) : Option (Walk × Bool × Bool) × State :=
  match g.lastPage.find lane with
  | some e =>
    if e.covers ctx va.toNat then (some (leafCheck s ctx need (e.leafAt va), true, true), s) else miss s
  | none => miss s
where
  miss (s : State) : Option (Walk × Bool × Bool) × State :=
    match tlbHit s g.core ctx va with
    | (some e, s) => (some (leafCheck s ctx need (e.leafAt va), true, false), s)
    | (none, s) => let r := missWalk s g.core ctx va need; (r.1.map (fun x => (x.1, x.2, false)), r.2)

/-- TRANSLATION_WALK (R226, R239): the block of a lane is translated, once for all its lanes but those that find it in their
last-page register. The registers of the lanes keep the page (R240). -/
def execTranslationWalk (s : State) : Host.Outcome State Fault Refusal :=
  onEvent (fun e s =>
    match s.ops.find e.a with
    | none => s
    | some o =>
      match o.body, s.teams.find o.team, s.group? o.team o.group with
      | .mem m, some t, some g =>
        (match m.accs.find? (fun (a : LaneAcc) => a.lane == e.b && a.st == .walk) with
        | none => s
        | some a =>
          if t.phase ≠ .resident then s else
          match laneWalk s g t.ctx a.lane a.va m.kind.need with
          | (none, s) => s
          | (some (w, reached, own), s) =>
            let own? (x : LaneAcc) : Bool := match g.lastPage.find x.lane with | some p => p.covers t.ctx x.va.toNat | none => false
            let hit (x : LaneAcc) : Bool := x.st == .walk && (x.lane == a.lane ||
              (m.kind != .probe && !own && !own? x && x.va.toNat / 256 == a.va.toNat / 256))
            let s := match w with
              | .ok l =>
                let kept := (m.accs.filter hit).foldl (fun (p : Map Tlb) (x : LaneAcc) => p.put x.lane (l.asTlb t.ctx)) g.lastPage
                if m.kind = MemKind.probe then s else s.onGroup t.id g.id (fun (g : Group) => { g with lastPage := kept })
              | _ => s
            s.setBody o.id (.mem { m with accs := m.accs.map (fun (x : LaneAcc) => if hit x then translatedLane m x w reached else x) }))
      | _, _, _ => s) s

/-- A parked operation walks again: its lanes, or its gang's fetch (R245). -/
def State.unparkOp (s : State) (id : Nat) : State :=
  match s.ops.find id with
  | none => s
  | some o =>
    let s := match o.body with
      | .mem m => s.setBody id (.mem (m.setLanes (fun a => match a.st with | .parked _ => true | _ => false) .walk))
      | _ => s
    s.onGroup o.team o.group (fun (g : Group) => g.mapGangs (fun k => k.unpark id))

/-- PAGE_MONITOR_WAKE (R245, R327): the monitors of a sector that has been written wake who waits on them. -/
def execPageMonitorWake (s : State) : Host.Outcome State Fault Refusal :=
  onEvent (fun e s =>
    let who := (s.monitors.filter (fun (m : Monitor) => m.sector == e.a && m.fired)).map (·.who)
    let s := { s with monitors := s.monitors.filter (fun (m : Monitor) => !who.contains m.who) }
    who.foldl (fun (s : State) (w : Waiter) => match w with
      | .op i => s.unparkOp i
      | .copy i => { s with copies := s.copies.adjust i (fun (k : Copy) => if k.phase = .waiting then { k with phase := .active } else k) }) s) s

/-- WALK_RETRY_TIMER (R245): gangs of a group that found no monitor walk again when their time has come. -/
def execWalkRetryTimer (s : State) : Host.Outcome State Fault Refusal :=
  onEvent (fun e s =>
    match s.group? e.a e.b with
    | none => s
    | some g =>
      let due := g.allGangs.filterMap (fun (k : Gang) => match k.wait with
        | .timer i d => if d ≤ s.clock then some i else none
        | _ => none)
      due.foldl (fun (s : State) i => s.unparkOp i) { s with monitors := s.monitors.filter (fun (m : Monitor) =>
        !due.any (fun i => m.who == Waiter.op i)) }) s

/-! ## Slices (R236, R282, R294, R297, R303, R454) -/

/-- Accesses that waited for a sector whose fill came back poisoned take UNCORR. -/
def poisonWaiters (s : State) (vc pa : Nat) : State :=
  let lanes : List (Nat × Nat) := s.ops.flatMap (fun o => match o.2.body with
    | .mem m => if m.space ≠ .global ∨ m.kind.isStore then [] else
        (m.accs.filter (fun a => a.st == .miss && a.vc == vc && a.pa / 64 == pa / 64)).map (fun a => (o.1, a.lane))
    | _ => [])
  let s := lanes.foldl (fun (s : State) (x : Nat × Nat) => match s.ops.find x.1 with
    | some o => (match o.body with
      | .mem m => if m.kind = .pref then setLane s o m x.2 (fun a => { a with st := .dropped }) else lateLane s o m x.2 0x17 0
      | _ => s)
    | none => s) s
  let hit (b : Block) : Bool := b.space == .global && b.vc == vc && (match b.kind with | .atomic _ _ => true | _ => false) &&
    (b.cells.headD (0, 0)).1 / 64 == pa / 64
  let blocks : List Block := s.cores.flatMap (fun c => (c.2.merge ++ c.2.comm).filter hit)
  blocks.foldl (fun (s : State) b => atomLate s b 0x17 0) s

/-- A fill's sector at its home (R236, R282): the bytes that no write has marked; a poisoned one is not kept, and what was
written meanwhile goes to the drawer (R454). -/
def fillSector (s : State) (vc pa : Nat) (x : Sector) (written : DWord) (r : LinkRead) : State :=
  let i := pa / 64 % 4
  let key := homeKey vc pa
  if r.poison.contains i then
    let out : List Host.Cell := ((List.range 64).filter (fun j => written.getLsbD j)).map (fun j => (pa / 64 * 64 + j, x.bytes.getD j 0))
    let s := { s with homes := s.homes.del key }
    poisonWaiters (if out.isEmpty then s else queueVcWrite s vc out false) vc pa
  else
    let bytes := (List.range 64).foldl (fun (m : Map Byte) j =>
      if written.getLsbD j then m else m.setD j (r.bytes.getD (64 * i + j) 0) 0) x.bytes
    let back := match s.vcs.find vc with | some v => v.wpol == 0 | none => false
    { s with homes := s.homes.put key { x with st := if written ≠ 0 && back then .dirty else .clean, bytes := bytes, poison := false } }

/-- SECTOR_FILL_RETURN (R236): the subject is a VC and a sector; its reply has come over the port. -/
def execSectorFillReturn (s : State) : Host.Outcome State Fault Refusal :=
  onEvent (fun e s =>
    let pa := 64 * e.b
    let i := e.b % 4
    let mine (r : LinkRead) : Bool := r.who == .fill (e.a * 2 ^ 34 + pa / 256 * 4) && natBit r.mask i && replyHere s r
    let sweep (l : Link) : Link := { l with sent := l.sent.filter (fun r => !(r.mask == 0 && replyHere s r)) }
    match (s.links.flatMap (fun l => l.2.sent)).find? mine with
    | none => s.allLinks sweep
    | some r =>
      let s := s.allLinks (fun l => sweep { l with sent := mapUpTo mine (fun (x : LinkRead) => { x with mask := x.mask - 2 ^ i }) 1 l.sent })
      match s.homes.find (homeKey e.a pa) with
      | some x => (match x.st with | .pending w => fillSector s e.a pa x w r | _ => s)
      | none => s) s

/-- LINE_HANDOVER (R294): the subject is a VC and a line that moves to its new home. -/
def execLineHandover (s : State) : Host.Outcome State Fault Refusal := onEvent (fun e s => handOver s e.a e.b) s

/-- SHARE_CLEARING_DONE (R297): the subject is a VC and a share that joins it; clearing counts as an access (R286). -/
def execShareClearingDone (s : State) : Host.Outcome State Fault Refusal :=
  onEvent (fun e s =>
    match s.vcs.find e.a with
    | none => s
    | some v =>
      match v.clearing.find? (fun c => c.1 == e.b) with
      | none => s
      | some c => if s.clock < c.2 then s else
        { s with vcs := s.vcs.put e.a { v with clearing := v.clearing.filter (fun c => c.1 != e.b) },
                 sliceUse := s.sliceUse.setD (shareBank e.b) s.clock 0 }) s

/-- CMLR_RESERVATION_TIMEOUT (R303): the subject is a team and a group whose reservations have lasted 65,536 clocks. -/
def execCmlrReservationTimeout (s : State) : Host.Outcome State Fault Refusal :=
  onEvent (fun e s => s.onGroup e.a e.b (fun (g : Group) =>
    { g with resv := g.resv.map (fun (r : Resv) => if r.due ≤ s.clock then { r with lost := true } else r) })) s

/-! ## Completion (R86, R224, R248, R251, R301) -/

/-- A memory operation is over: it completes (R224, R247, R250, R301). Lanes of a store or atomic that are ready again while their
gang is elsewhere are handed over first. -/
def memDone (s : State) (o : Op) (m : MemOp) : State :=
  let mine (b : Block) : Bool := b.op == o.id
  let queued := match s.teams.find o.team, s.group? o.team o.group with
    | some t, some g => g.fifo.any mine || (heldBlocks t g).any mine
    | _, _ => false
  let wait := match m.kind with
    | .store => queued
    | .storeU => queued
    | .atomn _ => opBlocksOut s o.id
    | _ => false
  match s.teams.find o.team, s.group? o.team o.group with
  | some t, some g =>
    if m.kind.isStore && m.accs.any (fun a => a.st == .ready) && m.accs.all (fun a => a.st != .walk) && !g.awaits o.id then
      (sendLanes s t g o m).getD s
    else if m.open? || wait then s
    else (dropReads s (fun r => match r.who with | .lane k _ => k == o.id && r.left == 0 | _ => false)).completeOp o.id
  | _, _ => s.completeOp o.id

/-- A FENCE is over once its conditions hold (R248); the acquire part of an acq-rel one may be over first. -/
def fenceDone (s : State) (o : Op) (order scope : Nat) : State :=
  match s.teams.find o.team, s.group? o.team o.group with
  | some t, some g =>
    let acq (s : State) : State := if 3 ≤ t.scope scope then s.onGroup t.id g.id (fun (g : Group) => { g with acqt := s.clock }) else s
    let rel := releaseDone s t g scope o.id
    let full := rel && !storesOut s g t.id o.id true && !heldOut s t g o.id
    if order = 1 then (if loadsOut s t.id g.id o.id then s else (acq s).completeOp o.id)
    else if order = 2 then (if rel then s.completeOp o.id else s)
    else if order = 3 then (if loadsOut s t.id g.id o.id then s else
      if rel then (acq s).completeOp o.id else (acq s).setBody o.id (.fence 2 scope))
    else (if full then (acq s).completeOp o.id else s)
  | _, _ => s.completeOp o.id

/-- A drawer-direct write of a copy of some context is on its way to the drawer (R251). -/
def copyWritesOut (s : State) (hit : Nat → Bool) : Bool :=
  s.links.any (fun l => (l.2.writes ++ l.2.unacked).any (fun w => w.vc.isNone && (match w.waiter.bind s.copies.find with
    | some k => hit k.ctx
    | none => false)))

/-- The pages that an INVPG of kinds 0 to 2 is about (R251). -/
def invHits (kind ctx va : Nat) (c base size : Nat) : Bool :=
  kind == 2 || (c == ctx && (kind == 1 || (decide (base ≤ va) && decide (va < base + size))))

/-- The splinter of an INVPG of kind 3 (R242): the large page goes, or the pool is empty. -/
def invSplit (s : State) (o : Op) (ctx : Nat) (va : DWord) : State :=
  match s.wakeWalk ctx va with
  | (false, s) => s
  | (true, s) =>
    match walk s ctx va .any with
    | .ok l =>
      if l.size = 2 ^ 16 then s.completeOp o.id
      else (match splinter s ctx l with
        | some s => s.setBody o.id (.invpg 3 ctx va (some s.opCtr) l.size)
        | none =>
          let f : FaultInfo := { code := 0x11, datum := 2, lanes := o.lanes, faddr := va }
          match s.teams.find o.team, s.group? o.team o.group with
          | some t, some g =>
            let r : Record := { code := 0x11, kind := 0, inrun := true, replay := false, sysmode := g.sysmode, double := false,
                                group := g.id, num := 2, iaddr := o.iaddr, lanes := o.lanes, faddr := va }
            (takeLate (post s ctx 1 t.handle.toNat t.die r) o f).completeOp o.id
          | _, _ => s.completeOp o.id)
    | _ => s.completeOp o.id

/-- What an INVPG does (R242, R251): what it names leaves every cache of translations, and it is over once every access that has been
translated through it is performed. -/
def invpgDone (s : State) (o : Op) (kind ctx : Nat) (va : DWord) (since : Option Nat) (size : Nat) : State :=
  match since with
  | some n =>
    let hit (c base sz : Nat) : Bool := if kind = 3 then c == ctx && sz == size && base == va.toNat / max 1 size * max 1 size
      else invHits kind ctx va.toNat c base sz
    if pageBusy s true n hit || copyWritesOut s (fun c => kind == 2 || c == ctx) then s else s.completeOp o.id
  | none =>
    if kind = 3 then invSplit s o ctx va else
    (s.dropCached (fun e => invHits kind ctx va.toNat e.ctx e.base e.size) (fun p => invHits kind ctx va.toNat p.ctx p.base p.size)).setBody
      o.id (.invpg kind ctx va (some s.opCtr) size)

/-- A copy's word completes once the copy has been accepted (R323). -/
def acceptDone (s : State) (o : Op) (k : Nat) : State :=
  match s.copies.find k with
  | some c => if c.phase = .held then s else s.completeOp o.id
  | none => s.completeOp o.id

/-- The hidden operation of a fetch or word that parked is over once no gang needs it. -/
def fetchDone (s : State) (o : Op) : State :=
  match s.group? o.team o.group with
  | none => s.completeOp o.id
  | some g =>
    let uses (k : Gang) : Bool := (match k.wait with
      | .parked i => i == o.id | .timer i _ => i == o.id | .translate i => i == o.id | .replay i => i == o.id | _ => false) ||
      (match k.run with | some r => r.op == some o.id | none => false)
    if g.allGangs.any uses then s else s.completeOp o.id

/-- What an outstanding operation does next (R86); pick chooses among what may come first. -/
def opDone (s : State) (o : Op) (pick : Nat) : State :=
  match o.body with
  | .done => finishOp s o.id [] 512
  | .ret d vals => finishOp s o.id vals d
  | .follow l _ => if l ≠ o.id ∧ (s.ops.find l).isNone then finishOp s o.id [] 512 else s
  | .mem m => memDone s o m
  | .fetch _ => fetchDone s o
  | .fence order scope => fenceDone s o order scope
  | .at due => if due ≤ s.clock then finishOp s o.id [] 512 else s
  | .btake slot d => (btakeDone s o slot d).getD s
  | .bfree slot => (bfreeDone s o slot).getD s
  | .bgive slot bank _ _ m => (bgiveDone s o slot bank m).getD s
  | .bopen .. => s
  | .bdrain slots => (bdrainDone s o slots).getD s
  | .send ring src len none none => (sendRead s o ring src len).getD s
  | .send .. => s
  | .ringack ring n => (ringackDone s o ring n).getD s
  | .cmlr lines => (cmlrDone s o lines).getD s
  | .cmls d src lines => (cmlsDone s o d src lines).getD s
  | .seal ps on rw => (sealDone s o ps on rw).getD s
  | .wobseal d n key ps rw => (wobsealDone s o d n key ps rw).getD s
  | .wobrel key phase n ps => (wobrelDone s o key phase n ps).getD s
  | .discard ps sent => (discardDone s o ps sent).getD s
  | .flush ps sent => (flushDone s o ps sent).getD s
  | .vcundef n => (vcundefDone s o n).getD s
  | .vcresize n => (vcresizeDone s o n).getD s
  | .vcmove ps target n => (vcmoveDone s o ps target n).getD s
  | .invpg kind ctx va n size => invpgDone s o kind ctx va n size
  | .accept k => acceptDone s o k
  | .cseal _ => s
  | .ratom k _ => if (s.copies.find k).isNone then finishOp s o.id [] 512 else s
  | .wrevoke w => (wrevokeDone s o w).getD s
  | .qkick q v => (qkickDone s o q v).getD s
  | .launch q d addr inc => (launchDone s o q d addr inc).getD s
  | .stagearv r k => (stagearvDone s o r k).getD s
  | .evict team d terminate => (evictDone s o team d terminate).getD s
  | .suspend team d => (suspendDone s o team d).getD s
  | .closed cluster d => (closedDone s o cluster d).getD s
  | .matrix .. => s
  | .mcfg z w => (mcfgDone s o z w).getD s
  | .mzero z => (mzeroDone s o z).getD s
  | .tokpass .. => s
  | .tread z h e regs => (treadDone s o z h e regs).getD s
  | .twrite z h _ ws => (twriteDone s o z h ws).getD s
  | .tchk z h d clr nf => (tchkDone s o z h d clr nf).getD s
  | .mdrain z h a list posted todo => (mdrainDone s o z h a list posted todo pick).getD s
  | .park link pairs => (pairsDone s o link pairs .parked).getD s
  | .wake link pairs => (pairsDone s o link pairs .active).getD s
  | .switch link => (switchDone s o link).getD s
  | .retrain link => (retrainDone s o link).getD s

/-- LONG_LATENCY_COMPLETION (R86): an operation whose effect is over completes, its flag falls, and pending ranges end with
it; one whose effect is made of parts goes on. A word of a core-pair team waits for its match first (R434). -/
def execLongLatencyCompletion (s : State) : Host.Outcome State Fault Refusal :=
  onEvent (fun e s =>
    match s.ops.find e.a with
    | none => s
    | some o => if opHeld s o then s else opDone s o e.b) s

end Sys2Proof.Machine
end

