-- ==== Sys2Proof/Machine/Dispatch.lean ====
section
/-! DEFINITION. One arm for each constructor of Instr. -/

namespace Sys2Proof.Machine

def exec (i : Instr) (s : State) : Host.Outcome State Fault Refusal :=
  match i with
  | .clause wt a b l => Sys2Proof.Machine.execClause wt a b l s
  | .endrun c f n k g m => Sys2Proof.Machine.execEndrun c f n k g m s
  | .himm p v => Sys2Proof.Machine.execHimm p v s
  | .hopnd o => Sys2Proof.Machine.execHopnd o s
  | .mpfx o sg p c u n => Sys2Proof.Machine.execMpfx o sg p c u n s
  | .nop => Sys2Proof.Machine.execNop s
  | .hschedYield => Sys2Proof.Machine.execHschedYield s
  | .hschedPref => Sys2Proof.Machine.execHschedPref s
  | .sadd d a b => Sys2Proof.Machine.execSadd d a b s
  | .ssub d a b => Sys2Proof.Machine.execSsub d a b s
  | .smul d a b => Sys2Proof.Machine.execSmul d a b s
  | .smulh d a b => Sys2Proof.Machine.execSmulh d a b s
  | .sand d a b => Sys2Proof.Machine.execSand d a b s
  | .sor d a b => Sys2Proof.Machine.execSor d a b s
  | .sxor d a b => Sys2Proof.Machine.execSxor d a b s
  | .sandn d a b => Sys2Proof.Machine.execSandn d a b s
  | .sshl d a b => Sys2Proof.Machine.execSshl d a b s
  | .sshr d a b => Sys2Proof.Machine.execSshr d a b s
  | .ssar d a b => Sys2Proof.Machine.execSsar d a b s
  | .srot d a b => Sys2Proof.Machine.execSrot d a b s
  | .smin d a b => Sys2Proof.Machine.execSmin d a b s
  | .smax d a b => Sys2Proof.Machine.execSmax d a b s
  | .sminu d a b => Sys2Proof.Machine.execSminu d a b s
  | .smaxu d a b => Sys2Proof.Machine.execSmaxu d a b s
  | .sseq d a b => Sys2Proof.Machine.execSseq d a b s
  | .ssne d a b => Sys2Proof.Machine.execSsne d a b s
  | .sslt d a b => Sys2Proof.Machine.execSslt d a b s
  | .ssltu d a b => Sys2Proof.Machine.execSsltu d a b s
  | .ssle d a b => Sys2Proof.Machine.execSsle d a b s
  | .ssleu d a b => Sys2Proof.Machine.execSsleu d a b s
  | .ssel d a b => Sys2Proof.Machine.execSsel d a b s
  | .smov d a b => Sys2Proof.Machine.execSmov d a b s
  | .sli d k => Sys2Proof.Machine.execSli d k s
  | .sliu d imm => Sys2Proof.Machine.execSliu d imm s
  | .slih d imm => Sys2Proof.Machine.execSlih d imm s
  | .saddi d imm => Sys2Proof.Machine.execSaddi d imm s
  | .spopc d a => Sys2Proof.Machine.execSpopc d a s
  | .sclz d a => Sys2Proof.Machine.execSclz d a s
  | .sbrev d a => Sys2Proof.Machine.execSbrev d a s
  | .sbfe d a sg => Sys2Proof.Machine.execSbfe d a sg s
  | .sbfi d a => Sys2Proof.Machine.execSbfi d a s
  | .smovh h a => Sys2Proof.Machine.execSmovh h a s
  | .smovl d h => Sys2Proof.Machine.execSmovl d h s
  | .sadd64 d a => Sys2Proof.Machine.execSadd64 d a s
  | .ssub64 d a => Sys2Proof.Machine.execSsub64 d a s
  | .sshl64 d a => Sys2Proof.Machine.execSshl64 d a s
  | .sshr64 d a x => Sys2Proof.Machine.execSshr64 d a x s
  | .smulw d a sg => Sys2Proof.Machine.execSmulw d a sg s
  | .rdsr d n => Sys2Proof.Machine.execRdsr d n s
  | .wrsr n a => Sys2Proof.Machine.execWrsr n a s
  | .brs c sg o => Sys2Proof.Machine.execBrs c sg o s
  | .dbr q n t j => Sys2Proof.Machine.execDbr q n t j s
  | .call o => Sys2Proof.Machine.execCall o s
  | .loop sg o => Sys2Proof.Machine.execLoop sg o s
  | .ret => Sys2Proof.Machine.execRet s
  | .brx a => Sys2Proof.Machine.execBrx a s
  | .exit => Sys2Proof.Machine.execExit s
  | .regang a m => Sys2Proof.Machine.execRegang a m s
  | .bar => Sys2Proof.Machine.execBar s
  | .barp a b => Sys2Proof.Machine.execBarp a b s
  | .yield => Sys2Proof.Machine.execYield s
  | .sleep a => Sys2Proof.Machine.execSleep a s
  | .waitev d a => Sys2Proof.Machine.execWaitev d a s
  | .sigev a b => Sys2Proof.Machine.execSigev a b s
  | .trap n => Sys2Proof.Machine.execTrap n s
  | .syscall a n => Sys2Proof.Machine.execSyscall a n s
  | .grow a => Sys2Proof.Machine.execGrow a s
  | .shrink a => Sys2Proof.Machine.execShrink a s
  | .setpart p => Sys2Proof.Machine.execSetpart p s
  | .elect d q => Sys2Proof.Machine.execElect d q s
  | .eret sg => Sys2Proof.Machine.execEret sg s
  | .halt => Sys2Proof.Machine.execHalt s
  | .errinj a => Sys2Proof.Machine.execErrinj a s
  | .vadd d a b => Sys2Proof.Machine.execVadd d a b s
  | .vsub d a b => Sys2Proof.Machine.execVsub d a b s
  | .vmul d a b => Sys2Proof.Machine.execVmul d a b s
  | .vma d a b => Sys2Proof.Machine.execVma d a b s
  | .vmin d a b => Sys2Proof.Machine.execVmin d a b s
  | .vmax d a b => Sys2Proof.Machine.execVmax d a b s
  | .vmulh d a b => Sys2Proof.Machine.execVmulh d a b s
  | .vmad d a b => Sys2Proof.Machine.execVmad d a b s
  | .vand d a b => Sys2Proof.Machine.execVand d a b s
  | .vor d a b => Sys2Proof.Machine.execVor d a b s
  | .vxor d a b => Sys2Proof.Machine.execVxor d a b s
  | .vandn d a b => Sys2Proof.Machine.execVandn d a b s
  | .vsel n d a b => Sys2Proof.Machine.execVsel n d a b s
  | .vshl d a b => Sys2Proof.Machine.execVshl d a b s
  | .vshr d a b => Sys2Proof.Machine.execVshr d a b s
  | .vbfe d a b => Sys2Proof.Machine.execVbfe d a b s
  | .vbfi d a b => Sys2Proof.Machine.execVbfi d a b s
  | .vsadd d a b => Sys2Proof.Machine.execVsadd d a b s
  | .vssub d a b => Sys2Proof.Machine.execVssub d a b s
  | .vdot2 d a b => Sys2Proof.Machine.execVdot2 d a b s
  | .vdot4 d a b => Sys2Proof.Machine.execVdot4 d a b s
  | .vcmp c q a b => Sys2Proof.Machine.execVcmp c q a b s
  | .vcmpa c q a b => Sys2Proof.Machine.execVcmpa c q a b s
  | .vcmpo c q a b => Sys2Proof.Machine.execVcmpo c q a b s
  | .vcvt t r sg d a => Sys2Proof.Machine.execVcvt t r sg d a s
  | .vretag t d a => Sys2Proof.Machine.execVretag t d a s
  | .vmov d a => Sys2Proof.Machine.execVmov d a s
  | .vmovs d n => Sys2Proof.Machine.execVmovs d n s
  | .vli d imm => Sys2Proof.Machine.execVli d imm s
  | .vlane d => Sys2Proof.Machine.execVlane d s
  | .vtid d => Sys2Proof.Machine.execVtid d s
  | .vslice d => Sys2Proof.Machine.execVslice d s
  | .vactive d => Sys2Proof.Machine.execVactive d s
  | .pand d a b => Sys2Proof.Machine.execPand d a b s
  | .por d a b => Sys2Proof.Machine.execPor d a b s
  | .pxor d a b => Sys2Proof.Machine.execPxor d a b s
  | .pandn d a b => Sys2Proof.Machine.execPandn d a b s
  | .vrcp d a => Sys2Proof.Machine.execVrcp d a s
  | .vrsq d a => Sys2Proof.Machine.execVrsq d a s
  | .vsqrt d a => Sys2Proof.Machine.execVsqrt d a s
  | .vexp2 d a => Sys2Proof.Machine.execVexp2 d a s
  | .vlog2 d a => Sys2Proof.Machine.execVlog2 d a s
  | .vsin d a => Sys2Proof.Machine.execVsin d a s
  | .vcos d a => Sys2Proof.Machine.execVcos d a s
  | .vtanh d a => Sys2Proof.Machine.execVtanh d a s
  | .vfrac d a => Sys2Proof.Machine.execVfrac d a s
  | .vround d a r => Sys2Proof.Machine.execVround d a r s
  | .vclass d a => Sys2Proof.Machine.execVclass d a s
  | .vabs d a => Sys2Proof.Machine.execVabs d a s
  | .vneg d a => Sys2Proof.Machine.execVneg d a s
  | .vnot d a => Sys2Proof.Machine.execVnot d a s
  | .vclz d a => Sys2Proof.Machine.execVclz d a s
  | .vpopc d a => Sys2Proof.Machine.execVpopc d a s
  | .vbrev d a => Sys2Proof.Machine.execVbrev d a s
  | .vshfl d a => Sys2Proof.Machine.execVshfl d a s
  | .vshflu d a => Sys2Proof.Machine.execVshflu d a s
  | .vshfld d a => Sys2Proof.Machine.execVshfld d a s
  | .vshflx d a => Sys2Proof.Machine.execVshflx d a s
  | .vbcast d a => Sys2Proof.Machine.execVbcast d a s
  | .vvoteany d a => Sys2Proof.Machine.execVvoteany d a s
  | .vvoteall d a => Sys2Proof.Machine.execVvoteall d a s
  | .vballot d a => Sys2Proof.Machine.execVballot d a s
  | .vredadd d a q u => Sys2Proof.Machine.execVredadd d a q u s
  | .vredmin d a q u => Sys2Proof.Machine.execVredmin d a q u s
  | .vredmax d a q u => Sys2Proof.Machine.execVredmax d a q u s
  | .vredand d a q u => Sys2Proof.Machine.execVredand d a q u s
  | .vredor d a q u => Sys2Proof.Machine.execVredor d a q u s
  | .vredxor d a q u => Sys2Proof.Machine.execVredxor d a q u s
  | .vscanadd d a q e => Sys2Proof.Machine.execVscanadd d a q e s
  | .vscanmin d a q e => Sys2Proof.Machine.execVscanmin d a q e s
  | .vscanmax d a q e => Sys2Proof.Machine.execVscanmax d a q e s
  | .vzip n d a => Sys2Proof.Machine.execVzip n d a s
  | .vunzip n d a => Sys2Proof.Machine.execVunzip n d a s
  | .xset k a => Sys2Proof.Machine.execXset k a s
  | .xadd k imm => Sys2Proof.Machine.execXadd k imm s
  | .xwin b l => Sys2Proof.Machine.execXwin b l s
  | .vrand d a k => Sys2Proof.Machine.execVrand d a k s
  | .vrandu d a k => Sys2Proof.Machine.execVrandu d a k s
  | .ld t wt d a p => Sys2Proof.Machine.execLd t wt d a p s
  | .st t wt d a p => Sys2Proof.Machine.execSt t wt d a p s
  | .lds t wt d a p => Sys2Proof.Machine.execLds t wt d a p s
  | .sts t wt d a p => Sys2Proof.Machine.execSts t wt d a p s
  | .ldu d p => Sys2Proof.Machine.execLdu d p s
  | .stu d p => Sys2Proof.Machine.execStu d p s
  | .ldsu d p => Sys2Proof.Machine.execLdsu d p s
  | .stsu d p => Sys2Proof.Machine.execStsu d p s
  | .pref t a p => Sys2Proof.Machine.execPref t a p s
  | .fence => Sys2Proof.Machine.execFence s
  | .invl1 => Sys2Proof.Machine.execInvl1 s
  | .probe d a p => Sys2Proof.Machine.execProbe d a p s
  | .invpg a b => Sys2Proof.Machine.execInvpg a b s
  | .atom o wt d a p => Sys2Proof.Machine.execAtom o wt d a p s
  | .atomn o wt d a p => Sys2Proof.Machine.execAtomn o wt d a p s
  | .cmlr a n => Sys2Proof.Machine.execCmlr a n s
  | .cmls d a n => Sys2Proof.Machine.execCmls d a n s
  | .seal a b => Sys2Proof.Machine.execSeal a b s
  | .unseal a b => Sys2Proof.Machine.execUnseal a b s
  | .wobseal d a => Sys2Proof.Machine.execWobseal d a s
  | .wobrel a => Sys2Proof.Machine.execWobrel a s
  | .discard a b => Sys2Proof.Machine.execDiscard a b s
  | .flush a b => Sys2Proof.Machine.execFlush a b s
  | .vcquery d a => Sys2Proof.Machine.execVcquery d a s
  | .vcdef a => Sys2Proof.Machine.execVcdef a s
  | .vcresize a => Sys2Proof.Machine.execVcresize a s
  | .vcresizeMove a => Sys2Proof.Machine.execVcresizeMove a s
  | .btake d sg => Sys2Proof.Machine.execBtake d sg s
  | .bfree sg => Sys2Proof.Machine.execBfree sg s
  | .bgive p c sg => Sys2Proof.Machine.execBgive p c sg s
  | .bopen d p sg => Sys2Proof.Machine.execBopen d p sg s
  | .bdrain l sg => Sys2Proof.Machine.execBdrain l sg s
  | .bquery d o sg => Sys2Proof.Machine.execBquery d o sg s
  | .swinit x a => Sys2Proof.Machine.execSwinit x a s
  | .swadd x a => Sys2Proof.Machine.execSwadd x a s
  | .swwait d x => Sys2Proof.Machine.execSwwait d x s
  | .swread d x => Sys2Proof.Machine.execSwread d x s
  | .ringdef d a => Sys2Proof.Machine.execRingdef d a s
  | .send r a => Sys2Proof.Machine.execSend r a s
  | .ringack r a => Sys2Proof.Machine.execRingack r a s
  | .ringwait d r => Sys2Proof.Machine.execRingwait d r s
  | .copy a => Sys2Proof.Machine.execCopy a s
  | .copy2d a => Sys2Proof.Machine.execCopy2d a s
  | .cgath a => Sys2Proof.Machine.execCgath a s
  | .cscat a => Sys2Proof.Machine.execCscat a s
  | .cfill a => Sys2Proof.Machine.execCfill a s
  | .cseal b => Sys2Proof.Machine.execCseal b s
  | .cwait d c b => Sys2Proof.Machine.execCwait d c b s
  | .cstat d b => Sys2Proof.Machine.execCstat d b s
  | .rput a => Sys2Proof.Machine.execRput a s
  | .rget a => Sys2Proof.Machine.execRget a s
  | .ratom d a => Sys2Proof.Machine.execRatom d a s
  | .wexport d a => Sys2Proof.Machine.execWexport d a s
  | .wrevoke a => Sys2Proof.Machine.execWrevoke a s
  | .qkick a => Sys2Proof.Machine.execQkick a s
  | .launch d a => Sys2Proof.Machine.execLaunch d a s
  | .qwait a => Sys2Proof.Machine.execQwait a s
  | .stageinit r a => Sys2Proof.Machine.execStageinit r a s
  | .stagearv r k => Sys2Proof.Machine.execStagearv r k s
  | .stagewt r h k => Sys2Proof.Machine.execStagewt r h k s
  | .roleq d r => Sys2Proof.Machine.execRoleq d r s
  | .preemptSuspend d a => Sys2Proof.Machine.execPreemptSuspend d a s
  | .preemptResume d a => Sys2Proof.Machine.execPreemptResume d a s
  | .preemptEvict d a => Sys2Proof.Machine.execPreemptEvict d a s
  | .preemptTerminate d a => Sys2Proof.Machine.execPreemptTerminate d a s
  | .preemptSysresume d a => Sys2Proof.Machine.execPreemptSysresume d a s
  | .preemptCldrain d a => Sys2Proof.Machine.execPreemptCldrain d a s
  | .preemptClopen d a => Sys2Proof.Machine.execPreemptClopen d a s
  | .preemptCloff d a => Sys2Proof.Machine.execPreemptCloff d a s
  | .ctxsave d a => Sys2Proof.Machine.execCtxsave d a s
  | .ctxload d a => Sys2Proof.Machine.execCtxload d a s
  | .mcfg n a => Sys2Proof.Machine.execMcfg n a s
  | .mmp n a b sg => Sys2Proof.Machine.execMmp n a b sg s
  | .mmpb n a b sg => Sys2Proof.Machine.execMmpb n a b sg s
  | .mmpg n a b sg => Sys2Proof.Machine.execMmpg n a b sg s
  | .mzero n => Sys2Proof.Machine.execMzero n s
  | .tokpass n g => Sys2Proof.Machine.execTokpass n g s
  | .tokwait n => Sys2Proof.Machine.execTokwait n s
  | .tread n d r h => Sys2Proof.Machine.execTread n d r h s
  | .twrite n a r h => Sys2Proof.Machine.execTwrite n a r h s
  | .tchk n d c f h => Sys2Proof.Machine.execTchk n d c f h s
  | .mdrain n a h => Sys2Proof.Machine.execMdrain n a h s
  | .ensure l e => Sys2Proof.Machine.execEnsure l e s
  | .elseby o => Sys2Proof.Machine.execElseby o s
  | .elseerr => Sys2Proof.Machine.execElseerr s
  | .verdict q => Sys2Proof.Machine.execVerdict q s
  | .convjoin a => Sys2Proof.Machine.execConvjoin a s
  | .rbstat d => Sys2Proof.Machine.execRbstat d s
  | .rbfail c => Sys2Proof.Machine.execRbfail c s
  | .cmpstat d => Sys2Proof.Machine.execCmpstat d s
  | .cmppoint a sg n => Sys2Proof.Machine.execCmppoint a sg n s
  | .lnkpark a g => Sys2Proof.Machine.execLnkpark a g s
  | .lnkwake a g => Sys2Proof.Machine.execLnkwake a g s
  | .lnkstat d g => Sys2Proof.Machine.execLnkstat d g s
  | .slotld a g => Sys2Proof.Machine.execSlotld a g s
  | .slotsw g => Sys2Proof.Machine.execSlotsw g s
  | .lnkthr a g => Sys2Proof.Machine.execLnkthr a g s
  | .lnkretrain g => Sys2Proof.Machine.execLnkretrain g s
  | .brk => Sys2Proof.Machine.execBrk s
  | .longLatencyCompletion => Sys2Proof.Machine.execLongLatencyCompletion s
  | .loadReply => Sys2Proof.Machine.execLoadReply s
  | .storeBlockMerge => Sys2Proof.Machine.execStoreBlockMerge s
  | .storeAcknowledge => Sys2Proof.Machine.execStoreAcknowledge s
  | .commutativeFlush => Sys2Proof.Machine.execCommutativeFlush s
  | .translationWalk => Sys2Proof.Machine.execTranslationWalk s
  | .pageMonitorWake => Sys2Proof.Machine.execPageMonitorWake s
  | .walkRetryTimer => Sys2Proof.Machine.execWalkRetryTimer s
  | .sectorFillReturn => Sys2Proof.Machine.execSectorFillReturn s
  | .lineHandover => Sys2Proof.Machine.execLineHandover s
  | .shareClearingDone => Sys2Proof.Machine.execShareClearingDone s
  | .sliceRetentionEntry => Sys2Proof.Machine.execSliceRetentionEntry s
  | .sliceRetentionExitDone => Sys2Proof.Machine.execSliceRetentionExitDone s
  | .cmlrReservationTimeout => Sys2Proof.Machine.execCmlrReservationTimeout s
  | .bankZeroingDone => Sys2Proof.Machine.execBankZeroingDone s
  | .bankRetentionEntry => Sys2Proof.Machine.execBankRetentionEntry s
  | .bankRetentionExitDone => Sys2Proof.Machine.execBankRetentionExitDone s
  | .giveLand => Sys2Proof.Machine.execGiveLand s
  | .syncWordRaise => Sys2Proof.Machine.execSyncWordRaise s
  | .ringMessageDelivery => Sys2Proof.Machine.execRingMessageDelivery s
  | .sendRefusal => Sys2Proof.Machine.execSendRefusal s
  | .copyTransfer => Sys2Proof.Machine.execCopyTransfer s
  | .copyFinish => Sys2Proof.Machine.execCopyFinish s
  | .gftPut => Sys2Proof.Machine.execGftPut s
  | .gftGetRequest => Sys2Proof.Machine.execGftGetRequest s
  | .gftGetReply => Sys2Proof.Machine.execGftGetReply s
  | .gftAtomicRequest => Sys2Proof.Machine.execGftAtomicRequest s
  | .gftAtomicReply => Sys2Proof.Machine.execGftAtomicReply s
  | .gftAcknowledgement => Sys2Proof.Machine.execGftAcknowledgement s
  | .gftRefusal => Sys2Proof.Machine.execGftRefusal s
  | .gftRetransmit => Sys2Proof.Machine.execGftRetransmit s
  | .remoteOperationTimeout => Sys2Proof.Machine.execRemoteOperationTimeout s
  | .managementFrame => Sys2Proof.Machine.execManagementFrame s
  | .kickWrite => Sys2Proof.Machine.execKickWrite s
  | .contextDefine => Sys2Proof.Machine.execContextDefine s
  | .contextDestroy => Sys2Proof.Machine.execContextDestroy s
  | .contextDestructionDone => Sys2Proof.Machine.execContextDestructionDone s
  | .contextRecordWrite => Sys2Proof.Machine.execContextRecordWrite s
  | .queueDefine => Sys2Proof.Machine.execQueueDefine s
  | .queueUndefine => Sys2Proof.Machine.execQueueUndefine s
  | .queueEntryWrite => Sys2Proof.Machine.execQueueEntryWrite s
  | .nopRecord => Sys2Proof.Machine.execNopRecord s
  | .launchRecord => Sys2Proof.Machine.execLaunchRecord s
  | .waitRecord => Sys2Proof.Machine.execWaitRecord s
  | .loadRecord => Sys2Proof.Machine.execLoadRecord s
  | .commandRecordComplete => Sys2Proof.Machine.execCommandRecordComplete s
  | .teamPlacement => Sys2Proof.Machine.execTeamPlacement s
  | .groupRetire => Sys2Proof.Machine.execGroupRetire s
  | .teamRetire => Sys2Proof.Machine.execTeamRetire s
  | .growDeadlockEviction => Sys2Proof.Machine.execGrowDeadlockEviction s
  | .sleepExpiry => Sys2Proof.Machine.execSleepExpiry s
  | .groupWatchdogExpiry => Sys2Proof.Machine.execGroupWatchdogExpiry s
  | .clusterWatchdogFire => Sys2Proof.Machine.execClusterWatchdogFire s
  | .commandCoreWatchdogExpiry => Sys2Proof.Machine.execCommandCoreWatchdogExpiry s
  | .suspensionLimitExpiry => Sys2Proof.Machine.execSuspensionLimitExpiry s
  | .ringClusterWaitTimeout => Sys2Proof.Machine.execRingClusterWaitTimeout s
  | .barrierComplete => Sys2Proof.Machine.execBarrierComplete s
  | .barpGenerationComplete => Sys2Proof.Machine.execBarpGenerationComplete s
  | .tokenHandover => Sys2Proof.Machine.execTokenHandover s
  | .matrixAccumulation => Sys2Proof.Machine.execMatrixAccumulation s
  | .levelRollback => Sys2Proof.Machine.execLevelRollback s
  | .cycleLimitExpiry => Sys2Proof.Machine.execCycleLimitExpiry s
  | .conversationFormation => Sys2Proof.Machine.execConversationFormation s
  | .conversationCommit => Sys2Proof.Machine.execConversationCommit s
  | .conversationJointFailure => Sys2Proof.Machine.execConversationJointFailure s
  | .trailingCopyStart => Sys2Proof.Machine.execTrailingCopyStart s
  | .compareMatch => Sys2Proof.Machine.execCompareMatch s
  | .compareWaitTimeout => Sys2Proof.Machine.execCompareWaitTimeout s
  | .injectionPortWrite => Sys2Proof.Machine.execInjectionPortWrite s
  | .readBundleSlot => Sys2Proof.Machine.execReadBundleSlot s
  | .writeSlot => Sys2Proof.Machine.execWriteSlot s
  | .maintenanceSlot => Sys2Proof.Machine.execMaintenanceSlot s
  | .zeroMapBackgroundClear => Sys2Proof.Machine.execZeroMapBackgroundClear s
  | .readReplySlot => Sys2Proof.Machine.execReadReplySlot s
  | .acknowledgementSlot => Sys2Proof.Machine.execAcknowledgementSlot s
  | .superframeBoundary => Sys2Proof.Machine.execSuperframeBoundary s
  | .laneLossOfLock => Sys2Proof.Machine.execLaneLossOfLock s
  | .slotCheckFailure => Sys2Proof.Machine.execSlotCheckFailure s
  | .linkstallTimeout => Sys2Proof.Machine.execLinkstallTimeout s
  | .linkdown => Sys2Proof.Machine.execLinkdown s
  | .linkLive => Sys2Proof.Machine.execLinkLive s
  | .clsresWrite => Sys2Proof.Machine.execClsresWrite s
  | .registerWrite => Sys2Proof.Machine.execRegisterWrite s
  | .moduleReset => Sys2Proof.Machine.execModuleReset s
  | .attestationRequest => Sys2Proof.Machine.execAttestationRequest s
  | .foxglovePackageLoad => Sys2Proof.Machine.execFoxglovePackageLoad s
  | .inFieldScan => Sys2Proof.Machine.execInFieldScan s
  | .thermalThrottle => Sys2Proof.Machine.execThermalThrottle s
  | .thermalShutdown => Sys2Proof.Machine.execThermalShutdown s
  | .thermalPowerRemoval => Sys2Proof.Machine.execThermalPowerRemoval s
  | .reservedWord => Sys2Proof.Machine.execReservedWord s
  | .storageBitError => Sys2Proof.Machine.execStorageBitError s
  | .keyEpochInstall => Sys2Proof.Machine.execKeyEpochInstall s
  | .thermalThrottleRelease => Sys2Proof.Machine.execThermalThrottleRelease s

end Sys2Proof.Machine
end

