-- ==== Sys2Proof/Machine/Step.lean ====
section
/-! DEFINITION. One step of the module, and the placing of one instruction. -/

namespace Sys2Proof.Machine

/-- One step: the next turn of the agenda, or one of the module's own (log entry 1), and the instruction it runs. -/
def step (s : State) : Host.Outcome State Fault Refusal :=
  match nextMove s with
  | .stop f => .fault f
  | .idle s' => .next s'
  | .run i s' => exec i s'

/-- The state with the instruction whose bits are w, and zeros above nbits, where the next step fetches. -/
def State.withFetchWord (s : State) (nbits w : Nat) : State := placeWord s (BitVec.ofNat 32 (w % 2 ^ nbits))

end Sys2Proof.Machine
end

