-- ==== Sys2Proof/Safety.lean ====
section
/-! DEFINITION. What counts as a safe run: the shape that the module's memories keep, and steps that do not stop; and the
terms in which statements speak of a word that issues and of the way it ends. -/

namespace Sys2Proof

open Machine

/-- Every memory of the module in canonical form: the drawer, every bank, and queue memory (R34, R477). -/
def Machine.State.memWf (s : State) : Bool :=
  Memory.wf s.drawer.mem && Memory.wf s.qmem && s.clusters.all (fun c => c.2.banks.all (fun b => Memory.wf b.2.mem))

/-- A step that the machine takes: neither a fault of the model nor a refusal. -/
def goesOn : Host.Outcome State Machine.Fault Refusal → Prop
  | .next _ => True
  | _ => False

/-- A state is safe to go on from: its memories are canonical and its next step is taken. -/
def SafeState (s : State) : Prop := s.memWf = true ∧ goesOn (Machine.step s)

namespace Machine

/-! ## The word being issued -/

/-- The word being issued in a state: its issuer, group, gang and run. -/
structure Issuing (s : State) (c : Cur) (g : Group) (k : Gang) (run : Run) : Prop where
  issuer : s.cur = some c
  ofGroup : s.curGroup? c = some g
  ofGang : g.gang? c.gang = some k
  inRun : k.run = some run

/-- The word being issued passes every check of R76 before its own effect, with what it uses: privilege, role, operands,
run form and pending registers; a lane-pair group's two files agree on what is compared (R431); the flag it attaches to has
room (R86); and the word is not one that its gang has been waiting at. -/
structure MayIssue (u : Uses) (s : State) (c : Cur) (g : Group) (k : Gang) (run : Run) : Prop extends Issuing s c g k run where
  fresh : k.wait = .none
  noOp : run.op = none
  checks : checkWord u c g run = none
  agree : g.pairDiff run u (lanesOf c.lanes) = none
  room : flagFull u g run = false

/-- The word being issued is one that its gang waits at: it goes on without the checks (R94). -/
structure Resumes (s : State) (c : Cur) (g : Group) (k : Gang) (run : Run) : Prop extends Issuing s c g k run where
  waits : k.wait ≠ .none ∨ run.op.isSome = true

/-! ## How a word ends -/

/-- The word is over: it has taken its issue slot (R23), hints are consumed, and the run goes on behind it, or, for a hint, with
the hints kept (R99). -/
def wordOver (c : Cur) (s0 : State) (keep : Bool) (s : State) : State :=
  { (s.slotOnce s0 c).onCur c (fun g => g.wordDone c.gang keep) with cur := none }

/-- The word ends its run: the units stand where the effect has put them (R92). -/
def runOver (c : Cur) (s0 : State) (s : State) : State :=
  { (s.slotOnce s0 c).onCur c (fun g => (g.leaveRun c.gang s.now).dropEmptyGangs) with cur := none }

/-- The word faults: the fault is taken in its state (R185, R406). -/
def wordFaults (c : Cur) (s0 : State) (f : FaultInfo) (s : State) : State :=
  { takeFault (s.slotOnce s0 c) c true f with cur := none }

/-- The gang stays at the word: it waits, or tries again at a later clock (R86, R94). -/
def wordStays (c : Cur) (s0 : State) (s : State) : State := { stayed s0 s c with cur := none }

/-- What a word makes of the state. -/
abbrev Effect := Cur → Group → Run → State → State
/-- When it does. -/
abbrev When := Cur → Group → Run → State → Bool

/-- How the word of a claim ends: over, over as a hint, with its run, waiting where it stands, in the state that its effect
makes as it is (a trap or a return from one), or with a fault. -/
inductive Ending where
  | done
  | hint
  | jump
  | waits
  | free
  | fault (f : Cur → Group → Run → State → FaultInfo)

/-- What one form of a word does: whether its gang has been waiting at it, what it uses, when this form is meant, what the
word makes of the state, and how it ends. -/
structure Claim where
  woken : Bool := false
  uses : Cur → Group → Run → Uses
  cond : When
  effect : Effect
  ending : Ending := .done

/-- The state and the issuer are those of the claim. -/
structure Claim.Applies (x : Claim) (s : State) (c : Cur) (g : Group) (k : Gang) (run : Run) : Prop where
  starts : if x.woken then Resumes s c g k run else MayIssue (x.uses c g run) s c g k run
  meant : x.cond c g run s = true

/-- The instruction does what the claim says: the next state is that of the effect, with what the word wrote kept for the
run and the level (keepWrites, R88, R91, R412), and with the word's end. A run ends only while its ranges have room (R88). -/
def Claim.Holds (i : Instr) (x : Claim) : Prop :=
  ∀ s c g k run, x.Applies s c g k run →
    match x.ending with
    | .done => ∀ y, keepWrites (x.uses c g run) c g (x.effect c g run s) = some y → exec i s = .next (wordOver c s false y)
    | .hint => exec i s = .next (wordOver c s true (x.effect c g run s))
    | .jump => ∀ y, keepWrites (x.uses c g run) c g (x.effect c g run s) = some y → g.rangeRoom c.gang = true →
        exec i s = .next (runOver c s y)
    | .waits => exec i s = .next (wordStays c s (x.effect c g run s))
    | .free => exec i s = .next { x.effect c g run s with cur := none }
    | .fault f => ∀ y, keepWrites (x.uses c g run) c g (x.effect c g run s) = some y →
        exec i s = .next (wordFaults c s (f c g run s) y)

/-! ## Building claims -/

/-- What a word uses, whatever its group and its hints. -/
def plain (u : Uses) : Cur → Group → Run → Uses := fun _ _ _ => u

/-- No condition of the word's own. -/
def always : When := fun _ _ _ _ => true

/-- A condition on the issuing team. -/
def ofTeam (p : Team → Cur → Group → Run → State → Bool) : When :=
  fun c g run s => (s.teams.find c.team).any (fun t => p t c g run s)

/-- The issuing team runs as one copy (R425), and the condition holds. -/
def soloTeam (p : Team → Cur → Group → Run → State → Bool := fun _ _ _ _ _ => true) : When :=
  ofTeam (fun t c g run s => t.copy == .only && p t c g run s)

/-- An effect that depends on the word's team. -/
def byTeam (x : Team → Effect) : Effect :=
  fun c g run s => match s.teams.find c.team with
    | some t => x t c g run s
    | none => s

/-- The word leaves the state alone. -/
def noEffect : Effect := fun _ _ _ s => s

/-- A change to the issuing group's register files, the shadows' among them in a lane-pair group (R430). -/
def onFiles (f : Group → Run → RegFile → RegFile) : Effect :=
  fun c g run s => s.onCur c (fun x => x.files (f g run))

/-- A change to the issuing group. -/
def onIssuer (f : Cur → Group → Run → State → Group → Group) : Effect :=
  fun c g run s => s.onCur c (f c g run s)

/-- A change to the issuing gang's run. -/
def onItsRun (f : Cur → Run → Run → Run) : Effect := fun c _ run s => s.onRun c (f c run)

/-- The gang waits at the word. -/
def waitFor (w : Cur → Group → State → Wait) : Effect := fun c g _ s => s.setWait c (w c g s)

/-- An operation goes to its engine, attached to FA or to FB (R86). -/
def sends (fa : Bool) (b : Cur → Group → Run → State → OpBody) : Effect :=
  fun c g run s => (s.longOp c run fa (b c g run s)).2

/-- A fault with a code and a datum that names every active lane. -/
def plainFault (code : Nat) (datum : Nat := 0) : Ending := .fault (fun c _ _ _ => { code := code, datum := datum, lanes := c.lanes })

/-- A fault that also names an address. -/
def addrFaultAt (code : Nat) (datum : Group → Nat) (a : Group → DWord) : Ending :=
  .fault (fun c g _ _ => { code := code, datum := datum g, lanes := c.lanes, faddr := a g })

/-! ## Words at a run's start or end, and steps without a word -/

/-- A word that stands at a run's start or end acts where p holds of its issuer, with the effect x. -/
def Stands (i : Instr) (p : Cur → Group → Gang → State → Bool) (x : Cur → Group → Gang → State → State) : Prop :=
  ∀ s c g k, s.cur = some c → s.curGroup? c = some g → g.gang? c.gang = some k → p c g k s = true →
    exec i s = .next { x c g k s with cur := none }

/-- What a step without a word does: when it is due, and what it makes of the state. -/
structure Event where
  due : Subject → State → Bool
  effect : Subject → State → State

/-- The step takes place where it is due, and uses its subject up. -/
def Event.Holds (i : Instr) (x : Event) : Prop :=
  ∀ s, x.due s.subject s = true → exec i s = .next { x.effect s.subject s with subject := {} }

end Machine

end Sys2Proof
end

