-- ==== Sys2Proof/Certificates/Slice0/Obligations.lean ====
section
/-! DEFINITION. The statements for the provers: what the rules of spec/ say that each instruction does, where it completes,
what it leaves alone, and what the whole machine keeps. The tables of claims come first, the statements after them. -/

open Sys2Proof Sys2Proof.Machine

namespace Sys2Proof.Machine

/-! ## Scalar words (R155 to R159) -/

/-- A word with three register fields. -/
abbrev Word3 := BitVec 8 → BitVec 8 → BitVec 8 → Instr
/-- A word with two register fields. -/
abbrev Word2 := BitVec 8 → BitVec 8 → Instr

/-- The scalar words of two sources with their result in terms of integers, in the order of majors and MIN (R155). -/
def scalar3 : List (Word3 × (Word → Word → Word)) :=
  [(.sadd, fun x y => BitVec.ofNat 32 (x.toNat + y.toNat)), (.ssub, fun x y => BitVec.ofInt 32 (x.toInt - y.toInt)),
   (.smul, fun x y => BitVec.ofNat 32 (x.toNat * y.toNat)), (.smulh, fun x y => BitVec.ofInt 32 (x.toInt * y.toInt / 2 ^ 32)),
   (.sand, fun x y => x &&& y), (.sor, fun x y => x ||| y), (.sxor, fun x y => x ^^^ y), (.sandn, fun x y => x &&& ~~~y),
   (.sshl, fun x y => BitVec.ofNat 32 (x.toNat * 2 ^ (y.toNat % 32))), (.sshr, fun x y => BitVec.ofNat 32 (x.toNat / 2 ^ (y.toNat % 32))),
   (.ssar, fun x y => BitVec.ofInt 32 (x.toInt / 2 ^ (y.toNat % 32))), (.srot, fun x y => x.rotateRight (y.toNat % 32)),
   (.smin, fun x y => BitVec.ofInt 32 (min x.toInt y.toInt)), (.smax, fun x y => BitVec.ofInt 32 (max x.toInt y.toInt)),
   (.sminu, fun x y => BitVec.ofNat 32 (min x.toNat y.toNat)), (.smaxu, fun x y => BitVec.ofNat 32 (max x.toNat y.toNat)),
   (.sseq, fun x y => if x = y then 1 else 0), (.ssne, fun x y => if x = y then 0 else 1),
   (.sslt, fun x y => if x.toInt < y.toInt then 1 else 0), (.ssltu, fun x y => if x.toNat < y.toNat then 1 else 0),
   (.ssle, fun x y => if x.toInt ≤ y.toInt then 1 else 0), (.ssleu, fun x y => if x.toNat ≤ y.toNat then 1 else 0)]

/-- A word of format A: bits 31..24 (major and MIN), D, A and B (R78). -/
def wordA (top : Nat) (d a b : BitVec 8) : Nat := top * 2 ^ 24 + d.toNat * 2 ^ 16 + a.toNat * 2 ^ 8 + b.toNat
/-- The scalar words with an immediate, by MIN (R156). -/
def scalarImms : List (BitVec 8 → BitVec 16 → Instr) := [.sli, .sliu, .slih, .saddi]

/-- The scalar words of one source (R157). -/
def scalar2 : List (Word2 × (Word → Word)) :=
  [(.spopc, fun x => BitVec.ofNat 32 ((List.range 32).filter (fun i => x.toNat / 2 ^ i % 2 == 1)).length),
   (.sclz, fun x => BitVec.ofNat 32 (if x.toNat = 0 then 32 else 31 - Nat.log2 x.toNat)),
   (.sbrev, fun x => BitVec.ofNat 32 (((List.range 32).map (fun i => x.toNat / 2 ^ i % 2 * 2 ^ (31 - i))).sum))]

/-- The 64-bit words of two even pairs with their result (R157). -/
def scalarPairs : List (Word2 × (DWord → DWord → Nat)) :=
  [(.sadd64, fun x y => x.toNat + y.toNat), (.ssub64, fun x y => x.toNat + (2 ^ 64 - y.toNat))]

/-- A claim of a word that is over at once. -/
def does (u : Uses) (x : Effect) (p : When := always) : Claim := { uses := plain u, cond := p, effect := x }
/-- A claim of a word that leaves its gang waiting at it, or where the effect has put it (R94). -/
def waits (u : Uses) (x : Effect) (p : When := always) : Claim := { uses := plain u, cond := p, effect := x, ending := .waits }
/-- A claim of a word that ends its run. -/
def jumps (u : Uses) (x : Effect) (p : When := always) : Claim := { uses := plain u, cond := p, effect := x, ending := .jump }
/-- A claim of a hint word, or of one that keeps the hints attached (R99). -/
def hints (x : Effect) (p : When := always) : Claim := { uses := plain { hint := true }, cond := p, effect := x, ending := .hint }
/-- A claim of a word that faults and has done nothing. -/
def faults (u : Uses) (e : Ending) (p : When := always) : Claim := { uses := plain u, cond := p, effect := noEffect, ending := e }
/-- The same claim of a word that its gang has been waiting at. -/
def Claim.again (x : Claim) : Claim := { x with woken := true }

/-- POS and LEN of the pending immediate, where they name a field: POS in bits 4..0, LEN 1 to 32 in bits 10..5 (R157). -/
def fieldOf (run : Run) : Option (Nat × Nat) :=
  match run.imm with
  | some i => if i.toNat < 2048 ∧ 1 ≤ i.toNat / 32 ∧ i.toNat % 32 + i.toNat / 32 ≤ 32 then some (i.toNat % 32, i.toNat / 32) else none
  | none => none

/-! The scalar words beside the tables: SMOV, whose B is not read but has to name a register, and the bit-field words
with their field in the pending immediate (R155, R157). -/
/-- SMOV. -/
def smovClaims (d : BitVec 8) (a : BitVec 8) (b : BitVec 8) : List Claim :=
    [{ uses := fun _ g _ => { sr := [(a.toNat, 1)], sw := [(d.toNat, 1)], bad := decide (g.sregs ≤ b.toNat) },
                      cond := always, effect := onFiles (fun _ _ r => r.setS d.toNat (r.S a.toNat)) }]
/-- SBFE. -/
def sbfeClaims (d : BitVec 8) (a : BitVec 8) (x : BitVec 1) : List Claim :=
    [{ uses := fun _ _ run => { sr := [(a.toNat, 1)], sw := [(d.toNat, 1)], bad := (fieldOf run).isNone },
       cond := fun _ _ run _ => (fieldOf run).isSome
       effect := onFiles (fun _ run r =>
         let v := (r.S a.toNat).toNat / 2 ^ ((fieldOf run).getD (0, 1)).1 % 2 ^ ((fieldOf run).getD (0, 1)).2
         r.setS d.toNat (BitVec.ofInt 32 (if x = 1 then signed ((fieldOf run).getD (0, 1)).2 v else (v : Int)))) }]
/-- SBFI. -/
def sbfiClaims (d : BitVec 8) (a : BitVec 8) : List Claim :=
    [{ uses := fun _ _ run => { sr := [(a.toNat, 1), (d.toNat, 1)], sw := [(d.toNat, 1)], bad := (fieldOf run).isNone },
       cond := fun _ _ run _ => (fieldOf run).isSome
       effect := onFiles (fun _ run r =>
         let p := ((fieldOf run).getD (0, 1)).1
         let n := ((fieldOf run).getD (0, 1)).2
         let old := (r.S d.toNat).toNat
         r.setS d.toNat (BitVec.ofNat 32
           (old - old / 2 ^ p % 2 ^ n * 2 ^ p + (r.S a.toNat).toNat % 2 ^ n * 2 ^ p))) }]
/-- SSEL. -/
def sselClaims (d : BitVec 8) (a : BitVec 8) (b : BitVec 8) : List Claim :=
    [does { sr := [(a.toNat, 1), (b.toNat, 1), (d.toNat, 1)], sw := [(d.toNat, 1)] }
      (onFiles (fun _ _ r => r.setS d.toNat (if r.S d.toNat = 0 then r.S b.toNat else r.S a.toNat)))]
/-- SLI. -/
def sliClaims (d : BitVec 8) (i : BitVec 16) : List Claim :=
    [does { sw := [(d.toNat, 1)] } (onFiles (fun _ _ r => r.setS d.toNat (BitVec.ofInt 32 i.toInt)))]
/-- SLIU. -/
def sliuClaims (d : BitVec 8) (i : BitVec 16) : List Claim :=
    [does { sw := [(d.toNat, 1)] } (onFiles (fun _ _ r => r.setS d.toNat (BitVec.ofNat 32 i.toNat)))]
/-- SLIH. -/
def slihClaims (d : BitVec 8) (i : BitVec 16) : List Claim :=
    [does { sr := [(d.toNat, 1)], sw := [(d.toNat, 1)] }
      (onFiles (fun _ _ r => r.setS d.toNat (BitVec.ofNat 32 ((r.S d.toNat).toNat % 65536 + 65536 * i.toNat))))]
/-- SADDI. -/
def saddiClaims (d : BitVec 8) (i : BitVec 16) : List Claim :=
    [does { sr := [(d.toNat, 1)], sw := [(d.toNat, 1)] }
      (onFiles (fun _ _ r => r.setS d.toNat (BitVec.ofInt 32 ((r.S d.toNat).toInt + i.toInt))))]
/-- SMOVH. -/
def smovhClaims (h : BitVec 8) (a : BitVec 8) : List Claim :=
    [does { sr := [(a.toNat, 1)], sw := [(256 + h.toNat, 1)] } (onFiles (fun _ _ r => r.setS (256 + h.toNat) (r.S a.toNat)))]
/-- SMOVL. -/
def smovlClaims (d : BitVec 8) (h : BitVec 8) : List Claim :=
    [does { sr := [(256 + h.toNat, 1)], sw := [(d.toNat, 1)] } (onFiles (fun _ _ r => r.setS d.toNat (r.S (256 + h.toNat))))]
/-- SSHL64. -/
def sshl64Claims (d : BitVec 8) (a : BitVec 8) : List Claim :=
    [does { sr := [(a.toNat, 1), (d.toNat, 2)], sw := [(d.toNat, 2)], bad := decide (d.toNat % 2 = 1) }
      (onFiles (fun _ _ r => r.setS64 d.toNat (BitVec.ofNat 64 ((r.S64 d.toNat).toNat * 2 ^ ((r.S a.toNat).toNat % 64)))))]
/-- SSHR64. -/
def sshr64Claims (d : BitVec 8) (a : BitVec 8) (x : BitVec 1) : List Claim :=
    [does { sr := [(a.toNat, 1), (d.toNat, 2)], sw := [(d.toNat, 2)], bad := decide (d.toNat % 2 = 1) }
      (onFiles (fun _ _ r => r.setS64 d.toNat (BitVec.ofInt 64
        ((if x = 1 then (r.S64 d.toNat).toInt else ((r.S64 d.toNat).toNat : Int)) / 2 ^ ((r.S a.toNat).toNat % 64)))))]
/-- SMULW. -/
def smulwClaims (d : BitVec 8) (a : BitVec 8) (x : BitVec 1) : List Claim :=
    [does { sr := [(a.toNat, 1), (d.toNat, 1)], sw := [(d.toNat, 2)], bad := decide (d.toNat % 2 = 1) }
      (onFiles (fun _ _ r => r.setS64 d.toNat (if x = 1 then BitVec.ofInt 64 ((r.S d.toNat).toInt * (r.S a.toNat).toInt)
        else BitVec.ofNat 64 ((r.S d.toNat).toNat * (r.S a.toNat).toNat))))]

/-! RDSR copies the named register to S(D), CLOCK to the pair; WRSR writes S(A) into the fields that the register's access
codes allow, for the group and for what is held per team or context, or raises OPERAND (R158 to R165). -/
/-- What RDSR reads, by register number (R159 to R165, R411); CLOCK is apart. -/
def specialWords (t : Team) (g : Group) : List (Nat × Nat) :=
  let flag (b : Bool) (i : Nat) : Nat := if b then 2 ^ i else 0
  let gstat : Nat := (match g.role with | .vector => 0 | .copy => 1 | .matrix => 2) * 2 ^ 20 + (g.sregs / 32 - 1) * 2 ^ 16 +
    (g.vregs / 8 - 1) * 2 ^ 12 + flag (g.slices.any (·.dual)) 4 + flag (decide (1 < g.gangs.length)) 3 + flag g.sysmode 2 +
    flag g.intrap 1 + flag g.empty 0
  let joined : Nat := match t.levels.findIdx? (·.joined) with
    | some j => 2 ^ 24 + (j + 1) * 2 ^ 20
    | none => 0
  let inner : Nat := match t.levels.getLast? with
    | some l => l.routine % 16 * 2 ^ 16 + l.retry % 16 * 2 ^ 12
    | none => 0
  let gx := max 1 t.desc.gx
  let gy := max 1 t.desc.gy
  [(0x00, gstat), (0x01, g.fpctl.toNat), (0x02, g.fpstat.toNat)] ++ (List.range 5).map (fun i => (0x03 + i, g.fpcnt.getD i 0)) ++
  [(0x08, g.part), (0x09, g.mdef.toNat), (0x0A, g.winbase), (0x0B, g.winlen), (0x0D, t.number), (0x0E, g.id),
   (0x0F, t.number % gx), (0x10, t.number / gx % gy), (0x11, t.number / (gx * gy)), (0x12, t.desc.threads / max 1 t.desc.width),
   (0x13, t.desc.param.toNat % 2 ^ 32), (0x14, t.desc.param.toNat / 2 ^ 32), (0x15, joined + inner + t.levels.length),
   (0x16, t.rbcause.toNat), (0x17, t.trapvec.toNat), (0x18, g.faultlo.toNat), (0x19, g.faulthi.toNat), (0x1A, g.wdcfg.toNat),
   (0x1B, g.cmpretry.toNat), (0x1C, g.errinj.toNat), (0x1D, g.evpend.toNat)]
/-- RDSR. -/
def rdsrClaims (d : BitVec 8) (n : BitVec 8) : List Claim :=
    if n = 0x0C then
      [does { sw := [(d.toNat, 2)], bad := decide (d.toNat % 2 = 1) }
        (fun c _ _ s => s.onCur c (fun x => x.files (fun r => r.setS64 d.toNat (BitVec.ofNat 64 (s.now / 25))))) (soloTeam)]
    else
      [does { sw := [(d.toNat, 1)] } (byTeam (fun t c g _ s => s.onCur c (fun x => x.putS d.toNat
          (BitVec.ofNat 32 (((specialWords t g).find? (fun e => e.1 == n.toNat)).map (·.2) |>.getD 0)))))]
/-- A WRSR of w: whether the value may be written, and what it changes in the issuing group, in its team and in its context. -/
structure SpecialWrite where
  may : Nat → Team → Group → Bool := fun _ _ _ => true
  group : Nat → Group → Group := fun _ g => g
  team : Nat → Team → Team := fun _ t => t
  ctx : Nat → Ctx → Ctx := fun _ x => x

/-- The registers with a field that WRSR writes (R102, R103, R134 to R136, R160 to R165, R444, R445). -/
def specialWrites : List (Nat × SpecialWrite) :=
  let bits (w lo n : Nat) : Nat := w / 2 ^ lo % 2 ^ n
  let mdef (w : Nat) : Word := BitVec.ofNat 32 (bits w 9 17 * 2 ^ 9)
  [(0x00, { group := fun w g => { g with intrap := g.intrap && decide (bits w 1 1 = 0), empty := g.empty && decide (bits w 0 1 = 0) } }),
   (0x01, { group := fun w g => { g with fpctl := BitVec.ofNat 32 (bits w 3 5 * 8 + bits w 0 2) } }),
   (0x02, { group := fun w g => { g with fpstat := g.fpstat &&& ~~~(BitVec.ofNat 32 (bits w 0 5)) } }),
   (0x03, { group := fun w g => { g with fpcnt := setAt g.fpcnt 0 (bits w 0 16) } }),
   (0x04, { group := fun w g => { g with fpcnt := setAt g.fpcnt 1 (bits w 0 16) } }),
   (0x05, { group := fun w g => { g with fpcnt := setAt g.fpcnt 2 (bits w 0 16) } }),
   (0x06, { group := fun w g => { g with fpcnt := setAt g.fpcnt 3 (bits w 0 16) } }),
   (0x07, { group := fun w g => { g with fpcnt := setAt g.fpcnt 4 (bits w 0 16) } }),
   (0x08, { may := fun w _ g => decide (2 ≤ bits w 0 3) && decide (bits w 0 3 ≤ Nat.log2 g.lanes)
            group := fun w g => { g with part := bits w 0 3 } }),
   (0x09, { may := fun w _ _ => decide (bits w 23 3 ≤ 4) && decide (bits w 20 3 ≤ 5) && decide (bits w 17 3 ≤ 5) && decide (bits w 14 3 ≤ 5) &&
              decide (bits w 11 3 ≤ 5) && decide (bits w 9 2 ≤ 2)
            group := fun w g => { g with mdef := mdef w }, ctx := fun w x => { x with mdef := mdef w } }),
   (0x0A, { may := fun w _ g => decide (bits w 0 7 + g.winlen ≤ 128), group := fun w g => { g with winbase := bits w 0 7 } }),
   (0x0B, { may := fun w _ g => decide (g.winbase + bits w 0 8 ≤ 128), group := fun w g => { g with winlen := bits w 0 8 } }),
   (0x17, { team := fun w t => { t with trapvec := BitVec.ofNat 32 w } }),
   (0x18, { group := fun w g => { g with faultlo := BitVec.ofNat 32 w } }),
   (0x19, { group := fun w g => { g with faulthi := BitVec.ofNat 32 w } }),
   (0x1A, { group := fun w g => { g with wdcfg := BitVec.ofNat 32 (bits w 0 16) }, ctx := fun w x => { x with wdcfg := BitVec.ofNat 32 (bits w 0 16) } }),
   (0x1B, { group := fun w g => { g with cmpretry := BitVec.ofNat 32 (bits w 0 4) }, ctx := fun w x => { x with cmpretry := BitVec.ofNat 32 (bits w 0 4) } }),
   (0x1C, { may := fun w t _ => decide (bits w 29 2 ≠ 3) && decide (bits w 27 2 ≠ 3) && (decide (t.desc.protect ≠ 0) || decide (bits w 29 2 = 0))
            group := fun w g => { g with errinj := BitVec.ofNat 32 (bits w 27 5 * 2 ^ 27 + bits w 8 13 * 2 ^ 8 + bits w 0 6) } }),
   (0x1D, { group := fun w g => { g with evpend := g.evpend &&& ~~~(BitVec.ofNat 32 (bits w 0 8)) } })]
/-- WRSR. -/
def wrsrClaims (n : BitVec 8) (a : BitVec 8) : List Claim :=
    let w : Group → Nat := fun g => (g.rf.S a.toNat).toNat
    let u : Uses := { sr := [(a.toNat, 1)], priv := [0x09, 0x1A, 0x1B, 0x1C].contains n.toNat }
    match specialWrites.find? (fun e => e.1 == n.toNat) with
    | some (_, x) =>
      [does u (byTeam (fun t c g _ s =>
          let s1 := s.onCur c (x.group (w g))
          let s2 := if n.toNat = 0x17 then s1.onTeam c.team (x.team (w g)) else s1
          if [0x09, 0x1A, 0x1B].contains n.toNat then s2.putCtx t.ctx (x.ctx (w g) (s2.ctx t.ctx)) else s2))
        (ofTeam (fun t _ g _ _ => x.may (w g) t g)),
       faults u (plainFault 0x03) (ofTeam (fun t _ g _ _ => !x.may (w g) t g))]
    | none => []
/-- A WRSR to a register that is read only in every field raises OPERAND (R158). -/
def WritesReadOnly (n a : BitVec 8) : Prop :=
  ∀ s c g k run, Issuing s c g k run → k.wait = .none → run.op = none → 0x0C ≤ n.toNat → n.toNat ≤ 0x16 →
    exec (.wrsr n a) s = .next (wordFaults c s { code := 0x03, lanes := c.lanes } s)

/-! ## Runs and hints (R83 to R104) -/

/-- RUNFORM reason 8 of a second HOPND or MPFX before one word (R99). -/
def secondHint : Ending := .fault (fun c _ run _ => { code := 0x04, datum := 8 + 256 * (run.off % 256), lanes := c.lanes })

/-! HIMM forms the pending immediate, HOPND and MPFX attach, HSCHED.yield marks its run, NOP and HSCHED.pref do nothing; each
takes its slot and keeps the hints attached. A second HOPND or MPFX before one word raises RUNFORM (R99 to R104). -/
/-- HIMM. -/
def himmClaims (p : BitVec 2) (v : BitVec 16) : List Claim :=
    [hints (onItsRun (fun _ run r => { r with imm := some (
      if p = 0 then BitVec.ofInt 32 v.toInt
      else if p = 1 then BitVec.ofNat 32 v.toNat
      else if p = 2 then BitVec.ofNat 32 (65536 * v.toNat)
      else BitVec.ofNat 32 ((run.imm.getD 0).toNat / 65536 * 65536 + v.toNat)) }))]
/-- HOPND. -/
def hopndClaims (o : BitVec 8) : List Claim :=
    let u : Cur → Group → Run → Uses := fun _ g _ => { hint := true, bad := !g.hopOk o.toNat }
    [{ hints (onItsRun (fun _ _ r => { r with hopnd := some o })) (fun _ _ run _ => run.hopnd.isNone) with uses := u },
     { faults {} secondHint (fun _ _ run _ => run.hopnd.isSome) with uses := u }]
/-- MPFX. -/
def mpfxClaims (o : BitVec 3) (sc : BitVec 3) (p : BitVec 3) (q : BitVec 3) (u : BitVec 3) (n : BitVec 2) : List Claim :=
    [hints (onItsRun (fun _ _ r => { r with mpfx := some (BitVec.ofNat 32 (o.toNat * 2 ^ 23 + sc.toNat * 2 ^ 20 +
        p.toNat * 2 ^ 17 + q.toNat * 2 ^ 14 + u.toNat * 2 ^ 11 + n.toNat * 2 ^ 9)) })) (fun _ _ run _ => run.mpfx.isNone),
      faults { hint := true } secondHint (fun _ _ run _ => run.mpfx.isSome)]
/-- NOP. -/
def nopClaims : List Claim :=
    [hints noEffect]
/-- HSCHED_YIELD. -/
def hschedYieldClaims : List Claim :=
    [hints (onItsRun (fun _ _ r => { r with yield := true }))]
/-- HSCHED_PREF. -/
def hschedPrefClaims : List Claim :=
    [hints noEffect]

/-- The words of a run read and checked at its CLAUSE (R84, R97): they, and the ranges that its ENDRUN will bind. -/
def runAt (s : State) (ctx : Nat) (c : Cur) (g : Group) (fa len : Nat) : Option (List Word × List PendRange) :=
  match fetchWords s ctx c.lanes (len + 1) (c.addr + 4) with
  | .ok ws => (match checkRun g fa ws with
    | .ok rs => some (ws, rs)
    | .error _ => none)
  | .error _ => none

/-! ## Branches and divergence (R169 to R176) -/

/-- When BRS is taken (R169): its condition on S(s) as a signed number. -/
def branchTaken (cond : Nat) (v : Int) : Bool :=
  cond == 0 || (cond == 1 && v == 0) || (cond == 2 && v != 0) || (cond == 3 && decide (v < 0)) || (cond == 4 && decide (0 ≤ v)) ||
  (cond == 5 && decide (0 < v)) || (cond == 6 && decide (v ≤ 0))

/-- A word address at a signed offset in words from a branch (R77). -/
def wordsFrom (a : DWord) (n : Int) : DWord := a + BitVec.ofInt 64 (4 * n)

/-- The address of the word behind a run's ENDRUN (R170, R172). -/
def behind (run : Run) : DWord := run.clause + BitVec.ofNat 64 (4 * (run.words.length + 1))

/-- The issuing units of the word. -/
def issuing (c : Cur) (g : Group) : List (Nat × Bool × PathUnit) := g.units.filter (fun u => c.units.contains (u.1, u.2.1))

/-- The issuing units go to an address. -/
def goes (f : Cur → Group → Run → DWord) : Effect :=
  fun c g run s => s.onCur c (fun x => x.mapUnits c.units (fun _ _ u => { u with pc := f c g run, via := c.addr }))

/-- The issuing units whose return stack is as p says. -/
def unitsWith (p : List DWord → Bool) (c : Cur) (g : Group) : List (Nat × Bool) :=
  ((issuing c g).filter (fun u => p u.2.2.ret)).map (fun u => (u.1, u.2.1))

/-- CALLDEPTH of the issuing units for which p holds (R172). -/
def callDepth (p : List DWord → Bool) : Ending := .fault (fun c g _ _ =>
  { code := 0x0D, lanes := g.unitLanes (unitsWith p c g) })

/-- The issuing units change as f says, but for those that fault, which stay; the others leave the gang's run (R170, R172). -/
def moveUnits (bad : Cur → Group → List (Nat × Bool)) (f : Cur → Run → PathUnit → PathUnit) : Effect := fun c g run s =>
  s.onCur c (fun _ => (g.mapUnits (c.units.filter (fun u => !(bad c g).contains u)) (fun _ _ u => f c run u)).keepFaulting
    c (bad c g) c.units s.now)

/-! BRS, DBR, CALL, RET, LOOP, BRX, EXIT and REGANG (R92, R169 to R176). -/
/-- BRS. -/
def brsClaims (cd : BitVec 4) (a : BitVec 8) (o : BitVec 14) : List Claim :=
    let u : Cur → Group → Run → Uses := fun _ g _ =>
      { sr := if cd = 0 then [] else [(a.toNat, 1)], bad := decide (g.sregs ≤ a.toNat), pair := true }
    [{ jumps {} (goes (fun c _ _ => wordsFrom c.addr o.toInt)) (fun _ g _ _ => branchTaken cd.toNat (g.rf.S a.toNat).toInt) with uses := u },
     { does {} noEffect (fun _ g _ _ => decide (cd.toNat ≤ 6) && !branchTaken cd.toNat (g.rf.S a.toNat).toInt) with uses := u }]
/-- LOOP. -/
def loopClaims (a : BitVec 8) (o : BitVec 18) : List Claim :=
    let u : Uses := { sr := [(a.toNat, 1)], sw := [(a.toNat, 1)], pair := true }
    let count : Effect := onFiles (fun _ _ r => r.setS a.toNat (r.S a.toNat - 1))
    [jumps u (fun c g run s => goes (fun c _ _ => wordsFrom c.addr o.toInt) c g run (count c g run s))
      (fun _ g _ _ => g.rf.S a.toNat != 1),
     does u count (fun _ g _ _ => g.rf.S a.toNat == 1)]
/-- BRX. -/
def brxClaims (a : BitVec 8) : List Claim :=
    let u : Uses := { sr := [(a.toNat, 2)], bad := decide (a.toNat % 2 = 1), pair := true }
    [jumps u (goes (fun _ g _ => g.rf.S64 a.toNat))
      (fun _ g _ _ => decide ((g.rf.S64 a.toNat).toNat % 4 = 0) && canonical (g.rf.S64 a.toNat)),
     faults u (addrFaultAt 0x08 (fun _ => 0) (fun g => g.rf.S64 a.toNat)) (fun _ g _ _ => decide ((g.rf.S64 a.toNat).toNat % 4 ≠ 0)),
     faults u (addrFaultAt 0x11 (fun _ => 0) (fun g => g.rf.S64 a.toNat))
      (fun _ g _ _ => decide ((g.rf.S64 a.toNat).toNat % 4 = 0) && !canonical (g.rf.S64 a.toNat))]
/-- CALL. -/
def callClaims (o : BitVec 26) : List Claim :=
    let into : Cur → Run → PathUnit → PathUnit := fun c run u =>
      { u with pc := wordsFrom c.addr o.toInt, via := c.addr, ret := u.ret ++ [behind run] }
    let full : List DWord → Bool := fun r => decide (8 ≤ r.length)
    [jumps {} (fun c g run s => s.onCur c (fun _ => g.mapUnits c.units (fun _ _ u => into c run u)))
      (fun c g _ _ => (unitsWith full c g).isEmpty),
     { uses := plain {}, cond := fun c g _ _ => !(unitsWith full c g).isEmpty, effect := moveUnits (unitsWith full) into,
       ending := callDepth full }]
/-- RET. -/
def retClaims : List Claim :=
    let out : Cur → Run → PathUnit → PathUnit := fun c _ u =>
      { u with pc := u.ret.getLast?.getD 0, via := c.addr, ret := u.ret.dropLast }
    let back : Cur → Group → Run → Group := fun c g run => g.mapUnits c.units (fun _ _ u => out c run u)
    let parts : Cur → Group → Bool := fun c g => decide (1 < ((issuing c g).filterMap (fun u => u.2.2.ret.getLast?)).eraseDups.length)
    [jumps {} (fun c g run s => s.onCur c (fun _ => back c g run)) (fun c g _ _ => (unitsWith (·.isEmpty) c g).isEmpty && !parts c g),
     jumps {} (fun c g run s => s.onCur c (fun _ => (back c g run).partGang c.gang s.now c.units))
      (fun c g _ _ => (unitsWith (·.isEmpty) c g).isEmpty && parts c g),
     { uses := plain {}, cond := fun c g _ _ => !(unitsWith (·.isEmpty) c g).isEmpty, effect := moveUnits (unitsWith (·.isEmpty)) out,
       ending := callDepth (·.isEmpty) }]
/-- DBR. -/
def dbrClaims (q : BitVec 3) (n : BitVec 1) (t : BitVec 11) (j : BitVec 11) : List Claim :=
    let taken : Cur → Group → Mask := fun c g => maskOf ((lanesOf c.lanes).filter (fun l => g.rf.Q q.toNat l == (n == 0)))
    let one : Cur → Group → Run → Slice → Bool → Option Slice := fun c g run sl b =>
      sl.dbr b (taken c g) (wordsFrom c.addr t.toInt) (behind run) (c.addr + BitVec.ofNat 64 (4 * j.toNat)) c.addr
    let split : Cur → Group → Run → Group := fun c g run => c.units.foldl (fun (x : Group) u => match x.slices[u.1]? with
      | some sl => x.setSlice u.1 ((one c g run sl u.2).getD sl)
      | none => x) g
    let deep : Cur → Group → Run → List (Nat × Bool) := fun c g run => c.units.filter (fun u => match g.slices[u.1]? with
      | some sl => (one c g run sl u.2).isNone
      | none => false)
    let sent : Cur → Group → List (Nat × Bool) := fun c g => c.units ++
      (c.units.filter (fun u => (g.slices[u.1]?).any (fun sl => !sl.dual))).map (fun u => (u.1, true))
    [jumps {} (fun c g run s => s.onCur c (fun _ => (split c g run).partGang c.gang s.now (sent c g)))
      (fun c g run _ => (g.predFault q.toNat (lanesOf c.lanes)).isNone && (deep c g run).isEmpty),
     { uses := plain {}, cond := fun c g run _ => (g.predFault q.toNat (lanesOf c.lanes)).isNone && !(deep c g run).isEmpty,
       effect := fun c g run s => s.onCur c (fun _ => (split c g run).keepFaulting c (deep c g run) (sent c g) s.now),
       ending := .fault (fun c g run _ => { code := 0x0C, lanes := g.unitLanes (deep c g run) }) }]
/-- EXIT. -/
def exitClaims : List Claim :=
    [jumps {} (fun c g _ s => s.onCur c (fun _ =>
        { g.exitUnits c.units with slices := (g.exitUnits c.units).slices.map (fun (sl : Slice) => sl.merge.getD sl) }))
      (soloTeam (fun t c g _ _ => t.levels.isEmpty && decide ((g.exitUnits c.units).badMerge = 0))),
     { uses := plain {}, cond := soloTeam (fun t c g _ _ => t.levels.isEmpty && decide ((g.exitUnits c.units).badMerge ≠ 0)),
       effect := fun c g _ s => s.onCur c (fun _ => g.exitUnits c.units),
       ending := .fault (fun c g _ _ => { code := 0x0D, lanes := (g.exitUnits c.units).badMerge }) },
     faults {} (plainFault 0x03 0x81) (ofTeam (fun t _ _ _ _ => !t.levels.isEmpty))]
/-- REGANG. -/
def regangClaims (a : BitVec 8) (m : BitVec 1) : List Claim :=
    [does { sr := if m = 1 then [(a.toNat, 1)] else [] } (fun c g _ s => s.onCur c (fun x => x.mapUnits c.units (fun _ _ u =>
        { u with st := .regang (g.named (if m = 1 then (g.rf.S a.toNat).toNat else 0))
                               (g.named (if m = 1 then (g.rf.S a.toNat).toNat else 0)) })))]

/-! ## Barriers, events, partitions, growth, traps (R177 to R191) -/

/-- SIGEV sets the bits of S(A) in EVPEND of the groups that S(B) names (R179). -/
def signals (a b : BitVec 8) : Effect := fun c g _ s => s.onTeam c.team (fun t => { t with groups := t.groups.map (fun (x : Group) =>
  if g.rf.S b.toNat = 0xFFFFFFFF ∨ x.id = (g.rf.S b.toNat).toNat then { x with evpend := x.evpend ||| (g.rf.S a.toNat &&& 0xFF) } else x) })

/-! BAR and BARP wait at their barriers; SIGEV, WAITEV, SLEEP, YIELD, ELECT, SETPART, GROW, SHRINK and ERRINJ (R177 to R183,
R190). -/
/-- BAR. -/
def barClaims : List Claim :=
    [waits {} (waitFor (fun _ _ _ => .barrier))]
/-- BARP. -/
def barpClaims (a : BitVec 8) (b : BitVec 4) : List Claim :=
    let u : Uses := { sr := [(a.toNat, 1)] }
    let n : Group → Nat := fun g => (g.rf.S a.toNat).toNat
    let there : Team → Effect := fun t => waitFor (fun _ g _ => .barp b.toNat (t.barp b.toNat).gen (n g))
    let last : Team → Cur → Group → Run → State → Bool := fun t c g run s =>
      ((there t c g run s).curGroup? c).any (fun x => x.allWait (Wait.atBarp b.toNat (t.barp b.toNat).gen))
    let good : Team → Group → Bool := fun t g => decide (1 ≤ n g) && decide (n g ≤ t.ngroups) &&
      ((t.barp b.toNat).expected.isNone || (t.barp b.toNat).expected == some (n g))
    let more : Team → Group → Bool := fun t g => decide ((t.barp b.toNat).arrived.length + 1 < n g)
    [waits u (byTeam there) (ofTeam (fun t c g run s => !last t c g run s)),
     waits u (byTeam (fun t c g run s => (there t c g run s).onTeam c.team (fun y =>
        y.setBarp b.toNat { y.barp b.toNat with expected := some (n g), arrived := (y.barp b.toNat).arrived ++ [g.id] })))
      (ofTeam (fun t c g run s => last t c g run s && good t g && more t g)),
     waits u (byTeam (fun t c g run s => (there t c g run s).onTeam c.team (fun y => y.arriveBarp b.toNat g.id (n g))))
      (ofTeam (fun t c g run s => last t c g run s && good t g && !more t g)),
     faults u (plainFault 0x03) (ofTeam (fun t c g run s => last t c g run s && !good t g))]
/-- SIGEV. -/
def sigevClaims (a : BitVec 8) (b : BitVec 8) : List Claim :=
    let u : Uses := { sr := [(a.toNat, 1), (b.toNat, 1)] }
    let named : Team → Group → Bool := fun t g => g.rf.S b.toNat == 0xFFFFFFFF || decide ((g.rf.S b.toNat).toNat < t.ngroups)
    [does u (signals a b) (ofTeam (fun t _ g _ s => named t g && releaseDone s t g 1 s.opCtr)),
     waits u noEffect (ofTeam (fun t _ g _ s => named t g && !releaseDone s t g 1 s.opCtr)),
     faults u (plainFault 0x03) (ofTeam (fun t _ g _ _ => !named t g))]
/-- WAITEV. -/
def waitevClaims (d : BitVec 8) (a : BitVec 8) : List Claim :=
    let u : Uses := { sr := [(a.toNat, 1)], sw := [(d.toNat, 1)] }
    let bits : Team → Word := fun t => if t.ctx = 0 then 0x3FF else 0xFF
    let takes : Claim := does u (fun c g _ s =>
        let x := g.evpend &&& g.rf.S a.toNat
        (s.onCur c (fun g => { g.putS d.toNat x with evpend := g.evpend &&& ~~~x })).acquire c 1)
      (ofTeam (fun t _ g _ _ => g.rf.S a.toNat &&& bits t != 0 && g.evpend &&& g.rf.S a.toNat != 0))
    [takes, takes.again,
     waits u (waitFor (fun _ g _ => .event (g.rf.S a.toNat)))
      (ofTeam (fun t _ g _ _ => g.rf.S a.toNat &&& bits t != 0 && g.evpend &&& g.rf.S a.toNat == 0)),
     faults u (plainFault 0x03) (ofTeam (fun t _ g _ _ => g.rf.S a.toNat &&& bits t == 0))]
/-- SLEEP. -/
def sleepClaims (a : BitVec 8) : List Claim :=
    [waits { sr := [(a.toNat, 1)] } (waitFor (fun _ g s => .sleep (s.now / 25 + (g.rf.S a.toNat).toNat)))]
/-- YIELD. -/
def yieldClaims : List Claim :=
    [does {} (fun c _ _ s => s.onCur c (fun g => g.young s.now))]
/-- ELECT. -/
def electClaims (d : BitVec 8) (q : BitVec 3) : List Claim :=
    [does { sw := [(d.toNat, 1)] } (fun c _ _ s => s.onCur c (fun g => g.files (fun r =>
      (lanesOf c.lanes).foldl (fun r l => r.setQ q.toNat l (l == (lanesOf c.lanes).headD 0))
        (r.setS d.toNat (BitVec.ofNat 32 ((lanesOf c.lanes).headD 0))))))]
/-- SETPART. -/
def setpartClaims (p : BitVec 4) : List Claim :=
    [{ uses := fun _ g _ => { bad := decide (p.toNat < 2) || decide (g.partMax < p.toNat) }, cond := always,
                     effect := onIssuer (fun _ _ _ _ x => { x with part := p.toNat }) }]
/-- GROW. -/
def growClaims (a : BitVec 8) : List Claim :=
    let u : Uses := { sr := [(a.toNat, 1)] }
    let n : Group → Nat := fun g => (g.rf.S a.toNat).toNat
    let good : Group → Bool := fun g => decide (n g % 8 = 0) && decide (n g ≤ 128)
    let takes : Claim := does u (fun c g _ s =>
        s.onCur c (fun x => { x with vregs := n g, rows := x.rows ++ growWords s g (n g) }))
      (ofTeam (fun t _ g _ s => good g && decide (g.vregs < n g) && !t.oldRegs.contains g.id && growFits s g (n g)))
    [does u noEffect (fun _ g _ _ => good g && decide (n g ≤ g.vregs)), takes, takes.again,
     waits u (waitFor (fun _ g _ => .grow (n g)))
      (ofTeam (fun t _ g _ s => good g && decide (g.vregs < n g) && !t.oldRegs.contains g.id && !growFits s g (n g))),
     faults u (plainFault 0x03) (fun _ g _ _ => decide (n g % 8 ≠ 0)),
     faults u (plainFault 0x0A) (fun _ g _ _ => decide (n g % 8 = 0) && decide (128 < n g)),
     { uses := plain u, cond := ofTeam (fun t _ g _ _ => good g && decide (g.vregs < n g) && t.oldRegs.contains g.id),
       effect := fun c g _ s => s.onTeam c.team (fun t => { t with oldRegs := t.oldRegs.filter (· != g.id) }), ending := plainFault 0x0A }]
/-- SHRINK. -/
def shrinkClaims (a : BitVec 8) : List Claim :=
    let u : Uses := { sr := [(a.toNat, 1)] }
    let n : Group → Nat := fun g => (g.rf.S a.toNat).toNat
    let good : Group → Bool := fun g => decide (n g % 8 = 0) && decide (1 ≤ n g)
    let held : Group → Bool := fun g => (List.range (g.vregs - n g)).any (fun i => g.pending false (n g + i))
    [does u noEffect (fun _ g _ _ => good g && decide (g.vregs ≤ n g)),
     does u (fun c g _ s => s.onCur c (fun x => x.release (n g))) (fun _ g _ _ => good g && decide (n g < g.vregs) && !held g),
     faults u (plainFault 0x0B) (fun _ g _ _ => good g && decide (n g < g.vregs) && held g),
     faults u (plainFault 0x03) (fun _ g _ _ => !good g)]
/-- ERRINJ. -/
def errinjClaims (a : BitVec 8) : List Claim :=
    let u : Uses := { priv := true, sr := [(a.toNat, 1)] }
    [does u (fun c g _ s => s.onCur c (fun x => { x with errinj := g.rf.S a.toNat &&& 0xF81FFF3F }))
      (ofTeam (fun t _ g _ _ => goodErrinj t.desc.protect (g.rf.S a.toNat))),
     faults u (plainFault 0x03) (ofTeam (fun t _ g _ _ => !goodErrinj t.desc.protect (g.rf.S a.toNat)))]

/-- A record that is no fault (R185): its KIND, NUM, address and FADDR. -/
def eventRecordOf (g : Group) (c : Cur) (kind num : Nat) (iaddr faddr : DWord) (inrun : Bool) : Record :=
  { code := 0, kind := kind, inrun := inrun, replay := false, sysmode := g.sysmode, double := false, group := g.id,
    num := num, iaddr := iaddr, lanes := c.lanes, faddr := faddr }

/-! TRAP delivers a KIND 1 record that names the word behind it, SYSCALL parks its gang and posts a KIND 2 record, HALT stops
the group and posts a KIND 4 record, ERET takes the shadow back, or raises ILLEGAL where none is held (R188 to R190). -/
/-- TRAP. -/
def trapClaims (n : BitVec 12) : List Claim :=
    [{ uses := plain {}, cond := always, ending := .free
       effect := fun c g _ s => deliver ((s.takeSlot c).onCur c (fun x => x.wordDone c.gang false)) c.team c.group c.gang
         (eventRecordOf g c 1 n.toNat (c.addr + 4) 0 true) }]
/-- SYSCALL. -/
def syscallClaims (a : BitVec 8) (n : BitVec 12) : List Claim :=
    [waits { sr := [(a.toNat, 2)], bad := decide (a.toNat % 2 = 1) } (byTeam (fun t c g run s =>
      postTeam (waitFor (fun _ _ _ => .syscall) c g run s) t 0
        { eventRecordOf g c 2 n.toNat c.addr (g.rf.S64 a.toNat) true with
          lanes := g.unitLanes ((g.gangUnits c.gang).map (fun u => (u.1, u.2.1))) }))]
/-- HALT. -/
def haltClaims : List Claim :=
    [waits { priv := true } (byTeam (fun t c g _ s =>
      postTeam (s.onCur c (fun x => { x with gangs := x.gangs.map (fun (k : Gang) => { k with wait := .halted }) })) t 0
        (eventRecordOf g c 4 0 c.addr 0 true)))]
/-- ERET. -/
def eretClaims (sg : BitVec 1) : List Claim :=
    [{ uses := plain { priv := true }, cond := fun _ g _ _ => g.shadow.isSome, ending := .free
       effect := fun c _ _ s => (s.takeSlot c).onCur c (fun x => (x.eret (sg == 1)).getD x) },
      faults { priv := true } (plainFault 0x01) (fun _ g _ _ => g.shadow.isNone)]

/-- Every claim of a list holds of an instruction. -/
def AllHold (i : Instr) (l : List Claim) : Prop := ∀ x ∈ l, x.Holds i
/-! ## Column words (R194 to R217) -/

/-- The active lanes in the slice of a lane. -/
def mates (c : Cur) (g : Group) (l : Nat) : List Nat := (lanesOf c.lanes).filter (fun m => g.sliceOf m == g.sliceOf l)

/-- The tag that the slice of a lane goes by (R121, R122), where its unit issues the word, its lanes agree on one tag that the
word accepts, and the write splits no tag. -/
def LaneOp.tagOf (op : LaneOp) (c : Cur) (g : Group) (l : Nat) : Option Nat :=
  if !(unitSlices c.units).contains (g.sliceOf l) then none else
  match op.slice g (mates c g l) with
  | (t, none) => some t
  | (_, some _) => none

/-- Every active lane reaches its registers (R79, R216), its slice has its tag, no operand is damaged (R194), no flag
whose trap is enabled comes of it (R134), and no unit that the word uses goes wrong in it (R194). -/
def LaneOp.clean (op : LaneOp) (c : Cur) (g : Group) (run : Run) : Bool :=
  (lanesOf c.lanes).all (fun l => (op.prim.map (·.code) ++ op.dst.code?).all (fun x => g.inWindow x l) &&
    (op.tagOf c g l).any (fun t => ((op.more t).map (·.code)).all (fun x => g.inWindow x l) && (op.damaged g t l).isNone &&
      !flagsMeet (flagsOr (op.value g run g.rf t l).2) g.traps && !(op.unit && g.unitBad.contains l)))

/-- One lane's result goes to its register, predicate or index register with the residue of what is written (R194). -/
def Dst.put (d : Dst) (g : Group) (l : Nat) (w : Word) (rf : RegFile) : RegFile :=
  match d with
  | .vec x => match g.regAt rf x l with
    | some r => rf.setV r l w
    | none => rf
  | .pred q => rf.setQ q l (w.getLsbD 0)
  | .idx k => rf.setX k l (w.setWidth 8)

/-- What a lane-local word does where no lane faults and no injection is armed: each active lane's result in each file, the
result's tag for each slice written (R122), the sticky flags and their counts (R135 to R137). -/
def laneEffect (o : Cur → Group → Run → LaneOp) : Effect := fun c g run s =>
  let op := o c g run
  let lanes := lanesOf c.lanes
  let t (l : Nat) : Nat := (op.tagOf c g l).getD 0
  let file (rf : RegFile) : RegFile := lanes.foldl (fun (x : RegFile) l => op.dst.put g l (op.value g run rf (t l) l).1 x) rf
  let flags := lanes.flatMap (fun l => (op.value g run g.rf (t l) l).2)
  let tags := lanes.foldl (fun (x : Group) l => match op.dst with
    | .vec code => (match g.regAt g.rf code l with
      | some r => x.setTag r (g.sliceOf l) (op.resTag (t l))
      | none => x)
    | _ => x) g
  s.onCur c (fun h => { h with rf := file g.rf, sh := g.sh.map file, tags := tags.tags,
                               fpstat := (g.record flags).fpstat, fpcnt := (g.record flags).fpcnt, errinj := g.errinj })

/-- A lane-local word: over where every lane is clean and no injection is armed (R446). -/
def laneClaim (u : Cur → Group → Run → Uses) (o : Group → Run → LaneOp) : Claim :=
  { uses := u, cond := fun c g run _ => (o g run).clean c g run && !g.errinj.getLsbD 31, effect := laneEffect (fun _ => o) }

/-- Element by element over the lane's operands: element i of the result from element i of each. -/
def byElems (f : Nat → List Nat → ER) (t : Nat) (vs : List Word) : Word × List Nat :=
  let rs := (List.range (tagCount t)).map (fun i => f t (vs.map (fun v => elem t v i)))
  (packElems t (rs.map (·.v)), rs.map (·.fl))

/-- Element k of a list. -/
def el (es : List Nat) (k : Nat) : Nat := es.getD k 0

/-- An element operation by its integer form, wrapped to the element's width (R123), and its float form (R125). -/
def mixed (i : Int → Int → Int) (f : Fmt → FVal → FVal → ER) (t : Nat) (es : List Nat) : ER :=
  if floatTag t then f (fmtOf t) ((fmtOf t).read (el es 0)) ((fmtOf t).read (el es 1))
  else ⟨(i (elemInt t (el es 0)) (elemInt t (el es 1)) % 2 ^ tagWidth t).toNat, 0⟩

/-- Minimum or maximum of two elements (R128). -/
def least (wantMax : Bool) (t : Nat) (es : List Nat) : ER :=
  if floatTag t then (fmtOf t).minMax wantMax (el es 0) (el es 1)
  else ⟨if (wantMax = false ∧ elemInt t (el es 0) ≤ elemInt t (el es 1)) ∨ (wantMax = true ∧ elemInt t (el es 1) < elemInt t (el es 0))
    then el es 0 else el es 1, 0⟩

/-- The words D = f(A, B) with the tags they accept and what they compute of an element under a rounding mode (R197, R201). -/
def vec3 : List (Word3 × (Nat → Bool) × (Nat → Nat → List Nat → ER)) :=
  [(.vadd, arithTag, fun rm => mixed (· + ·) (fun f x y => f.addV rm x y)),
   (.vsub, arithTag, fun rm => mixed (· - ·) (fun f x y => f.addV rm x y.neg)),
   (.vmul, arithTag, fun rm => mixed (· * ·) (fun f x y => f.mulV rm x y)),
   (.vmin, arithTag, fun _ => least false), (.vmax, arithTag, fun _ => least true),
   (.vmulh, intTag, fun _ t es => ⟨wrapInt (tagWidth t) (elemInt t (el es 0) * elemInt t (el es 1) / 2 ^ tagWidth t), 0⟩),
   (.vsadd, intTag, fun _ t es => ⟨wrapInt (tagWidth t) (max (intMin t) (min (intMax t) (elemInt t (el es 0) + elemInt t (el es 1)))), 0⟩),
   (.vssub, intTag, fun _ t es => ⟨wrapInt (tagWidth t) (max (intMin t) (min (intMax t) (elemInt t (el es 0) - elemInt t (el es 1)))), 0⟩)]

/-- The words D = f(A, B) on whole words (R198). -/
def logic3 : List (Word3 × (Word → Word → Word)) :=
  [(.vand, fun x y => x &&& y), (.vor, fun x y => x ||| y), (.vxor, fun x y => x ^^^ y), (.vandn, fun x y => x &&& ~~~y)]

/-- The words D = f(A) with the tags they accept and what they compute of an element (R206 to R208). -/
def vec2 : List (Word2 × (Nat → Bool) × (Nat → Nat → ER)) :=
  [(.vrcp, floatTag, fun t => (fmtOf t).rcp t), (.vrsq, floatTag, fun t => (fmtOf t).rsq t), (.vsqrt, floatTag, fun t => (fmtOf t).sqrt t),
   (.vexp2, floatTag, fun t => (fmtOf t).exp2 t), (.vlog2, floatTag, fun t => (fmtOf t).log2 t), (.vsin, floatTag, fun t => (fmtOf t).sin t),
   (.vcos, floatTag, fun t => (fmtOf t).cos t), (.vtanh, floatTag, fun t => (fmtOf t).tanh t), (.vfrac, floatTag, fun t => (fmtOf t).frac),
   (.vabs, arithTag, absElem), (.vneg, arithTag, negElem), (.vclz, intTag, fun t x => ⟨leadZeros (tagWidth t) x, 0⟩),
   (.vpopc, intTag, fun t x => ⟨popCount (tagWidth t) x, 0⟩), (.vbrev, intTag, fun t x => ⟨bitRev (tagWidth t) x, 0⟩)]

/-- Q(D) = f(Q(A), Q(B)) (R205). -/
def preds3 : List (Word3 × (Bool → Bool → Bool)) :=
  [(.pand, fun x y => x && y), (.por, fun x y => x || y), (.pxor, fun x y => x != y), (.pandn, fun x y => x && !y)]

/-- The words that write a word of each lane tagged INT32 (R204). -/
def identities : List ((BitVec 8 → Instr) × (Group → Nat → Nat)) :=
  [(.vlane, fun _ l => l), (.vtid, fun g l => g.id * g.lanes + l), (.vslice, fun g l => g.sliceOf l)]

/-- Operand k of a lane. -/
def ar (vs : List Word) (k : Nat) : Word := vs.getD k 0

/-- A comparison of every element pair (R129, R202). -/
def compares (cond : Nat) (t : Nat) (x y : Word) : List (Bool × Nat) :=
  (List.range (tagCount t)).map (fun i => cmpElem t cond (elem t x i) (elem t y i))

/-- POS and LEN of VBFE and VBFI: bits 4..0 and 10..5, LEN cut at the word's end (R200). -/
def fieldAt (w : Word) : Nat × Nat := (w.toNat % 32, min (w.toNat / 32 % 64) (32 - w.toNat % 32))

/-- VACTIVE: the active lanes of the lane's half of 32 (R204). -/
def activeOp (d : Nat) (c : Cur) : LaneOp :=
  { prim := [], accept := fun _ => true, resTag := fun _ => 0, dst := .vec d,
    f := fun _ _ l _ => (BitVec.ofNat 32 (c.lanes.toNat / 2 ^ (32 * (l / 32)) % 2 ^ 32), []) }

/-- VCVT to a tag other than BPNP: element i of A then of the HOPND operand, rounded and narrowed (R130, R131, R203); elements that
no source gives are free values (log entry 2), from a counter n. -/
def conversion (t : BitVec 4) (r : BitVec 2) (sg : BitVec 1) (d a : BitVec 8) (run : Run) (n : Nat) : LaneOp :=
  { prim := [src a 1], unit := true
    more := fun x => if arithTag x && arithTag t.toNat && decide (tagCount x < tagCount t.toNat) then [⟨run.hop, 1, 4⟩] else [],
    accept := fun x => arithTag x && arithTag t.toNat, resTag := fun _ => t.toNat, dst := .vec d.toNat,
    f := fun _ x l vs =>
      let rs : List ER := (List.range (tagCount t.toNat)).map (fun i =>
        if i < tagCount x then cvtElem r.toNat (sg == 1) x t.toNat (elem x (ar vs 0) i)
        else if i < 2 * tagCount x then cvtElem r.toNat (sg == 1) x t.toNat (elem x (ar vs 1) (i - tagCount x))
        else ⟨Config.freeNat (n + l * 4 + i) % 2 ^ tagWidth t.toNat, 0⟩)
      (packElems t.toNat (rs.map (·.v)), rs.map (·.fl)) }

/-- The tag of a conversion's source in an active lane of an issuing slice that reaches it, INT32 of an immediate or broadcast
(R80), has fewer elements than the conversion's result, so that a HOPND gives the others (R130). -/
def wants (t : BitVec 4) (a : BitVec 8) (c : Cur) (g : Group) : Bool :=
  (lanesOf c.lanes).any (fun l => (unitSlices c.units).contains (g.sliceOf l) && g.inWindow a.toNat l &&
    (let x := (g.srcTag a.toNat l).getD 0
     arithTag x && arithTag t.toNat && decide (tagCount x < tagCount t.toNat)))

/-! The lane-local words beside the tables (R197 to R204, R209, R215, R217). -/
/-- VMA. -/
def vmaClaims (d : BitVec 8) (a : BitVec 8) (b : BitVec 8) : List Claim :=
    [laneClaim (plain (vecUsesD d a b)) (fun g _ =>
      { prim := [src a 1, src b 2, src d 3], unit := true, accept := arithTag, resTag := id, dst := .vec d.toNat,
        f := fun _ t _ vs => byElems (fun t es => maElem g.rm t (el es 0) (el es 1) (el es 2)) t vs })]
/-- VMAD. -/
def vmadClaims (d : BitVec 8) (a : BitVec 8) (b : BitVec 8) : List Claim :=
    [laneClaim (plain { vecUses d a b with hopnd := .needs }) (fun g run =>
      { prim := [src a 1, src b 2, ⟨run.hop, 1, 4⟩], unit := true, accept := arithTag, resTag := id, dst := .vec d.toNat,
        f := fun _ t _ vs => byElems (fun t es => maElem g.rm t (el es 0) (el es 1) (el es 2)) t vs })]
/-- VSEL. -/
def vselClaims (n : BitVec 2) (d : BitVec 8) (a : BitVec 8) (b : BitVec 8) : List Claim :=
    [laneClaim (plain (vecUses d a b)) (fun _ _ =>
      { prim := [src a 1, src b 2], preds := [n.toNat], accept := fun _ => true, resTag := id, dst := .vec d.toNat,
        f := fun rf _ l vs => (if rf.Q n.toNat l then ar vs 0 else ar vs 1, []) })]
/-- VSHL. -/
def vshlClaims (d : BitVec 8) (a : BitVec 8) (b : BitVec 8) : List Claim :=
    [laneClaim (plain (vecUses d a b)) (fun _ _ =>
      { prim := [src a 1, rawSrc b 2], unit := true, accept := intTag, resTag := id, dst := .vec d.toNat,
        f := fun _ t _ vs => byElems (fun t es => shlElem t (shiftCount (ar vs 1)) (el es 0)) t [ar vs 0] })]
/-- VSHR. -/
def vshrClaims (d : BitVec 8) (a : BitVec 8) (b : BitVec 8) : List Claim :=
    [laneClaim (plain (vecUses d a b)) (fun _ _ =>
      { prim := [src a 1, rawSrc b 2], unit := true, accept := intTag, resTag := id, dst := .vec d.toNat,
        f := fun _ t _ vs => byElems (fun t es => shrElem t (shiftCount (ar vs 1)) (el es 0)) t [ar vs 0] })]
/-- VBFE. -/
def vbfeClaims (d : BitVec 8) (a : BitVec 8) (b : BitVec 8) : List Claim :=
    [laneClaim (plain (vecUses d a b)) (fun _ _ =>
      { prim := [src a 1, rawSrc b 2], unit := true, accept := intTag, resTag := id, dst := .vec d.toNat,
        f := fun _ t _ vs =>
          let p := (fieldAt (ar vs 1)).1
          let n := (fieldAt (ar vs 1)).2
          let v := (ar vs 0).toNat / 2 ^ p % 2 ^ n
          (if n = 0 then 0 else BitVec.ofInt 32 (if signedTag t then signed n v else (v : Int)), []) })]
/-- VBFI. -/
def vbfiClaims (d : BitVec 8) (a : BitVec 8) (b : BitVec 8) : List Claim :=
    [laneClaim (plain (vecUsesD d a b)) (fun _ _ =>
      { prim := [src a 1, rawSrc b 2, src d 3], unit := true, accept := intTag, resTag := id, dst := .vec d.toNat,
        f := fun _ _ _ vs =>
          let p := (fieldAt (ar vs 1)).1
          let n := (fieldAt (ar vs 1)).2
          let old := (ar vs 2).toNat
          (BitVec.ofNat 32 (old - old / 2 ^ p % 2 ^ n * 2 ^ p + (ar vs 0).toNat % 2 ^ n * 2 ^ p), []) })]
/-- VDOT2. -/
def vdot2Claims (d : BitVec 8) (a : BitVec 8) (b : BitVec 8) : List Claim :=
    [laneClaim (plain (vecUsesD d a b)) (fun _ _ =>
      { prim := [src a 1, src b 2], more := fun _ => [⟨d.toNat, 2, 3⟩], unit := true, accept := fun t => t == 5, resTag := fun t => if t = 7 then 1 else 0,
        dst := .vec d.toNat,
        f := fun _ t _ vs => (BitVec.ofInt 32 ((ar vs 2).toNat +
          ((List.range (tagCount t)).map (fun i => elemInt t (elem t (ar vs 0) i) * elemInt t (elem t (ar vs 1) i))).sum), []) })]
/-- VDOT4. -/
def vdot4Claims (d : BitVec 8) (a : BitVec 8) (b : BitVec 8) : List Claim :=
    [laneClaim (plain (vecUsesD d a b)) (fun _ _ =>
      { prim := [src a 1, src b 2], more := fun _ => [⟨d.toNat, 2, 3⟩], unit := true, accept := fun t => t == 6 || t == 7,
        resTag := fun t => if t = 7 then 1 else 0, dst := .vec d.toNat,
        f := fun _ t _ vs => (BitVec.ofInt 32 ((ar vs 2).toNat +
          ((List.range (tagCount t)).map (fun i => elemInt t (elem t (ar vs 0) i) * elemInt t (elem t (ar vs 1) i))).sum), []) })]
/-- VCMP. -/
def vcmpClaims (k : BitVec 5) (q : BitVec 3) (a : BitVec 8) (b : BitVec 8) : List Claim :=
    [laneClaim (plain { role := .vector, vr := [a.toNat, b.toNat] }) (fun _ _ =>
      { prim := [src a 1, src b 2], unit := true, accept := arithTag, resTag := id, dst := .pred q.toNat,
        f := fun _ t _ vs => (boolWord ((compares k.toNat t (ar vs 0) (ar vs 1)).all (·.1)), (compares k.toNat t (ar vs 0) (ar vs 1)).map (·.2)) })]
/-- VCMPA. -/
def vcmpaClaims (k : BitVec 5) (q : BitVec 3) (a : BitVec 8) (b : BitVec 8) : List Claim :=
    [laneClaim (plain { role := .vector, vr := [a.toNat, b.toNat] }) (fun _ _ =>
      { prim := [src a 1, src b 2], preds := [q.toNat], unit := true, accept := arithTag, resTag := id, dst := .pred q.toNat,
        f := fun rf t l vs => (boolWord (rf.Q q.toNat l && (compares k.toNat t (ar vs 0) (ar vs 1)).all (·.1)),
          (compares k.toNat t (ar vs 0) (ar vs 1)).map (·.2)) })]
/-- VCMPO. -/
def vcmpoClaims (k : BitVec 5) (q : BitVec 3) (a : BitVec 8) (b : BitVec 8) : List Claim :=
    [laneClaim (plain { role := .vector, vr := [a.toNat, b.toNat] }) (fun _ _ =>
      { prim := [src a 1, src b 2], preds := [q.toNat], unit := true, accept := arithTag, resTag := id, dst := .pred q.toNat,
        f := fun rf t l vs => (boolWord (rf.Q q.toNat l || (compares k.toNat t (ar vs 0) (ar vs 1)).all (·.1)),
          (compares k.toNat t (ar vs 0) (ar vs 1)).map (·.2)) })]
/-- VRETAG. -/
def vretagClaims (t : BitVec 4) (d : BitVec 8) (a : BitVec 8) : List Claim :=
    [laneClaim (plain (vecUses1 d a)) (fun _ _ =>
      { prim := [rawSrc a 1], accept := fun _ => true, resTag := fun _ => t.toNat, dst := .vec d.toNat, f := fun _ _ _ vs => (ar vs 0, []) })]
/-- VMOV. -/
def vmovClaims (d : BitVec 8) (a : BitVec 8) : List Claim :=
    [laneClaim (plain (vecUses1 d a)) (fun _ _ =>
      { prim := [src a 1], accept := fun _ => true, resTag := id, dst := .vec d.toNat, f := fun _ _ _ vs => (ar vs 0, []) })]
/-- VMOVS. -/
def vmovsClaims (d : BitVec 8) (n : BitVec 9) : List Claim :=
    [laneClaim (plain { role := .vector, sr := [(n.toNat, 1)], vw := [d.toNat] }) (fun _ _ =>
      { prim := [], accept := fun _ => true, resTag := fun _ => 0, dst := .vec d.toNat, f := fun rf _ _ _ => (rf.S n.toNat, []) })]
/-- VLI. -/
def vliClaims (d : BitVec 8) (i : BitVec 12) : List Claim :=
    [laneClaim (fun _ _ run => { role := .vector, vw := [d.toNat], bad := run.imm.isSome && decide (i ≠ 0) }) (fun _ run =>
      { prim := [], accept := fun _ => true, resTag := fun _ => 0, dst := .vec d.toNat,
        f := fun _ _ _ _ => (match run.imm with | some w => w | none => BitVec.ofInt 32 i.toInt, []) })]
/-- VACTIVE. -/
def vactiveClaims (d : BitVec 8) : List Claim :=
    [{ uses := plain { role := .vector, vw := [d.toNat] },
                     cond := fun c g run _ => (activeOp d.toNat c).clean c g run && !g.errinj.getLsbD 31, effect := laneEffect (fun c _ _ => activeOp d.toNat c) }]
/-- VROUND. -/
def vroundClaims (d : BitVec 8) (a : BitVec 8) (r : BitVec 2) : List Claim :=
    [laneClaim (plain (vecUses1 d a)) (fun _ _ =>
      { prim := [src a 1], unit := true, accept := floatTag, resTag := id, dst := .vec d.toNat,
        f := fun _ t _ vs => byElems (fun t es => (fmtOf t).integral r.toNat (el es 0)) t vs })]
/-- VCLASS. -/
def vclassClaims (d : BitVec 8) (a : BitVec 8) : List Claim :=
    [laneClaim (plain (vecUses1 d a)) (fun _ _ =>
      { prim := [src a 1], accept := floatTag, resTag := fun _ => 0, dst := .vec d.toNat,
        f := fun _ t _ vs => (BitVec.ofNat 32 (((List.range (tagCount t)).map
          (fun i => 2 ^ (16 * i + (fmtOf t).classBit (elem t (ar vs 0) i)))).sum), []) })]
/-- VNOT. -/
def vnotClaims (d : BitVec 8) (a : BitVec 8) : List Claim :=
    [laneClaim (plain (vecUses1 d a)) (fun _ _ =>
      { prim := [src a 1], accept := logicTag, resTag := id, dst := .vec d.toNat, f := fun _ _ _ vs => (~~~(ar vs 0), []) })]
/-- XSET. -/
def xsetClaims (k : BitVec 2) (a : BitVec 8) : List Claim :=
    [laneClaim (plain { role := .vector, vr := [a.toNat] }) (fun _ _ =>
      { prim := [rawSrc a 1], accept := fun _ => true, resTag := id, dst := .idx k.toNat, f := fun _ _ _ vs => (ar vs 0, []) })]
/-- XADD. -/
def xaddClaims (k : BitVec 2) (i : BitVec 8) : List Claim :=
    [laneClaim (plain { role := .vector }) (fun _ _ =>
      { prim := [], idxs := [k.toNat], unit := true, accept := fun _ => true, resTag := id, dst := .idx k.toNat,
        f := fun rf _ l _ => (BitVec.ofNat 32 (((rf.X k.toNat l).toNat + i.toNat) % 256), []) })]
/-- XWIN. -/
def xwinClaims (b : BitVec 8) (l : BitVec 8) : List Claim :=
    [does { role := .vector, bad := decide (127 < b.toNat) || decide (128 < l.toNat) || decide (128 < b.toNat + l.toNat) }
      (onIssuer (fun _ _ _ _ g => { g with winbase := b.toNat, winlen := l.toNat }))]
/-- VRAND. -/
def vrandClaims (d : BitVec 8) (a : BitVec 8) (k : BitVec 4) : List Claim :=
    [laneClaim (fun _ _ run => { vecUses1 d a with sr := [(2 * k.toNat, 2)], bad := decide (255 < (run.imm.getD 0).toNat) }) (fun _ run =>
      { prim := [rawSrc a 1], unit := true, accept := fun _ => true, resTag := fun _ => 1, dst := .vec d.toNat,
        f := fun rf _ _ vs => (randWord (rf.S (2 * k.toNat)) (rf.S (2 * k.toNat + 1)) (run.imm.getD 0).toNat (ar vs 0), []) })]
/-- VRANDU. -/
def vranduClaims (d : BitVec 8) (a : BitVec 8) (k : BitVec 4) : List Claim :=
    [laneClaim (fun _ _ run => { vecUses1 d a with sr := [(2 * k.toNat, 2)], bad := decide (255 < (run.imm.getD 0).toNat) }) (fun _ run =>
      { prim := [rawSrc a 1], unit := true, accept := fun _ => true, resTag := fun _ => 2, dst := .vec d.toNat,
        f := fun rf _ _ vs =>
          let h := randWord (rf.S (2 * k.toNat)) (rf.S (2 * k.toNat + 1)) (run.imm.getD 0).toNat (ar vs 0)
          (BitVec.ofNat 32 (fp32.round 0 false (h.toNat / 256) (-24)).v, []) })]

/-! ## Cross-lane words (R210 to R214) -/

/-- The partitions that the issuing slices lie in (R210). -/
def partitions (op : CrossOp) (c : Cur) (g : Group) : List PartOut :=
  let here (b : Nat) : Bool := (unitSlices c.units).any (fun sl => decide (b < (sl + 1) * g.perSlice) && decide (sl * g.perSlice < b + op.size))
  (((List.range (g.lanes / max 1 op.size)).map (· * op.size)).filter here).map (op.part g (lanesOf c.lanes))

/-- What a cross-lane word does where no lane of the partitions faults and no injection is armed: with all reads before all
writes, each member lane's words go to the destinations, or each partition's word to its uniform register, with the tags,
the sticky flags and their counts, and GSTAT.EMPTY for an empty partition of a reduction or scan (R210, R213, R135). -/
def crossEffect (o : Cur → Group → Run → CrossOp) : Effect := fun c g run s =>
  let op := o c g run
  let ps := partitions op c g
  let empty (sh : Bool) (p : PartOut) : Word :=
    if p.members.isEmpty then
      op.identity (match (unitSlices c.units).find? (fun sl =>
          decide (p.base < (sl + 1) * g.perSlice) && decide (sl * g.perSlice < p.base + op.size)) with
        | some sl => (match op.srcs with | code :: _ => (g.srcTag code (max p.base (sl * g.perSlice))).getD 0 | [] => 0)
        | none => 0)
    else if sh then p.shadow.uni else p.main.uni
  let lane (sh : Bool) (p : PartOut) (rf : RegFile) (l : Nat) : RegFile :=
    let ws := (if sh then p.shadow else p.main).vals l
    let rf := op.vdst.zipIdx.foldl (fun (x : RegFile) d => match g.regAt x d.1 l with
      | some k => x.setV k l (ws.getD d.2 0)
      | none => x) rf
    match op.pdst with
    | some q => rf.setQ q l ((ws.getD 0 0).getLsbD 0)
    | none => rf
  let file (sh : Bool) (rf : RegFile) : RegFile := ps.foldl (fun (x : RegFile) p => match op.sdst with
    | some d => x.setS (d + p.base / max 1 op.size) (empty sh p)
    | none => p.members.foldl (lane sh p) x) rf
  let tags := ps.foldl (fun (x : Group) p => p.members.foldl (fun (x : Group) l => op.vdst.foldl (fun (x : Group) code =>
    match g.regAt g.rf code l with
    | some r => x.setTag r (g.sliceOf l) (op.resTag p.tag)
    | none => x) x) x) g
  let flags := ps.flatMap (fun p => if p.members.isEmpty then [] else p.flags)
  s.onCur c (fun h => { h with rf := file false g.rf, sh := g.sh.map (file true), tags := tags.tags,
                               fpstat := (g.record flags).fpstat, fpcnt := (g.record flags).fpcnt, errinj := g.errinj,
                               empty := h.empty || (op.marksEmpty && ps.any (·.members.isEmpty)) })

/-- A cross-lane word: over where no lane of its partitions faults and no injection is armed (R446). -/
def crossClaim (u : Cur → Group → Run → Uses) (o : Group → Run → CrossOp) : Claim :=
  { uses := u,
    cond := fun c g run _ => (partitions (o g run) c g).all (fun p => p.faults.isEmpty && p.good == p.members) && !g.errinj.getLsbD 31 &&
      !((o g run).unit && (lanesOf c.lanes).any (fun l => g.unitBad.contains l))
    effect := crossEffect (fun _ => o) }

/-- A result of a partition that raises no flag: the words of each lane, and what each lane reads. -/
def moves (vals : Nat → List Word) (reads : Nat → List (Nat × Nat)) : PartRes :=
  { vals := vals, reads := reads, flags := [], laneFlags := fun _ => 0, uni := 0 }

/-- The shuffles: whether the HOPND is uniform, and the source position from the lane's own, the operand and the size (R211). -/
def shuffles : List (Word2 × Bool × (Nat → Nat → Nat → Option Nat)) :=
  [(.vshfl, false, fun _ b p => some (b % p)), (.vshflu, false, fun i b _ => if b ≤ i then some (i - b) else none),
   (.vshfld, false, fun i b p => if i + b < p then some (i + b) else none), (.vshflx, false, fun i b p => some (i ^^^ (b % p))),
   (.vbcast, true, fun _ b p => some (b % p))]

/-- A shuffle's computation: a lane without an active source lane in the partition keeps its own A (R211). -/
def shuffleOp (j : Nat → Nat → Nat → Option Nat) (d a : BitVec 8) (g : Group) (run : Run) : CrossOp :=
  { srcs := [a.toNat], own := [run.hop], accept := fun _ => true, resTag := id, size := 2 ^ g.part, vdst := [d.toNat],
    f := fun rf _ base ms =>
      let source (l : Nat) : Nat := match j (l - base) ((g.srcVal run rf run.hop l).getD 0).toNat (2 ^ g.part) with
        | some p => if p < 2 ^ g.part ∧ ms.contains (base + p) then base + p else l
        | none => l
      moves (fun l => [(g.srcVal run rf a.toNat (source l)).getD 0]) (fun l => [(a.toNat, source l)]) }

/-- The reductions (R213). -/
def reductions : List ((BitVec 8 → BitVec 8 → BitVec 2 → BitVec 1 → Instr) × RedOp) :=
  [(.vredadd, .add), (.vredmin, .min), (.vredmax, .max), (.vredand, .and), (.vredor, .or), (.vredxor, .xor)]

/-- The scans (R213). -/
def scans : List ((BitVec 8 → BitVec 8 → BitVec 2 → BitVec 1 → Instr) × RedOp) := [(.vscanadd, .add), (.vscanmin, .min), (.vscanmax, .max)]

/-- What a reduction uses: with .u the uniform registers of the partitions that its slices lie in. -/
def reduceUses (d a : BitVec 8) (u : BitVec 1) (c : Cur) (g : Group) : Uses :=
  if u = 1 then
    let n := g.lanes / g.partSize
    let seen := (List.range n).filter (fun k => (unitSlices c.units).any (fun sl =>
      decide (k * g.partSize < (sl + 1) * g.perSlice) && decide (sl * g.perSlice < (k + 1) * g.partSize)))
    { role := .vector, vr := [a.toNat], sw := seen.map (fun k => (d.toNat + k, 1)),
      bad := decide (255 < d.toNat + n - 1) || decide (g.sregs ≤ d.toNat + n - 1) }
  else { role := .vector, vr := [a.toNat], vw := [d.toNat] }

/-- A reduction over a partition: every element position by a pairwise tree over the positions, the identity where a lane is no
member (R141, R151, R213). -/
def reduceOp (o : RedOp) (d a : BitVec 8) (q : BitVec 2) (u : BitVec 1) (g : Group) (run : Run) : CrossOp :=
  { srcs := [a.toNat], qual := if q = 0 then none else some q.toNat, accept := o.accepts, resTag := id, size := 2 ^ g.part,
    vdst := if u = 1 then [] else [d.toNat], sdst := if u = 1 then some d.toNat else none, marksEmpty := true, unit := o.units, identity := o.identWord,
    f := reducePart o g run a (2 ^ g.part) }

/-! The words that pass a partition's lanes through each other beside the tables (R212, R214), and VCVT to BPNP (R146). -/
/-- VVOTEANY. -/
def vvoteanyClaims (d : BitVec 8) (a : BitVec 8) : List Claim :=
    [crossClaim (plain { role := .vector, bad := decide (8 ≤ d.toNat ∨ 8 ≤ a.toNat) }) (fun g _ =>
      { srcs := [], preds := [a.toNat], accept := fun _ => true, resTag := id, size := 2 ^ g.part, pdst := some d.toNat,
        f := fun rf _ _ ms => moves (fun _ => [boolWord (ms.any (rf.Q a.toNat))]) (fun _ => ms.map (fun m => (0x8F, m))) })]
/-- VVOTEALL. -/
def vvoteallClaims (d : BitVec 8) (a : BitVec 8) : List Claim :=
    [crossClaim (plain { role := .vector, bad := decide (8 ≤ d.toNat ∨ 8 ≤ a.toNat) }) (fun g _ =>
      { srcs := [], preds := [a.toNat], accept := fun _ => true, resTag := id, size := 2 ^ g.part, pdst := some d.toNat,
        f := fun rf _ _ ms => moves (fun _ => [boolWord (ms.all (rf.Q a.toNat))]) (fun _ => ms.map (fun m => (0x8F, m))) })]
/-- VBALLOT. -/
def vballotClaims (d : BitVec 8) (a : BitVec 8) : List Claim :=
    [crossClaim (plain { role := .vector, vw := [d.toNat], bad := decide (8 ≤ a.toNat) }) (fun g _ =>
      { srcs := [], preds := [a.toNat], accept := fun _ => true, resTag := fun _ => 1, size := 2 ^ g.part, vdst := [d.toNat],
        f := fun rf _ _ ms => moves
          (fun l => [BitVec.ofNat 32 (((ms.filter (fun m => m / 32 == l / 32)).filter (rf.Q a.toNat)).foldl (fun x m => x + 2 ^ (m % 32)) 0)])
          (fun l => (ms.filter (fun m => m / 32 == l / 32)).map (fun m => (0x8F, m))) })]
/-- VZIP. -/
def vzipClaims (n : BitVec 2) (d : BitVec 8) (a : BitVec 8) : List Claim :=
    let k := n.toNat + 1
    [crossClaim (plain { role := .vector, vr := if badRange a.toNat k then [] else (List.range k).map (fun i => a.toNat + i),
                         vw := if badRange d.toNat k then [] else (List.range k).map (fun i => d.toNat + i),
                         bad := badRange a.toNat k || badRange d.toNat k }) (fun g run =>
      let origin (r p : Nat) : Nat × Nat := ((r * 2 ^ g.part + p) % k, (r * 2 ^ g.part + p) / k)
      { srcs := (List.range k).map (fun i => a.toNat + i), accept := fun _ => true, resTag := id, size := 2 ^ g.part,
        vdst := (List.range k).map (fun i => d.toNat + i),
        f := fun rf _ base ms => moves
          (fun l => (List.range k).map (fun r => if ms.contains (base + (origin r (l - base)).2) then
            (g.srcVal run rf (a.toNat + (origin r (l - base)).1) (base + (origin r (l - base)).2)).getD 0 else 0))
          (fun l => ((List.range k).map (fun r => (a.toNat + (origin r (l - base)).1, base + (origin r (l - base)).2))).filter
            (fun x => ms.contains x.2)) })]
/-- VUNZIP. -/
def vunzipClaims (n : BitVec 2) (d : BitVec 8) (a : BitVec 8) : List Claim :=
    let k := n.toNat + 1
    [crossClaim (plain { role := .vector, vr := if badRange a.toNat k then [] else (List.range k).map (fun i => a.toNat + i),
                         vw := if badRange d.toNat k then [] else (List.range k).map (fun i => d.toNat + i),
                         bad := badRange a.toNat k || badRange d.toNat k }) (fun g run =>
      let origin (r p : Nat) : Nat × Nat := ((p * k + r) / 2 ^ g.part, (p * k + r) % 2 ^ g.part)
      { srcs := (List.range k).map (fun i => a.toNat + i), accept := fun _ => true, resTag := id, size := 2 ^ g.part,
        vdst := (List.range k).map (fun i => d.toNat + i),
        f := fun rf _ base ms => moves
          (fun l => (List.range k).map (fun r => if ms.contains (base + (origin r (l - base)).2) then
            (g.srcVal run rf (a.toNat + (origin r (l - base)).1) (base + (origin r (l - base)).2)).getD 0 else 0))
          (fun l => ((List.range k).map (fun r => (a.toNat + (origin r (l - base)).1, base + (origin r (l - base)).2))).filter
            (fun x => ms.contains x.2)) })]
/-- VCVT. -/
def vcvtClaims (t : BitVec 4) (r : BitVec 2) (sg : BitVec 1) (d : BitVec 8) (a : BitVec 8) : List Claim :=
    if t = 8 then
      [crossClaim (fun _ g _ => { vecUses1 d a with hopnd := .ignores, bad := decide (r ≠ 0) || decide (sg ≠ 0) || decide (g.lanes < 16) }) (fun g run =>
        { srcs := [a.toNat], accept := fun t => t == 2, resTag := fun _ => 8, size := 16, vdst := [d.toNat], unit := true,
          f := fun rf _ base ms =>
            let block := bpnEncode ((List.range 16).map (fun i =>
              if ms.contains (base + i) then ((g.srcVal run rf a.toNat (base + i)).getD 0).toNat else 0))
            moves (fun l => [block.lane (l - base)]) (fun _ => ms.map (fun m => (a.toNat, m))) })]
    else
      let u : Cur → Group → Run → Uses := fun c g _ => { vecUses1 d a with hopnd := if wants t a c g then .takes else .ignores }
      let missing : Cur → Group → Run → Bool := fun c g run => run.hopnd.isNone && wants t a c g
      [{ uses := u
         cond := fun c g run s => !missing c g run && (conversion t r sg d a run s.freeCtr).clean c g run && !g.errinj.getLsbD 31
         effect := fun c g run s => laneEffect (fun _ _ _ => conversion t r sg d a run s.freeCtr) c g run { s with freeCtr := s.freeCtr + 256 } },
       { uses := u, cond := fun c g run _ => missing c g run, effect := noEffect, ending := plainFault 0x03 }]

/-! ## Memory words (R218 to R251, R298 to R301) -/

/-- The lanes that a memory word accesses for: every active lane, or, for a uniform access, one (R225). -/
def Access.lanesOf (x : Access) (c : Cur) : List Nat := if x.uniform then (Machine.lanesOf c.lanes).take 1 else Machine.lanesOf c.lanes

/-- One lane's access as the word issues: the address that the lane forms (R219), the place in its bank or tile where the space is not
translated, its first data register, and what it stores (R223). -/
def Access.laneAt (x : Access) (t : Team) (g : Group) (run : Run) (l : Nat) : LaneAcc :=
  let m := x.mods g run
  let va := x.addr g run g.rf l
  { lane := l, va := va
    pa := match m.space with
      | .tile => va.toNat
      | .scratch => (match t.slot (va.toNat / 32768) with | .attached b => b * 32768 + va.toNat % 32768 | _ => 0)
      | .sync => (match t.slot (va.toNat / 32768) with | .attached b => b * 32768 + va.toNat % 32768 | _ => 0)
      | _ => 0
    vc := 0, lclass := 0, sealed := false, reg := if x.uniform then x.d else (g.regAt g.rf x.d l).getD 0
    st := if m.space.translated then .walk else .ready
    data := x.data g run m g.rf l, cmp := if x.kind.isAtomic then x.cmpVal g run m g.rf l else 0, psize := 0 }

/-- The operation of a memory word. -/
def Access.opOf (x : Access) (t : Team) (c : Cur) (g : Group) (run : Run) : MemOp :=
  { kind := x.kind, space := (x.mods g run).space, mods := x.mods g run, bytes := (x.size (x.mods g run)).getD 1, tag := x.tag,
    regs := x.regs (x.mods g run), accs := (x.lanesOf c).map (x.laneAt t g run), posted := false, lead := none, loose := false }

/-- The plain first issue of a memory word: a team of one copy (R425) without an open level (R419), no injection armed (R446), no
difference between a lane and its shadow (R431), a commutative atomic of integer words (R56), request entries for its blocks
(R227), and no lane that faults before translation (R243). -/
structure Access.Starts (x : Access) (s : State) (c : Cur) (g : Group) (k : Gang) (run : Run) (t : Team) : Prop where
  may : MayIssue (x.uses c g run) s c g k run
  team : s.teams.find c.team = some t
  named : t.id = c.team
  solo : t.copy = .only
  noLevel : t.levels = []
  noInject : g.errinj.getLsbD 31 = false
  agrees : x.pairDiff g run (x.mods g run) (x.data g run (x.mods g run) g.rf)
    (fun l => match g.sh with | some sh => x.data g run (x.mods g run) sh l | none => x.data g run (x.mods g run) g.rf l) (x.lanesOf c) = none
  commutes : (x.kind.isAtomic && (x.mods g run).use == 2 && (x.lanesOf c).any (fun l => decide (1 < x.dataTag g l))) = false
  entries : requestRoom s g.core (x.opOf t c g run) = true
  lanes : ∀ l ∈ x.lanesOf c, x.laneFault t g run (x.mods g run) (x.lanesOf c) l = none

/-- LD and LDS, ST and STS, LDU and LDSU, STU and STSU, and the atomics with their fields. -/
def load (t : BitVec 4) (w : BitVec 2) (d a : BitVec 8) (p : BitVec 4) (window : Bool) : Access :=
  { kind := .load, window := window, tag := t.toNat, wid := some w.toNat, d := d.toNat, a := a.toNat, p := p.toNat }
def store (t : BitVec 4) (w : BitVec 2) (d a : BitVec 8) (p : BitVec 4) (window : Bool) : Access :=
  { kind := .store, window := window, tag := t.toNat, wid := some w.toNat, d := d.toNat, a := a.toNat, p := p.toNat }
def uniformLoad (d : BitVec 9) (p : BitVec 4) (window : Bool) : Access := { kind := .loadU, window := window, d := d.toNat, p := p.toNat }
def uniformStore (d : BitVec 9) (p : BitVec 4) (window : Bool) : Access := { kind := .storeU, window := window, d := d.toNat, p := p.toNat }
def atomic (k : MemKind) (w : BitVec 2) (d a : BitVec 8) (p : BitVec 4) : Access :=
  { kind := k, wid := some w.toNat, d := d.toNat, a := a.toNat, p := p.toNat }

/-- Two states with the same memories: the drawer, what the slices hold, the banks, and, but for the issue slot taken (R23), the L1s and
the tiles. -/
def SameMemory (s y : State) : Prop :=
  y.drawer = s.drawer ∧ y.homes = s.homes ∧ y.clusters = s.clusters ∧ y.qmem = s.qmem ∧
  ∀ n, y.core n = { s.core n with issued := (y.core n).issued }

/-- An access of translated space issues: its operation is outstanding, attached to FA when it returns registers and to FB when not
(R86), every lane has its address to translate (R226, R239), its gang waits for the translation (R243), and no memory changes. -/
def Access.Translates (x : Access) (i : Instr) : Prop :=
  ∀ s c g k run t, x.Starts s c g k run t → (x.mods g run).space.translated = true → x.kind ≠ .pref → x.kind ≠ .probe →
    ((x.mods g run).space = .drawer → x.kind.isStore = false ∨ t.levels = []) → x.lanesOf c ≠ [] →
    ∃ y o h q, exec i s = .next y ∧ y.cur = none ∧ y.opCtr = s.opCtr + 1 ∧ y.ops.find s.opCtr = some o ∧ o.body = .mem (x.opOf t c g run) ∧
      o.flag = (if (if x.kind.returns then run.fa else run.fb) = 15 then none else some (if x.kind.returns then run.fa else run.fb)) ∧
      y.curGroup? c = some h ∧ h.rf = g.rf ∧ h.gang? c.gang = some q ∧ q.wait = .translate s.opCtr ∧ SameMemory s y

/-- An access of scratch, sync or tile space issues in one step: the word is over, a load's operation is outstanding with every lane
ready, a store's blocks follow the older ones in the group's FIFO (R234), and no memory changes yet. -/
def Access.GoesOn (x : Access) (i : Instr) : Prop :=
  ∀ s c g k run t, x.Starts s c g k run t → (x.mods g run).space.translated = false →
    (x.kind.isStore = true → fifoFits g (opBlocks ⟨s.opCtr, c.team, c.group, c.gang, c.addr, c.lanes, none, 0, .done⟩ (x.opOf t c g run) t.ctx
      s.clock (s.opCtr + 1) (x.opOf t c g run).accs) = true) →
    ∃ y o h q r m, exec i s = .next y ∧ y.cur = none ∧ y.ops.find s.opCtr = some o ∧ o.body = .mem m ∧
      m.accs.map (fun a => (a.lane, a.va, a.pa, a.reg, a.data)) = (x.opOf t c g run).accs.map (fun a => (a.lane, a.va, a.pa, a.reg, a.data)) ∧
      (x.kind.isStore = false → m = x.opOf t c g run) ∧
      y.curGroup? c = some h ∧ h.rf = g.rf ∧ h.gang? c.gang = some q ∧ q.wait = .none ∧ q.run = some r ∧ r.off = run.off + 1 ∧
      (x.kind.isStore = false → h.fifo = g.fifo) ∧
      (x.kind.isStore = true → ∃ bs, h.fifo = g.fifo ++ bs ∧
        bs.flatMap (fun b => b.cells) = (opBlocks o (x.opOf t c g run) t.ctx s.clock (s.opCtr + 1) (x.opOf t c g run).accs).flatMap (fun b => b.cells)) ∧
      SameMemory s y

/-- The operation that a gang's memory word waits with. -/
def memOf (run : Run) (s : State) : Option (Op × MemOp) :=
  match run.op with
  | none => none
  | some id => match s.ops.find id with
    | some o => (match o.body with
      | .mem m => if o.id = id then some (o, m) else none
      | _ => none)
    | none => none

/-- A memory word whose lanes have all been translated without a fault goes on: a load leaves its lanes ready for their replies, a
store or an atomic puts its blocks into the group FIFO, and the word is over (R226, R234, R243). The team runs as one copy, every lane is ready, and the FIFO has room. -/
def Access.resumes (x : Access) : Claim :=
  { woken := true, uses := x.uses
    cond := fun c _ run s => (s.teams.find c.team).any (fun t => t.copy == .only && t.id == c.team && (memOf run s).any (fun om =>
      om.2.accs.all (fun a => a.st == .ready) && !om.2.accs.isEmpty && om.2.kind == x.kind && (s.curGroup? c).any (fun g => g.id == c.group &&
        (!x.kind.isStore || fifoFits g (opBlocks om.1 om.2 t.ctx s.clock s.opCtr om.2.accs)))))
    effect := byTeam (fun t _ g run s => match memOf run s with
      | none => s
      | some (o, m) =>
        if x.kind.isStore then
          let bs := opBlocks o m t.ctx s.clock s.opCtr m.accs
          let st : LaneState := if x.kind.isAtomic then .miss else .bound
          (({ s with opCtr := s.opCtr + bs.length }).onGroup t.id g.id (fun g => { g with fifo := g.fifo ++ bs })).setBody o.id
            (.mem { m with accs := m.accs.map (fun (a : LaneAcc) => { a with st := st }) })
        else s.setBody o.id (.mem m)) }

/-! FENCE, INVL1, INVPG (R248, R249, R251). -/
/-- FENCE. -/
def fenceClaims : List Claim :=
    let u : Cur → Group → Run → Uses := fun _ _ run =>
      { mpfx := true, long := some false, bad := match run.mpfx with | some w => decide (w.toNat / 512 % 2048 ≠ 0) | none => false }
    let w : Group → Run → Nat := fun g run => (run.mpfx.getD g.mdef).toNat
    [{ uses := u, cond := fun _ g run _ => w g run / 2 ^ 23 % 8 == 0, effect := noEffect },
     { uses := u, cond := fun _ g run _ => w g run / 2 ^ 23 % 8 != 0,
       effect := sends false (fun _ g run _ => .fence (w g run / 2 ^ 23 % 8) (w g run / 2 ^ 20 % 8)) }]
/-- INVL1. -/
def invl1Claims : List Claim :=
    [does { role := .vector, long := some false } (fun c g run s =>
      ((s.invalidateL1 g.core).longOp c run false (.at (s.now / 25 + 64))).2)]
/-- INVPG. -/
def invpgClaims (a : BitVec 8) (b : BitVec 8) : List Claim :=
    let u : Uses := { priv := true, role := .vector, sr := [(a.toNat, 2), (b.toNat, 1)], bad := decide (a.toNat % 2 = 1), long := some false }
    let w : Group → Nat := fun g => (g.rf.S b.toNat).toNat
    [does u (sends false (fun _ g _ _ => .invpg (w g / 256 % 4) (w g % 64) (g.rf.S64 a.toNat) none 0))
      (fun _ g _ _ => decide (w g < 1024) && decide (w g / 64 % 4 = 0)),
     faults u (plainFault 0x03) (fun _ g _ _ => !(decide (w g < 1024) && decide (w g / 64 % 4 = 0)))]

/-! ## Words that a team performs once (R419, R433), and the slices' words (R287 to R316) -/

/-- The state with the issuing team's entry put back as it is. -/
def settled (c : Cur) (s : State) : State :=
  match s.teams.find c.team with
  | some t => s.putTeam c.team t
  | none => s

/-- What a word reads at its slices is at hand, the banks that hold it being out of retention (R286); and the state then. -/
abbrev AtHand := Cur → Group → State → Bool × State

/-- A word that reads nothing there. -/
def reads0 : AtHand := fun _ _ s => (true, s)

/-- The page tables of a range. -/
def readsRange (va len : Group → Nat) : AtHand := fun c g s =>
  match s.teams.find c.team with
  | some t => wakeRange s t.ctx (coverFuel (len g)) (va g) (len g)
  | none => (true, s)

/-- The page tables of addresses. -/
def readsPages (as : Group → List DWord) : AtHand := fun c g s =>
  match s.teams.find c.team with
  | some t => (as g).foldl (fun (x : Bool × State) a => (x.1 && (x.2.wakeWalk t.ctx a).1, (x.2.wakeWalk t.ctx a).2)) (true, s)
  | none => (true, s)

/-- The operation of a word that a team performs once goes to its engine: a team of one copy without an open level replays and
logs nothing (R419); a hidden operation of a park is gone (R245). -/
def goOnce (r : AtHand) (logged fa : Bool) (b : Cur → Group → State → OpBody) : Effect := fun c g run s =>
  let s1 := (r c g (settled c s)).2
  ((run.unpark (if logged then settled c s1 else s1)).longOp c run fa (b c g s1)).2

/-- A team of one copy without an open level, what the word reads at hand, and a condition on the state with the team's entry put
back. -/
def once (r : AtHand) (p : Team → Cur → Group → State → Bool) : When :=
  soloTeam (fun t c g _ s => t.levels.isEmpty && (r c g (settled c s)).1 && p t c g (r c g (settled c s)).2)

/-- A word that a team performs once is over at once, fresh or after a park. -/
def doesOnce (u : Uses) (r : AtHand) (logged fa : Bool) (p : Team → Cur → Group → State → Bool) (b : Cur → Group → State → OpBody) :
    List Claim :=
  [does u (goOnce r logged fa b) (once r p), (does u (goOnce r logged fa b) (once r p)).again]

/-- The pages of a range under the issuing team's context, where all are mapped as needed. -/
def pages (s : State) (c : Cur) (need : Need) (va len : Nat) : Option (List (Leaf × Piece)) :=
  match s.teams.find c.team with
  | none => none
  | some t => match cover s t.ctx need (coverFuel len) va len with
    | .ok ps => some ps
    | _ => none

/-- The sectors that the addresses of a CMLR or CMLS name, where all are mapped as needed. -/
def cmlPages (s : State) (c : Cur) (need : Need) (as : List DWord) : Option (List (Leaf × Piece)) :=
  match s.teams.find c.team with
  | none => none
  | some t => match cmlCover s t.ctx need as with
    | .ok ps => some ps
    | _ => none

/-- Their pieces. -/
def piecesOf (x : Option (List (Leaf × Piece))) : List Piece := (x.getD []).map (·.2)

/-- The n addresses of a CMLR or CMLS: pairs of uniform registers from a on (R302). -/
def addresses (g : Group) (a n : Nat) : List DWord := (List.range n).map (fun i => g.rf.S64 (a + 2 * i))

/-- Addresses that are aligned and canonical and lie in distinct lines (R302). -/
def cmlGood (s : State) (c : Cur) (need : Need) (as : List DWord) : Bool :=
  as.all (fun a => decide (a.toNat % 64 = 0) && canonical a) && (cmlPages s c need as).any (fun ps =>
    (ps.map (fun p => lineKey s p.2)).eraseDups.length == (ps.map (fun p => lineKey s p.2)).length)

/-- A range of whole 64 KiB pages that overlaps no live write-once buffer, is mapped for reading and writing, and needs no more
splinters than the pool holds (R306, R307). -/
def rangeGood (s : State) (t : Team) (c : Cur) (va len : Nat) : Bool :=
  decide (len ≠ 0) && decide (len % 65536 = 0) && decide (va % 65536 = 0) && !overlapsWob s t.ctx va len &&
  (pages s c .both va len).any (fun ps => decide (splintersOf ps ≤ (s.ctx t.ctx).splcount))

/-- A CDR that a team may read (R293): its bytes, once they and their page tables are at hand, and the state then. -/
def cdrOf (s : State) (c : Cur) (va : DWord) : Option (List Byte × State) :=
  if va.toNat % 64 ≠ 0 then none else
  match s.teams.find c.team with
  | none => none
  | some t => match s.wakeWalk t.ctx va with
    | (false, _) => none
    | (true, s) => match walk s t.ctx va .load with
      | .ok l => (match s.wakeSlice l.vc l.pa with
        | (false, _) => none
        | (true, s) => if homePoison s l.vc l.pa then none else some (homeBytes s l.vc 64 l.pa, s))
      | _ => none

/-! CMLR, CMLS, SEAL, UNSEAL, WOBSEAL, WOBREL, DISCARD, FLUSH, VCQUERY, VCDEF, VCRESIZE (R293 to R313). -/
/-- CMLR. -/
def cmlrClaims (a : BitVec 8) (n : BitVec 2) : List Claim :=
    let u : Uses := { role := .copyVector, sr := [(a.toNat, 2 * (n.toNat + 1))], bad := decide (a.toNat % 2 = 1), pair := true, long := some false }
    let as : Group → List DWord := fun g => addresses g a.toNat (n.toNat + 1)
    doesOnce u (readsPages as) false false (fun _ c g s => cmlGood s c .load (as g)) (fun c g s => .cmlr (piecesOf (cmlPages s c .load (as g))))
/-- CMLS. -/
def cmlsClaims (d : BitVec 8) (a : BitVec 8) (n : BitVec 2) : List Claim :=
    let u : Uses := { role := .copyVector, sr := [(a.toNat, 2 * (n.toNat + 1) + 1)], sw := [(d.toNat, 1)], bad := decide (a.toNat % 2 = 1),
                      pair := true, long := some true }
    let as : Group → List DWord := fun g => addresses g a.toNat (n.toNat + 1)
    let src : Group → Nat := fun g => (g.rf.S (a.toNat + 2 * (n.toNat + 1))).toNat
    doesOnce u (readsPages as) false true
      (fun t c g s => cmlGood s c .store (as g) && decide (src g % 64 = 0) && decide (src g < 2 ^ 19) &&
        decide (src g % 32768 + 64 * (n.toNat + 1) ≤ 32768) && (match t.slot (src g / 32768) with | .attached _ => true | _ => false))
      (fun c g s => .cmls d.toNat (src g) (piecesOf (cmlPages s c .store (as g))))
/-- SEAL. -/
def sealClaims (a : BitVec 8) (b : BitVec 8) : List Claim :=
    let u : Uses := { role := .copyVector, sr := [(a.toNat, 2), (b.toNat, 1)], bad := decide (a.toNat % 2 = 1), pair := true, long := some false }
    doesOnce u (readsRange (fun g => (g.rf.S64 a.toNat).toNat) (fun g => (g.rf.S b.toNat).toNat)) false false
      (fun t c g s => rangeGood s t c (g.rf.S64 a.toNat).toNat (g.rf.S b.toNat).toNat)
      (fun c g s => .seal (piecesOf (pages s c .both (g.rf.S64 a.toNat).toNat (g.rf.S b.toNat).toNat)) true none)
/-- UNSEAL. -/
def unsealClaims (a : BitVec 8) (b : BitVec 8) : List Claim :=
    let u : Uses := { role := .copyVector, sr := [(a.toNat, 2), (b.toNat, 1)], bad := decide (a.toNat % 2 = 1), pair := true, long := some false }
    doesOnce u (readsRange (fun g => (g.rf.S64 a.toNat).toNat) (fun g => (g.rf.S b.toNat).toNat)) false false
      (fun t c g s => rangeGood s t c (g.rf.S64 a.toNat).toNat (g.rf.S b.toNat).toNat)
      (fun c g s => .seal (piecesOf (pages s c .both (g.rf.S64 a.toNat).toNat (g.rf.S b.toNat).toNat)) false none)
/-- WOBSEAL. -/
def wobsealClaims (d : BitVec 8) (a : BitVec 8) : List Claim :=
    let u : Uses := { role := .copyVector, sr := [(a.toNat, 4)], sw := [(d.toNat, 1)], bad := decide (a.toNat % 2 = 1), pair := true, long := some true }
    let n : Group → Nat := fun g => (g.rf.S (a.toNat + 3)).toNat
    doesOnce u (readsRange (fun g => (g.rf.S64 a.toNat).toNat) (fun g => (g.rf.S (a.toNat + 2)).toNat)) false true
      (fun t c g s => decide (1 ≤ n g) && decide (n g ≤ 65535) &&
        rangeGood s t c (g.rf.S64 a.toNat).toNat (g.rf.S (a.toNat + 2)).toNat)
      (fun c g s => .wobseal d.toNat (n g) none (piecesOf (pages s c .both (g.rf.S64 a.toNat).toNat (g.rf.S (a.toNat + 2)).toNat)) none)
/-- WOBREL. -/
def wobrelClaims (a : BitVec 8) : List Claim :=
    let u : Uses := { role := .copyVector, sr := [(a.toNat, 1)], pair := true, long := some false }
    let h : Group → Nat := fun g => (g.rf.S a.toNat).toNat
    let key : Group → Nat := fun g => h g / 2 ^ 16 % 128 * 16 + h g % 16
    doesOnce u reads0 false false (fun t _ g s => decide (h g < 2 ^ 23) && decide (h g / 16 % 16 = 0) && (s.wobs.find (key g)).any (fun w =>
        w.live && w.gen == h g / 2 ^ 8 % 256 && w.ctx == t.ctx))
      (fun _ g _ => .wobrel (key g) 0 0 [])
/-- DISCARD. -/
def discardClaims (a : BitVec 8) (b : BitVec 8) : List Claim :=
    let u : Uses := { role := .copyVector, sr := [(a.toNat, 2), (b.toNat, 1)], bad := decide (a.toNat % 2 = 1), pair := true, long := some false }
    let va : Group → Nat := fun g => (g.rf.S64 a.toNat).toNat
    let len : Group → Nat := fun g => (g.rf.S b.toNat).toNat
    doesOnce u (readsRange va len) false false (fun _ c g s => decide (len g ≠ 0) && decide (va g % 4096 = 0) && decide (len g % 4096 = 0) &&
        (pages s c .store (va g) (len g)).any (fun ps => ps.all (fun p => decide (p.2.pa < 2 ^ 40))))
      (fun c g s => .discard (piecesOf (pages s c .store (va g) (len g))) false)
/-- FLUSH. -/
def flushClaims (a : BitVec 8) (b : BitVec 8) : List Claim :=
    let u : Uses := { role := .copyVector, sr := [(a.toNat, 2), (b.toNat, 1)], bad := decide (a.toNat % 2 = 1), pair := true, long := some false }
    let va : Group → Nat := fun g => (g.rf.S64 a.toNat).toNat
    let len : Group → Nat := fun g => (g.rf.S b.toNat).toNat
    doesOnce u (readsRange va len) false false (fun _ c g s => decide (len g ≠ 0) && decide (va g % 64 = 0) && decide (len g % 64 = 0) &&
        (pages s c .load (va g) (len g)).isSome)
      (fun c g s => .flush ((piecesOf (pages s c .load (va g) (len g))).filter (fun p => decide (p.pa < 2 ^ 40))) false)
/-- VCQUERY. -/
def vcqueryClaims (d : BitVec 8) (a : BitVec 8) : List Claim :=
    let u : Uses := { role := .copyVector, sr := [(a.toNat, 1)], sw := [(d.toNat, 2)], bad := decide (d.toNat % 2 = 1), pair := true, long := some true }
    let n : Group → Nat := fun g => (g.rf.S a.toNat).toNat
    [does u (byTeam (fun t => sends true (fun _ g _ s => .ret d.toNat (vcWords s t.ctx (n g))))) (soloTeam (fun _ _ g _ _ => decide (n g < 256))),
     faults u (plainFault 0x03) (fun _ g _ _ => decide (256 ≤ n g))]
/-- VCDEF. -/
def vcdefClaims (a : BitVec 8) : List Claim :=
    let u : Uses := { priv := true, role := .copyVector, sr := [(a.toNat, 2)], bad := decide (a.toNat % 2 = 1), long := some false }
    let cdr : Cur → Group → State → List Byte × State := fun c g s => (cdrOf s c (g.rf.S64 a.toNat)).getD ([], s)
    let good : Cur → Group → State → Bool := fun c g s => (cdrOf s c (g.rf.S64 a.toNat)).any (fun b => (cdrBad b.1 false).isNone)
    let at? : Cur → Group → Run → State → State := fun c g run s => run.unpark (cdr c g s).2
    let fresh : Team → Cur → Group → Run → State → Bool := fun t c g run s =>
      let b := (cdr c g s).1
      let s' := at? c g run s
      t.levels.isEmpty && good c g s && decide (field b 5 1 ≠ 0) && (s'.vcs.find (field b 0 1)).isNone &&
      decide ((s'.vcs.filter (fun v => v.2.ctx == field b 1 1)).length < 16) && (s'.ctx (field b 1 1)).v &&
      (shareConflict s' (field b 0 1) (cdrHalf b) (cdrShares b)).isNone
    let foreign : Cur → Group → Run → State → List Nat := fun c g run s =>
      let b := (cdr c g s).1
      toClear (at? c g run s) (field b 1 1) (cdrHalf b) (cdrShares b)
    [does u (fun c g run s =>
        let b := (cdr c g s).1
        let s' := at? c g run s
        ({ s' with vcs := s'.vcs.put (field b 0 1) (cdrVc b) }.longOp c run false .done).2)
      (ofTeam (fun t c g run s => fresh t c g run s && (foreign c g run s).isEmpty)),
     does u (fun c g run s =>
        let b := (cdr c g s).1
        ((defineVc (at? c g run s) (field b 0 1) b).longOp c run false .done).2)
      (ofTeam (fun t c g run s => fresh t c g run s && !(foreign c g run s).isEmpty)),
     does u (fun c g run s => ((at? c g run s).longOp c run false (.vcundef (field (cdr c g s).1 0 1))).2)
      (ofTeam (fun t c g run s => t.levels.isEmpty && good c g s && decide (field (cdr c g s).1 5 1 = 0) &&
        ((at? c g run s).vcs.find (field (cdr c g s).1 0 1)).isSome))]
/-- VCRESIZE. -/
def vcresizeClaims (a : BitVec 8) : List Claim :=
    let u : Uses := { priv := true, role := .copyVector, sr := [(a.toNat, 2)], bad := decide (a.toNat % 2 = 1), long := some false }
    let cdr : Cur → Group → State → List Byte × State := fun c g s => (cdrOf s c (g.rf.S64 a.toNat)).getD ([], s)
    let at? : Cur → Group → Run → State → State := fun c g run s => run.unpark (cdr c g s).2
    let good : Team → Cur → Group → Run → State → Bool := fun t c g run s =>
      let b := (cdr c g s).1
      let s' := at? c g run s
      t.levels.isEmpty && (cdrOf s c (g.rf.S64 a.toNat)).any (fun b => (cdrBad b.1 true).isNone) &&
      (s'.vcs.find (field b 0 1)).any (fun v => v.ctx == field b 1 1 && v.lsize == natBits (field b 2 1) 0 2) &&
      (shareConflict s' (field b 0 1) (cdrHalf b) (cdrShares b)).isNone
    let op : Cur → Group → Run → State → Nat × State := fun c g run s =>
      (at? c g run s).longOp c run false (.vcresize (field (cdr c g s).1 0 1))
    let vc : Cur → Group → Run → State → Option Vc := fun c g run s => (at? c g run s).vcs.find (field (cdr c g s).1 0 1)
    [does u (fun c g run s =>
        let r := op c g run s
        match vc c g run s with
        | some v => startResize r.2 (field (cdr c g s).1 0 1) v (cdr c g s).1 r.1
        | none => r.2)
      (ofTeam (fun t c g run s => good t c g run s && (vc c g run s).any (fun v => v.old.isNone))),
     does u (fun c g run s =>
        let r := op c g run s
        match vc c g run s with
        | some v => { r.2 with vcs := r.2.vcs.put (field (cdr c g s).1 0 1) { v with queued := v.queued ++ [((cdr c g s).1, r.1)] } }
        | none => r.2)
      (ofTeam (fun t c g run s => good t c g run s && (vc c g run s).any (fun v => v.old.isSome)))]
/-- VCRESIZE_MOVE. -/
def vcresizeMoveClaims (a : BitVec 8) : List Claim :=
    let u : Uses := { priv := true, role := .copyVector, sr := [(a.toNat, 4)], bad := decide (a.toNat % 2 = 1), long := some false }
    let va : Group → Nat := fun g => (g.rf.S64 a.toNat).toNat
    let len : Group → Nat := fun g => (g.rf.S (a.toNat + 2)).toNat
    let target : Group → Nat := fun g => (g.rf.S (a.toNat + 3)).toNat
    let at? : Cur → Group → State → Bool × State := readsRange va len
    [does u (fun c g run s =>
        let s' := (at? c g s).2
        ((run.unpark s').longOp c run false (.vcmove (piecesOf (pages s' c .any (va g) (len g))) (target g) none)).2)
      (ofTeam (fun t c g _ s =>
        let s' := (at? c g s).2
        t.levels.isEmpty && decide (len g ≠ 0) && decide (len g % 65536 = 0) && decide (va g % 65536 = 0) && (at? c g s).1 &&
        (s.vcs.find (target g)).any (fun tv => (pages s' c .any (va g) (len g)).any (fun ps =>
          ps.all (fun p => (s'.vcs.find p.2.vc).any (fun v => v.ctx == tv.ctx)) && decide (splintersOf ps ≤ (s'.ctx t.ctx).splcount)))))]

/-! ## Words of the bank switch and of the copy engine (R253 to R278, R317 to R330) -/

/-- The bank of an attached slot. -/
def bankAt (t : Team) (slot : Nat) : Nat := match t.slot slot with | .attached b => b | _ => 0
def attachedSlot (t : Team) (slot : Nat) : Bool := match t.slot slot with | .attached _ => true | _ => false

/-- The words handed back by an operation on FA. -/
def returns (d : Nat) (vals : Team → Cur → Group → State → List Nat) : Effect :=
  byTeam (fun t => sends true (fun c g _ s => .ret d (vals t c g s)))

/-- The sync word at a slot offset, where it can be read at once (R269): its bytes, with the bank woken. -/
def syncRead (t : Team) (_c : Cur) (s : State) (off : Nat) : Option (List Byte × State) :=
  if off % 16 ≠ 0 ∨ 2 ^ 19 ≤ off then none else
  match t.slot (off / 32768) with
  | .attached b => if bankBad s t.pool b off 16 then none else readSync s t b off
  | _ => none

/-- GEN of the bytes of a sync word. -/
def genOf (x : Option (List Byte × State)) : Nat := (syncWords (x.getD ([], State.reset)).1).getD 2 0

/-- The update of a sync word as the merge point takes it (R46, R269). -/
def syncBlock (t : Team) (c : Cur) (g : Group) (off : Nat) (kind : BlockKind) (bytes : List Byte) (op id now : Nat) : Block :=
  { id := id, op := op, team := t.id, group := g.id, kind := kind, space := .sync, lane := 0, ctx := t.ctx, vc := 0, lclass := 0,
    device := false, bank := bankAt t (off / 32768), cells := cellsAt (bankAt t (off / 32768) * 32768 + off % 32768) bytes, cmp := 0,
    mods := ⟨0, 0, .sync, 0, 0, 0⟩, level := t.levels.length, iaddr := c.addr, gang := c.gang, lanes := c.lanes, va := BitVec.ofNat 64 off,
    psize := 0, born := now }

/-- A sync-word update enters the group FIFO, and its operation is outstanding, attached to FB. -/
def syncUpdate (u : Uses) (off : Group → Nat) (kind : Group → BlockKind) (bytes : Group → List Byte) : List Claim :=
  let good : Team → Group → Bool := fun t g => decide (off g % 16 = 0) && decide (off g < 2 ^ 19) && attachedSlot t (off g / 32768)
  let fits : Team → Cur → Group → Bool := fun t c g => fifoFits g [syncBlock t c g (off g) (kind g) (bytes g) 0 0 0]
  [does u (byTeam (fun t c g run s =>
      let m : MemOp := { kind := .store, space := .sync, mods := ⟨0, 0, .sync, 0, 0, 0⟩, bytes := 16, tag := 0, regs := 4, accs := [],
                         posted := false, lead := none, loose := false }
      let r := s.longOp c run false (.mem m)
      let b := syncBlock t c g (off g) (kind g) (bytes g) r.1 r.2.opCtr s.clock
      { r.2 with opCtr := r.2.opCtr + 1 }.onCur c (fun x => { x with fifo := x.fifo ++ [b] })))
    (soloTeam (fun t c g _ _ => good t g && fits t c g)),
   waits u noEffect (soloTeam (fun t c g _ _ => good t g && !fits t c g)),
   faults u (addrFaultAt 0x08 (fun _ => 0) (fun g => BitVec.ofNat 64 (off g))) (fun _ g _ _ => decide (off g % 16 ≠ 0)),
   faults u (addrFaultAt 0x11 (fun _ => 0) (fun g => BitVec.ofNat 64 (off g)))
     (fun _ g _ _ => decide (off g % 16 = 0) && decide (2 ^ 19 ≤ off g)),
   faults u (addrFaultAt 0x13 (fun g => off g / 32768) (fun g => BitVec.ofNat 64 (off g)))
     (ofTeam (fun t _ g _ _ => decide (off g % 16 = 0) && decide (off g < 2 ^ 19) && !attachedSlot t (off g / 32768)))]

/-- The oldest BOPEN of the issuing context that a BGIVE matches, and the oldest give that a BOPEN matches (R260, R261). -/
def openFor (s : State) (t : Team) (core port : Nat) : Option (Nat × Nat) := (openAt s t.pool core port).find? (fun x => x.2 == t.ctx)
def giveFor (s : State) (t : Team) (core port : Nat) : Option Nat :=
  ((s.cluster t.pool).gives.find? (fun x => x.ctx == t.ctx && x.core == core && x.port == port &&
    !s.ops.any (fun o => match o.2.body with | .bopen _ _ _ _ _ (some k) => k == x.op | _ => false))).map (·.op)

/-- The ring of a handle, where it belongs to the issuing team (R272). -/
def ownRing (s : State) (c : Cur) (h : Word) : Option Ring := (ringAt s h).filter (fun x => x.team == c.team)

/-! BTAKE, BFREE, BGIVE, BOPEN, BDRAIN, BQUERY, SWINIT, SWADD, SWWAIT, SWREAD, RINGDEF, SEND, RINGACK, RINGWAIT (R258 to R275) of a
team of one copy. -/
/-- BTAKE. -/
def btakeClaims (d : BitVec 8) (sg : BitVec 4) : List Claim :=
    let u : Uses := { sw := [(d.toNat, 1)], long := some true, pair := true }
    let free : Team → State → Bool := fun t s => t.slot sg.toNat == .detached && !takingSlot s t.id sg.toNat
    [does u (sends true (fun _ _ _ _ => .btake sg.toNat d.toNat))
      (soloTeam (fun t _ _ _ s => free t s && decide (1 ≤ takeable s t.pool))),
     does u (sends true (fun _ _ _ _ => .ret d.toNat [0xFFFFFFFF]))
      (soloTeam (fun t _ _ _ s => free t s && decide (takeable s t.pool = 0))),
     faults u (plainFault 0x03) (soloTeam (fun t _ _ _ s => !free t s))]
/-- BFREE. -/
def bfreeClaims (sg : BitVec 4) : List Claim :=
    let u : Uses := { long := some false, pair := true }
    let good : Team → State → Bool := fun t s => t.levels.isEmpty && !ringIn s t sg.toNat
    [does u (byTeam (fun t c _ run s =>
        ((s.onTeam t.id (fun x => x.setSlot sg.toNat (.leaving (bankAt t sg.toNat)))).longOp c run false (.bfree sg.toNat)).2))
      (ofTeam (fun t _ _ _ s => good t s && attachedSlot t sg.toNat)),
     does u (sends false (fun _ _ _ _ => .bfree sg.toNat))
      (ofTeam (fun t _ _ _ s => good t s && (match t.slot sg.toNat with | .opening id => openMatched s id | _ => false))),
     does u (byTeam (fun t c _ run s =>
        match t.slot sg.toNat with
        | .opening id => ((cancelOpen s id).longOp c run false .done).2
        | _ => s))
      (ofTeam (fun t _ _ _ s => good t s && (match t.slot sg.toNat with | .opening id => !openMatched s id | _ => false))),
     faults u (plainFault 0x03) (ofTeam (fun t _ _ _ s => !good t s)),
     faults u (plainFault 0x13 sg.toNat) (ofTeam (fun t _ _ _ s => good t s && (match t.slot sg.toNat with
        | .detached => true
        | .leaving _ => true
        | _ => false)))]
/-- BGIVE. -/
def bgiveClaims (p : BitVec 8) (co : BitVec 3) (sg : BitVec 4) : List Claim :=
    let u : Uses := { long := some false, pair := true }
    let good : Team → State → Bool := fun t s => !(t.command && co != 0) && !ringIn s t sg.toNat && t.levels.isEmpty && attachedSlot t sg.toNat
    let leave : Team → Cur → Run → State → Nat × State := fun t c run s =>
      (s.onTeam t.id (fun x => x.setSlot sg.toNat (.leaving (bankAt t sg.toNat)))).longOp c run false
        (.bgive sg.toNat (bankAt t sg.toNat) co.toNat p.toNat ((openFor s t co.toNat p.toNat).map (·.1)))
    [does u (byTeam (fun t c _ run s => setMatch (leave t c run s).2 ((openFor s t co.toNat p.toNat).getD (0, 0)).1 (leave t c run s).1))
      (soloTeam (fun t _ _ _ s => good t s && (openFor s t co.toNat p.toNat).isSome)),
     does u (byTeam (fun t c g run s =>
        let r := leave t c run s
        let cl := r.2.cluster t.pool
        let give : Give :=
          { ctx := t.ctx, core := co.toNat, port := p.toNat, bank := bankAt t sg.toNat, gcore := t.coreNo g, op := r.1, landed := false }
        r.2.putCluster t.pool { cl with gives := cl.gives ++ [give] }))
      (soloTeam (fun t _ _ _ s => good t s && (openAt s t.pool co.toNat p.toNat).isEmpty && decide ((s.cluster t.pool).gives.length < 16))),
     waits u noEffect (soloTeam (fun t _ _ _ s => good t s && (openFor s t co.toNat p.toNat).isNone &&
        decide (16 ≤ (s.cluster t.pool).gives.length))),
     faults u (plainFault 0x11 0x34) (soloTeam (fun t _ _ _ s => good t s && (openFor s t co.toNat p.toNat).isNone &&
        !(openAt s t.pool co.toNat p.toNat).isEmpty && decide ((s.cluster t.pool).gives.length < 16))),
     faults u (plainFault 0x03 0xA0) (ofTeam (fun t _ _ _ _ => t.copy != .only))]
/-- BOPEN. -/
def bopenClaims (d : BitVec 8) (p : BitVec 8) (sg : BitVec 4) : List Claim :=
    let u : Uses := { sr := [(d.toNat, 1)], sw := [(d.toNat, 1)], long := some true, pair := true }
    let free : Team → State → Bool := fun t s => t.slot sg.toNat == .detached && !takingSlot s t.id sg.toNat
    let sync : Group → Option Nat := fun g => if g.rf.S d.toNat = 0xFFFFFFFF then none else some (g.rf.S d.toNat).toNat
    [does u (byTeam (fun t c g run s =>
        let give := giveFor s t (t.coreNo g) p.toNat
        let r := s.longOp c run true (.bopen sg.toNat d.toNat p.toNat (t.coreNo g) (sync g) give)
        let s1 := r.2.onTeam t.id (fun t => t.setSlot sg.toNat (.opening r.1))
        match give with
        | some k => s1.onOp k (fun o => match o.body with
            | .bgive sl b co po _ => { o with body := .bgive sl b co po (some r.1) }
            | _ => o)
        | none => s1))
      (soloTeam (fun t _ g _ s => free t s && (sync g).all (fun w => decide (w % 16 = 0) && decide (w < 2 ^ 19)))),
     faults u (plainFault 0x03) (soloTeam (fun t _ _ _ s => !free t s)),
     faults u (addrFaultAt 0x08 (fun _ => 0) (fun g => BitVec.ofNat 64 (g.rf.S d.toNat).toNat))
      (soloTeam (fun t _ g _ s => free t s && (sync g).any (fun w => decide (w % 16 ≠ 0))))]
/-- BDRAIN. -/
def bdrainClaims (l : BitVec 1) (sg : BitVec 4) : List Claim :=
    [does { bad := l == 1 && sg != 0, long := some false, pair := true }
      (sends false (fun _ _ _ _ => .bdrain (if l = 1 then List.range 16 else [sg.toNat])))]
/-- BQUERY. -/
def bqueryClaims (d : BitVec 8) (o : BitVec 1) (sg : BitVec 4) : List Claim :=
    [does { sw := [(d.toNat, 1)], bad := o == 1 && sg != 0, long := some true, pair := true }
      (returns d.toNat (fun t _ _ s => [if o = 1 then poolWord s t else slotWord s t sg.toNat])) (soloTeam)]
/-- SWINIT. -/
def swinitClaims (x : BitVec 8) (a : BitVec 8) : List Claim :=
    syncUpdate { sr := [(x.toNat, 1), (a.toNat, 2)], bad := decide (a.toNat % 2 ≠ 0), long := some false, pair := true }
      (fun g => (g.rf.S x.toNat).toNat) (fun g => .swinit (g.rf.S a.toNat) (g.rf.S (a.toNat + 1)))
      (fun g => bytesLE 4 (g.rf.S a.toNat).toNat ++ bytesLE 4 0 ++ bytesLE 4 (g.rf.S (a.toNat + 1)).toNat ++ bytesLE 4 0)
/-- SWADD. -/
def swaddClaims (x : BitVec 8) (a : BitVec 8) : List Claim :=
    syncUpdate { sr := [(x.toNat, 1), (a.toNat, 1)], long := some false, pair := true }
      (fun g => (g.rf.S x.toNat).toNat) (fun g => .swadd (g.rf.S a.toNat).toNat) (fun g => bytesLE 16 (g.rf.S a.toNat).toNat)
/-- SWWAIT. -/
def swwaitClaims (d : BitVec 8) (x : BitVec 8) : List Claim :=
    let u : Uses := { sr := [(x.toNat, 1), (d.toNat, 1)], sw := [(d.toNat, 1)], long := some true, pair := true }
    let read : Team → Cur → Group → State → Option (List Byte × State) := fun t c g s => syncRead t c s (g.rf.S x.toNat).toNat
    let goes : Claim := does u (byTeam (fun t c g run s => match read t c g s with
        | some r => (r.2.longOp c run true (.ret d.toNat [genOf (some r)])).2.acquire c 3
        | none => s))
      (soloTeam (fun t c g _ s => (read t c g s).isSome && genOf (read t c g s) != (g.rf.S d.toNat).toNat))
    [goes, goes.again,
     waits u (byTeam (fun t c g _ s => match read t c g s with
        | some r => r.2.setWait c (.sync (g.rf.S x.toNat).toNat (g.rf.S d.toNat))
        | none => s))
      (soloTeam (fun t c g _ s => (read t c g s).isSome && genOf (read t c g s) == (g.rf.S d.toNat).toNat))]
/-- SWREAD. -/
def swreadClaims (d : BitVec 8) (x : BitVec 8) : List Claim :=
    let u : Uses := { sr := [(x.toNat, 1)], sw := [(d.toNat, 4)], bad := decide (d.toNat % 4 ≠ 0), long := some true, pair := true }
    [does u (byTeam (fun t c g run s => match syncRead t c s (g.rf.S x.toNat).toNat with
        | some r => (r.2.longOp c run true (.ret d.toNat (syncWords r.1))).2.acquire c 3
        | none => s))
      (soloTeam (fun t c g _ s => (syncRead t c s (g.rf.S x.toNat).toNat).isSome))]
/-- RINGDEF. -/
def ringdefClaims (d : BitVec 8) (a : BitVec 8) : List Claim :=
    let u : Cur → Group → Run → Uses := fun _ g _ =>
      { sr := [(a.toNat, 3)] ++ (if g.rf.S (a.toNat + 1) = 0 then [(d.toNat, 1)] else []), sw := [(d.toNat, 1)], long := some true, pair := true }
    let base : Group → Nat := fun g => (g.rf.S a.toNat).toNat
    let size : Group → Nat := fun g => (g.rf.S (a.toNat + 1)).toNat
    let sync : Group → Option Nat := fun g => if g.rf.S (a.toNat + 2) = 0xFFFFFFFF then none else some (g.rf.S (a.toNat + 2)).toNat
    let good : Team → Group → Bool := fun t g => [256, 512, 1024, 2048, 4096, 8192, 16384, 32768].contains (size g) &&
      decide (base g % size g = 0) && (sync g).all (fun w => decide (w % 16 = 0) && decide (w < 2 ^ 19)) && decide (base g < 2 ^ 19) &&
      attachedSlot t (base g / 32768)
    let free : Team → State → Option Nat := fun t s =>
      if t.command then none else (List.range 64).find? (fun i => ((s.cluster t.pool).rings.find i).isNone)
    [{ uses := u, cond := soloTeam (fun t _ g _ s => decide (size g ≠ 0) && good t g && (free t s).isSome),
       effect := byTeam (fun t c g run s =>
         let i := (free t s).getD 0
         let cl := s.cluster t.pool
         let r : Ring := { team := t.id, ctx := t.ctx, base := base g, size := size g, head := 0, tail := 0, sync := sync g, producer := none }
         ((s.putCluster t.pool { cl with rings := cl.rings.put i r }).longOp c run true (.ret d.toNat [t.pool * 64 + i])).2) },
     { uses := u, cond := soloTeam (fun t _ g _ s => decide (size g ≠ 0) && good t g && (free t s).isNone),
       effect := sends true (fun _ _ _ _ => .ret d.toNat [0xFFFFFFFF]) },
     { uses := u, cond := soloTeam (fun t _ g _ s => decide (size g = 0) && (ringAt s (g.rf.S d.toNat)).any (fun r => r.team == t.id)),
       effect := fun c g run s =>
         let h := g.rf.S d.toNat
         let cl := s.cluster (h.toNat / 64)
         let s' := s.putCluster (h.toNat / 64) { cl with rings := cl.rings.del (h.toNat % 64) }
         ({ s' with ops := s'.ops.map (fun (o : Nat × Op) => match o.2.body with
             | .send h' src len (some bs) none =>
               if h' = h then (o.1, { o.2 with body := .send h' src len (some bs) (some 0x30) }) else o
             | _ => o) }.longOp c run true .done).2 }]
/-- SEND. -/
def sendClaims (r : BitVec 8) (a : BitVec 8) : List Claim :=
    let u : Uses := { sr := [(r.toNat, 1), (a.toNat, 2)], bad := decide (a.toNat % 2 ≠ 0), long := some false, pair := true }
    let src : Group → Nat := fun g => (g.rf.S a.toNat).toNat
    let len : Group → Nat := fun g => (g.rf.S (a.toNat + 1)).toNat
    doesOnce u reads0 true false (fun t _ g _ => decide (len g ≠ 0) && decide (len g ≤ 4096) && decide (len g % 64 = 0) && decide (src g % 64 = 0) &&
        decide (src g < 2 ^ 19) && decide (src g % 32768 + len g ≤ 32768) && attachedSlot t (src g / 32768))
      (fun _ g _ => .send (g.rf.S r.toNat) (src g) (len g) none none)
/-- RINGACK. -/
def ringackClaims (r : BitVec 8) (a : BitVec 8) : List Claim :=
    let u : Uses := { sr := [(r.toNat, 1), (a.toNat, 1)], long := some false, pair := true }
    let h : Group → Word := fun g => g.rf.S r.toNat
    let n : Group → Word := fun g => g.rf.S a.toNat
    let before : Group → State → Bool := fun g s => s.ops.any (fun o => match o.2.body with | .ringack h' _ => h' == h g | _ => false)
    [does u (sends false (fun _ g _ _ => .ringack (h g) (n g))) (soloTeam (fun _ c g _ s => !before g s &&
        (ownRing s c (h g)).any (fun x => decide ((n g).toNat % 64 = 0) && decide ((n g).toNat ≤ (x.tail - x.head).toNat)))),
     waits u noEffect (soloTeam (fun _ c g _ s => before g s && (ownRing s c (h g)).isSome)),
     faults u (plainFault 0x11 0x35) (soloTeam (fun _ c g _ s => (ownRing s c (h g)).isNone)),
     faults u (plainFault 0x03) (soloTeam (fun _ c g _ s => !before g s &&
        (ownRing s c (h g)).any (fun x => decide ((n g).toNat % 64 ≠ 0) || decide ((x.tail - x.head).toNat < (n g).toNat))))]
/-- RINGWAIT. -/
def ringwaitClaims (d : BitVec 8) (r : BitVec 8) : List Claim :=
    let u : Uses := { sr := [(r.toNat, 1), (d.toNat, 1)], sw := [(d.toNat, 1)], long := some true, pair := true }
    let tail : Cur → Group → State → Word := fun c g s => ((ownRing s c (g.rf.S r.toNat)).map (·.tail)).getD 0
    let goes : Claim := does u (fun c g run s => (s.longOp c run true (.ret d.toNat [(tail c g s).toNat])).2.acquire c 3)
      (soloTeam (fun _ c g _ s => (ownRing s c (g.rf.S r.toNat)).isSome && tail c g s != g.rf.S d.toNat))
    [goes, goes.again,
     waits u (waitFor (fun _ g _ => .ring (g.rf.S r.toNat) (g.rf.S d.toNat)))
      (soloTeam (fun _ c g _ s => (ownRing s c (g.rf.S r.toNat)).isSome && tail c g s == g.rf.S d.toNat)),
     faults u (plainFault 0x11 0x35) (soloTeam (fun _ c g _ s => (ownRing s c (g.rf.S r.toNat)).isNone))]

/-- The sixteen descriptor words of a data instruction (R317). -/
def descWords (g : Group) (a : Nat) : List Word := (List.range 16).map (fun k => g.rf.S (a + k))

/-- A data instruction of the copy engine by a team of one copy without an open level: where its descriptor passes every check of R328
and the engine's queue has room, the copy is queued and counted into the open set; where the queue is full the gang waits; the
first check that fails is its fault (R320 to R324, R328). -/
def copyClaim (fn d a : Nat) : List Claim :=
  let u : Cur → Group → Run → Uses := fun _ g run => copyUses fn d a g run
  let good : Team → Cur → Group → Run → State → Bool := fun t c g _ s => t.levels.isEmpty && (copyFault s c t g fn (descWords g a)).isNone
  [{ uses := u, cond := soloTeam (fun t c g run s => good t c g run s && decide (queueUse s t.pool < 512)),
     effect := byTeam (fun t c g run s =>
       let s0 := if fn = fnPut ∨ fn = fnAtom then settled c (settled c s) else settled c s
       let r := s0.longOp c run (fn == fnAtom) (if fn = fnAtom then .ratom s0.opCtr d else .accept s0.opCtr)
       queueCopy { r.2 with copies := r.2.copies.put s0.opCtr (newCopy r.2 c t g run s0.opCtr fn (descWords g a)) } s0.opCtr) },
   { uses := u, cond := soloTeam (fun t c g run s => good t c g run s && decide (512 ≤ queueUse s t.pool)), ending := .waits,
     effect := fun c _ _ s => settled c s },
   { uses := u, cond := ofTeam (fun t c g _ s => (copyFault s c t g fn (descWords g a)).isSome), effect := noEffect,
     ending := .fault (fun c g _ s => ((s.teams.find c.team).bind (fun t => copyFault s c t g fn (descWords g a))).getD { code := 0 }) }]

/-! COPY, COPY2D, CGATH, CSCAT, CFILL, RPUT, RGET, RATOM, CSEAL, CWAIT, CSTAT (R320 to R325, R335). -/
/-- COPY. -/
def copyClaims (a : BitVec 8) : List Claim :=
    copyClaim 0 0 a.toNat
/-- COPY2D. -/
def copy2dClaims (a : BitVec 8) : List Claim :=
    copyClaim fnCopy2d 0 a.toNat
/-- CGATH. -/
def cgathClaims (a : BitVec 8) : List Claim :=
    copyClaim fnGath 0 a.toNat
/-- CSCAT. -/
def cscatClaims (a : BitVec 8) : List Claim :=
    copyClaim fnScat 0 a.toNat
/-- CFILL. -/
def cfillClaims (a : BitVec 8) : List Claim :=
    copyClaim fnFill 0 a.toNat
/-- RPUT. -/
def rputClaims (a : BitVec 8) : List Claim :=
    copyClaim fnPut 0 a.toNat
/-- RGET. -/
def rgetClaims (a : BitVec 8) : List Claim :=
    copyClaim fnGet 0 a.toNat
/-- RATOM. -/
def ratomClaims (d : BitVec 8) (a : BitVec 8) : List Claim :=
    copyClaim fnAtom d.toNat a.toNat
/-- CSEAL. -/
def csealClaims (b : BitVec 4) : List Claim :=
    let u : Uses := { role := .copyOnly, long := some false, pair := true }
    [does u (byTeam (fun t c g run s => ((sealBatch s t.id g.id b.toNat).longOp c run false .done).2))
      (soloTeam (fun _ _ g _ _ => (g.batch b.toNat).st != .sealed)),
     faults u (plainFault 0x03) (soloTeam (fun _ _ g _ _ => (g.batch b.toNat).st == .sealed))]
/-- CWAIT. -/
def cwaitClaims (d : BitVec 8) (k : BitVec 1) (b : BitVec 4) : List Claim :=
    let u : Uses := { role := .copyOnly, sw := [(d.toNat, 2)], bad := decide (d.toNat % 2 ≠ 0), long := some true, pair := true }
    let over? : Group → Bool := fun g => (g.batch b.toNat).st != .sealed
    let code : Group → Nat := fun g => (g.batch b.toNat).words.headD 0 / 2 ^ 24
    let goes : Claim := does u (fun c g run s =>
        ((s.onCur c (fun g => g.setBatch b.toNat Batch.free)).longOp c run true (.ret d.toNat (g.batch b.toNat).words)).2)
      (soloTeam (fun _ _ g _ _ => over? g && !(k == 1 && code g != 0)))
    [goes, goes.again,
     waits u (waitFor (fun _ _ _ => .batch b.toNat)) (soloTeam (fun _ _ g _ _ => !over? g)),
     { uses := plain u, cond := soloTeam (fun _ _ g _ _ => over? g && k == 1 && code g != 0),
       effect := fun c g _ s => (s.onCur c (fun g => g.setBatch b.toNat Batch.free)).onCur c (fun x =>
         x.putSs d.toNat ((g.batch b.toNat).words.map (fun n => BitVec.ofNat 32 n))),
       ending := .fault (fun c g _ _ => { code := code g, datum := natBits ((g.batch b.toNat).words.headD 0) 16 8, lanes := c.lanes }) }]
/-- CSTAT. -/
def cstatClaims (d : BitVec 8) (b : BitVec 4) : List Claim :=
    [does { role := .copyOnly, sw := [(d.toNat, 2)], bad := decide (d.toNat % 2 ≠ 0), long := some true, pair := true }
      (returns d.toNat (fun _ _ g _ => (g.batch b.toNat).words)) (soloTeam)]

/-! ## Queues, stages, teams and windows (R338, R340, R357 to R365) -/

/-- The issuing context's queue (R359). -/
def contextQueue (s : State) (t : Team) (q : Nat) : Option Queue := (s.queues.find q).filter (fun e => e.v && e.ctx == t.ctx)
def devQueueOf (s : State) (t : Team) (q : Nat) : Bool := (contextQueue s t q).any (·.dev)

/-- A stage ring of the team with more than k stages, and for a word of a whole group one that is not parted (R358). -/
def stageOf (t : Team) (g : Group) (r k : Nat) (solo : Bool) : Option Nat :=
  ((t.phases[r]?).map (·.length)).filter (fun n => decide (k < n) && !(solo && g.parted))
def phaseOf (t : Team) (r k : Nat) : Bool := (t.phases.getD r []).getD k false

/-! QKICK, LAUNCH, QWAIT, STAGEINIT, STAGEARV, STAGEWT, ROLEQ (R357 to R359). -/
/-- QKICK. -/
def qkickClaims (a : BitVec 8) : List Claim :=
    let u : Uses := { sr := [(a.toNat, 2)], bad := decide (a.toNat % 2 = 1), long := some false, pair := true }
    let q : Group → Nat := fun g => (g.rf.S a.toNat).toNat
    doesOnce u reads0 true false (fun t _ g s => devQueueOf s t (q g)) (fun _ g _ => .qkick (q g) (BitVec.ofNat 64 (g.rf.S (a.toNat + 1)).toNat)) ++
    [{ uses := plain u, cond := once reads0 (fun t _ g s => !devQueueOf s t (q g)), effect := fun c _ _ s => settled c s,
       ending := plainFault 0x11 0x60 }]
/-- LAUNCH. -/
def launchClaims (d : BitVec 8) (a : BitVec 8) : List Claim :=
    let u : Uses := { sr := [(a.toNat, 4)], sw := [(d.toNat, 1)], bad := decide (a.toNat % 4 ≠ 0), long := some true, pair := true }
    let q : Group → Nat := fun g => (g.rf.S (a.toNat + 2)).toNat
    let at? : Group → DWord := fun g => g.rf.S64 a.toNat
    doesOnce u reads0 true true (fun t _ g s => decide ((at? g).toNat % 64 = 0) && devQueueOf s t (q g))
      (fun _ g _ => .launch (q g) d.toNat (at? g) ((g.rf.S (a.toNat + 3)).toNat % 256)) ++
    [{ uses := plain u, cond := once reads0 (fun _ _ g _ => decide ((at? g).toNat % 64 ≠ 0)), effect := fun c _ _ s => settled c s,
       ending := addrFaultAt 0x08 (fun _ => 0) at? },
     { uses := plain u, cond := once reads0 (fun t _ g s => decide ((at? g).toNat % 64 = 0) && !devQueueOf s t (q g)),
       effect := fun c _ _ s => settled c s, ending := plainFault 0x11 0x60 }]
/-- QWAIT. -/
def qwaitClaims (a : BitVec 8) : List Claim :=
    let u : Uses := { sr := [(a.toNat, 4)], bad := decide (a.toNat % 4 ≠ 0), long := some false, pair := true }
    let q : Group → Nat := fun g => (g.rf.S a.toNat).toNat
    let target : Group → Nat := fun g => (g.rf.S64 (a.toNat + 2)).toNat
    let goes : Claim := does u (fun c _ run s => ((s.acquire c 4).longOp c run false .done).2)
      (ofTeam (fun t _ g _ s => (contextQueue s t (q g)).any (fun e => decide (target g ≤ e.counter))))
    [goes, goes.again,
     waits u (waitFor (fun _ g _ => .queue (q g) (target g)))
      (ofTeam (fun t _ g _ s => (contextQueue s t (q g)).any (fun e => decide (e.counter < target g)))),
     faults u (plainFault 0x11 0x61) (ofTeam (fun t _ g _ s => (contextQueue s t (q g)).isNone))]
/-- STAGEINIT. -/
def stageinitClaims (r : BitVec 2) (a : BitVec 8) : List Claim :=
    let u : Uses := { sr := [(a.toNat, 1)], long := some false }
    let w : Group → Nat := fun g => (g.rf.S a.toNat).toNat
    let stages : Team → Group → Option Nat := fun t g => stageOf t g r.toNat 0 true
    [does u (byTeam (fun t c g run s => ((s.onTeam t.id (fun x => { x with
        phases := setAt x.phases r.toNat ((List.range ((stages t g).getD 0)).map (natBit (w g))) })).longOp c run false .done).2))
      (ofTeam (fun t _ g _ _ => (stages t g).any (fun n => decide (w g < 2 ^ n)))),
     faults u (plainFault 0x03) (ofTeam (fun t _ g _ _ => (stages t g).all (fun n => decide (2 ^ n ≤ w g))))]
/-- STAGEARV. -/
def stagearvClaims (r : BitVec 2) (k : BitVec 3) : List Claim :=
    let u : Uses := { long := some false }
    [does u (sends false (fun _ _ _ _ => .stagearv r.toNat k.toNat)) (ofTeam (fun t _ g _ _ => (stageOf t g r.toNat k.toNat true).isSome)),
     faults u (plainFault 0x03) (ofTeam (fun t _ g _ _ => (stageOf t g r.toNat k.toNat true).isNone))]
/-- STAGEWT. -/
def stagewtClaims (r : BitVec 2) (h : BitVec 1) (k : BitVec 3) : List Claim :=
    let u : Uses := { long := some false }
    let stage : Team → Group → Bool := fun t g => (stageOf t g r.toNat k.toNat false).isSome
    let goes : Claim := does u (fun c _ run s => ((s.acquire c 1).longOp c run false .done).2)
      (ofTeam (fun t _ g _ _ => stage t g && phaseOf t r.toNat k.toNat == (h == 1)))
    [goes, goes.again,
     waits u (waitFor (fun _ _ _ => .stage r.toNat k.toNat (h == 1)))
      (ofTeam (fun t _ g _ _ => stage t g && phaseOf t r.toNat k.toNat != (h == 1))),
     faults u (plainFault 0x03) (ofTeam (fun t _ g _ _ => !stage t g))]
/-- ROLEQ. -/
def roleqClaims (d : BitVec 8) (r : BitVec 2) : List Claim :=
    let role : Role := if r = 0 then .vector else if r = 1 then .copy else .matrix
    let mine : Team → List Nat := fun t => (List.range t.ngroups).filter (fun g => t.desc.role g == role)
    [does { sw := [(d.toNat, 1)], bad := r == 3, long := some true }
      (returns d.toNat (fun t _ _ _ => [if (mine t).isEmpty then 0 else (mine t).length * 65536 + (mine t).headD 0]))
      (ofTeam (fun _ _ _ _ _ => true))]

/-- The team that a handle in S(a) names, where no earlier action on it is under way (R362). -/
def handled (a : BitVec 8) (p : Team → Group → State → Bool) : When :=
  fun _ g _ s => (teamByHandle s (g.rf.S a.toNat)).any (fun t => !actionBusy s t.id && p t g s)
def byHandle (a : BitVec 8) (x : Team → Effect) : Effect := fun c g run s => match teamByHandle s (g.rf.S a.toNat) with
  | some t => x t c g run s
  | none => s

/-- The result code of an action that is over at once. -/
def answers (d : BitVec 8) (n : Nat) (s : State) (c : Cur) (run : Run) : State := (s.longOp c run true (.ret d.toNat [n])).2

/-- What every word on a team's handle does: 1 for a handle that names none, and a wait while an earlier action is under way. -/
def onHandle (u : Uses) (d a : BitVec 8) : List Claim :=
  [does u (fun c _ run s => answers d 1 s c run) (fun _ g _ s => (teamByHandle s (g.rf.S a.toNat)).isNone),
   waits u noEffect (fun _ g _ s => (teamByHandle s (g.rf.S a.toNat)).any (fun t => actionBusy s t.id))]

/-- A team that is resident and not being terminated. -/
def resident (t : Team) (s : State) : Bool := t.phase == .resident && !terminating s t.id

/-- The cluster that S(a) names. -/
def clusterOf (g : Group) (a : BitVec 8) : Nat := (g.rf.S a.toNat).toNat

/-! PREEMPT with its actions on teams and clusters, CTXSAVE, CTXLOAD (R362 to R365). -/
/-- PREEMPT_SUSPEND. -/
def preemptSuspendClaims (d : BitVec 8) (a : BitVec 8) : List Claim :=
    let u : Uses := { priv := true, sr := [(a.toNat, 1)], sw := [(d.toNat, 1)], long := some true }
    onHandle u d a ++
    [does u (fun c _ run s => answers d 2 s c run) (handled a (fun t _ s => !resident t s)),
     does u (fun c _ run s => answers d 0 s c run) (handled a (fun t _ s => resident t s && t.suspended)),
     does u (byHandle a (fun t c _ run s => ((pauseTeam s t.id).longOp c run true (.suspend t.id d.toNat)).2))
      (handled a (fun t _ s => resident t s && !t.suspended))]
/-- PREEMPT_RESUME. -/
def preemptResumeClaims (d : BitVec 8) (a : BitVec 8) : List Claim :=
    let u : Uses := { priv := true, sr := [(a.toNat, 1)], sw := [(d.toNat, 1)], long := some true }
    onHandle u d a ++
    [does u (fun c _ run s => answers d 2 s c run) (handled a (fun t _ s => !resident t s)),
     does u (byHandle a (fun t c _ run s => answers d 0 (resumeTeam s t.id) c run)) (handled a (fun t _ s => resident t s))]
/-- PREEMPT_EVICT. -/
def preemptEvictClaims (d : BitVec 8) (a : BitVec 8) : List Claim :=
    let u : Uses := { priv := true, sr := [(a.toNat, 1)], sw := [(d.toNat, 1)], long := some true }
    onHandle u d a ++
    [does u (fun c _ run s => answers d 2 s c run) (handled a (fun t _ s => !resident t s)),
     does u (byHandle a (fun t c _ run s => ((pauseTeam s t.id).longOp c run true (.evict t.id d.toNat false)).2))
      (handled a (fun t _ s => resident t s))]
/-- PREEMPT_TERMINATE. -/
def preemptTerminateClaims (d : BitVec 8) (a : BitVec 8) : List Claim :=
    let u : Uses := { priv := true, sr := [(a.toNat, 1)], sw := [(d.toNat, 1)], long := some true }
    onHandle u d a ++
    [does u (byHandle a (fun t c _ run s => ((terminateTeam s t.id).longOp c run true (.evict t.id d.toNat true)).2))
      (handled a (fun _ _ _ => true))]
/-- PREEMPT_SYSRESUME. -/
def preemptSysresumeClaims (d : BitVec 8) (a : BitVec 8) : List Claim :=
    let u : Uses := { priv := true, sr := [(a.toNat, 2)], sw := [(d.toNat, 1)], long := some true }
    let k : Group → Nat := fun g => (g.rf.S (a.toNat + 1)).toNat
    onHandle u d a ++
    [does u (fun c _ run s => answers d 2 s c run) (handled a (fun t _ _ => t.phase != .resident)),
     does u (fun c _ run s => answers d 1 s c run) (handled a (fun t g _ => t.phase == .resident && (t.group? (k g)).isNone)),
     does u (byHandle a (fun t c g run s => answers d 0 ((s.pairOf t.id).foldl (fun (s : State) i => match s.group? i (k g) with
        | some x => x.gangs.foldl (fun (s : State) y => if y.wait = .syscall then s.finishWord i (k g) y.id else s) s
        | none => s) s) c run)) (handled a (fun t g _ => t.phase == .resident && (t.group? (k g)).isSome))]
/-- PREEMPT_CLDRAIN. -/
def preemptCldrainClaims (d : BitVec 8) (a : BitVec 8) : List Claim :=
    let u : Uses := { priv := true, sr := [(a.toNat, 1)], sw := [(d.toNat, 1)], long := some true }
    let shut : Group → State → Bool := fun g s => (s.cluster (clusterOf g a)).door == .closed || (s.cluster (clusterOf g a)).door == .offline
    [does u (fun c _ run s => answers d 1 s c run) (fun _ g _ _ => decide (224 ≤ clusterOf g a)),
     does u (fun c _ run s => answers d 2 s c run) (fun _ g _ s => decide (clusterOf g a < 224) && shut g s),
     does u (fun c g run s => answers d 0 (reopen (shutDoor s (clusterOf g a) .draining) (clusterOf g a)) c run)
      (fun _ g _ s => decide (clusterOf g a < 224) && !shut g s)]
/-- PREEMPT_CLOPEN. -/
def preemptClopenClaims (d : BitVec 8) (a : BitVec 8) : List Claim :=
    let u : Uses := { priv := true, sr := [(a.toNat, 1)], sw := [(d.toNat, 1)], long := some true }
    [does u (fun c _ run s => answers d 1 s c run) (fun _ g _ _ => decide (224 ≤ clusterOf g a)),
     does u (fun c g run s =>
        let cl := s.cluster (clusterOf g a)
        answers d 0 (s.putCluster (clusterOf g a) { cl with door := .opened }) c run) (fun _ g _ _ => decide (clusterOf g a < 224))]
/-- PREEMPT_CLOFF. -/
def preemptCloffClaims (d : BitVec 8) (a : BitVec 8) : List Claim :=
    let u : Uses := { priv := true, sr := [(a.toNat, 1)], sw := [(d.toNat, 1)], long := some true }
    [does u (fun c _ run s => answers d 1 s c run) (fun _ g _ _ => decide (224 ≤ clusterOf g a)),
     does u (fun c g run s => ((shutDoor s (clusterOf g a) (if (s.cluster (clusterOf g a)).door = .offline then .offline else .closed)).longOp
        c run true (.closed (clusterOf g a) d.toNat)).2) (fun _ g _ _ => decide (clusterOf g a < 224))]
/-- CTXSAVE. -/
def ctxsaveClaims (d : BitVec 8) (a : BitVec 8) : List Claim :=
    let u : Uses := { priv := true, sr := [(a.toNat, 1)], sw := [(d.toNat, 1)], long := some true }
    onHandle u d a ++
    [does u (fun c _ run s => answers d 2 s c run) (handled a (fun t _ s => !(resident t s && t.suspended))),
     does u (byHandle a (fun t c _ run s => answers d 0 ((s.pairOf t.id).foldl (fun (s : State) i => match s.teams.find i with
        | some x => writeSave s x
        | none => s) s) c run)) (handled a (fun t _ s => resident t s && t.suspended))]
/-- CTXLOAD. -/
def ctxloadClaims (d : BitVec 8) (a : BitVec 8) : List Claim :=
    let u : Uses := { priv := true, sr := [(a.toNat, 2)], sw := [(d.toNat, 1)], bad := decide (a.toNat % 2 = 1), long := some true }
    let w : Group → Nat := fun g => (g.rf.S (a.toNat + 1)).toNat
    let gone : Team → State → Bool := fun t s => t.phase == .evicted && !terminating s t.id
    let good : Group → Bool := fun g => natBit (w g) 11 && decide (w g < 2 ^ 12) && decide (w g % 256 < 224)
    let sites : Team → Group → List Site := fun t g =>
      let cl := w g % 256
      let k := natBits (w g) 8 3
      if t.copy ≠ .only then ((List.range 8).filter (· != k)).map (fun m => ⟨cl, [8 * cl + k], [8 * cl + m]⟩)
      else ⟨cl, [8 * cl + k], []⟩ :: (if k % 2 = 0 then [⟨cl, [8 * cl + k, 8 * cl + k + 1], []⟩] else [])
    let placed : Team → Group → State → Option State := fun t g s => (sites t g).findSome? (placeLoaded s t)
    onHandle u d a ++
    [does u (fun c _ run s => answers d 2 s c run) (handled a (fun t _ s => !gone t s)),
     does u (fun c _ run s => answers d 3 s c run) (handled a (fun t g s => gone t s && !(good g && (placed t g s).isSome))),
     does u (byHandle a (fun t c g run s => answers d 0 ((placed t g s).getD s) c run))
      (handled a (fun t g s => gone t s && good g && (placed t g s).isSome))]

/-! WEXPORT, WREVOKE (R338, R340). -/
/-- WEXPORT. -/
def wexportClaims (d : BitVec 8) (a : BitVec 8) : List Claim :=
    let u : Uses := { priv := true, role := .copyOnly, sr := [(a.toNat, 8)], sw := [(d.toNat, 1)], bad := decide (a.toNat % 8 ≠ 0),
                      long := some true, pair := true }
    let w : Group → Nat → Nat := fun g k => (g.rf.S (a.toNat + k)).toNat
    let good : Group → State → Bool := fun g s => decide ((g.rf.S64 a.toNat).toNat % 65536 = 0) && decide (1 ≤ w g 2) && decide (w g 2 ≤ 262144) &&
      decide (natBits (w g 3) 24 2 = 0) && decide (natBits (w g 3) 3 5 = 0) && (List.range 4).all (fun k => decide (w g (4 + k) = 0)) &&
      (s.ctx (natBits (w g 3) 26 6)).v
    let free : State → Option Nat := fun s => (List.range 1024).find? (windowFree s)
    [does u (fun c g run s =>
        let i := (free s).getD 0
        let gen := ((s.fabric.windows.find i).map (·.gen)).getD 0
        let x : Window := { valid := true, gen := gen, ctx := natBits (w g 3) 26 6, base := g.rf.S64 a.toNat, length := w g 2,
                            fowner := natBits (w g 3) 8 16, perm := natBits (w g 3) 0 3, revoked := none, accepted := [] }
        ({ s with fabric := { s.fabric with windows := s.fabric.windows.put i x } }.longOp c run true (.ret d.toNat [gen * 1024 + i])).2)
      (fun _ g _ s => good g s && (free s).isSome),
     does u (sends true (fun _ _ _ _ => .ret d.toNat [0xFFFFFFFF])) (fun _ g _ s => good g s && (free s).isNone),
     faults u (plainFault 0x03) (fun _ g _ s => !good g s)]
/-- WREVOKE. -/
def wrevokeClaims (a : BitVec 8) : List Claim :=
    let u : Uses := { priv := true, role := .copyOnly, sr := [(a.toNat, 1)], long := some false, pair := true }
    let h : Group → Nat := fun g => (g.rf.S a.toNat).toNat
    let good : Group → State → Bool := fun g s => decide (h g < 2 ^ 18) &&
      (s.fabric.windows.find (natBits (h g) 0 10)).any (fun x => x.valid && x.gen == natBits (h g) 10 8)
    [does u (fun c g run s => ((closeWindow s (natBits (h g) 0 10)).longOp c run false (.wrevoke (natBits (h g) 0 10))).2)
      (fun _ g _ s => good g s),
     faults u (plainFault 0x03) (fun _ g _ s => !good g s)]

/-! ## Matrix words (R371 to R398) -/

/-- The issuing group holds the tile (R371). -/
def holdsTile (t : Team) (g : Group) (z : Nat) : Bool := t.desc.matCount != 0 && t.tokens.getD z none == some g.id

/-- The state in which a word may change a tile: what the innermost level has still to save of it is saved first (R396). -/
def savedTile (c : Cur) (z : Nat) (s : State) : Option State :=
  match s.teams.find c.team with
  | none => none
  | some t =>
    if !t.halves.any (t.tileUnsaved z) then some s
    else if tileWaits s t z s.opCtr then none
    else (saveTiles s t [z]).map (s.putTeam c.team)

/-- The index list of a gathering descriptor, where it can be read (R373, R378), with the bank woken. -/
def indexList (s : State) (c : Cur) (t : Team) (d : List Word) (n : Nat) : Option (List Word × State) :=
  match readList s c t d n with
  | .ok ls s => some (ls, s)
  | _ => none

/-- Eight descriptor words from a register on (R373). -/
def eightWords (g : Group) (a : BitVec 8) : List Word := (List.range 8).map (fun k => g.rf.S (a.toNat + k))

/-- TOKEN of a group that does not hold the tile: its number, or FFH of a launch without matrix groups (R371). -/
def tokenFaults (u : Uses) (z : Nat) (p : When := always) : List Claim :=
  [faults u (plainFault 0x18 z) (fun c g run s => p c g run s && ofTeam (fun t _ g _ _ => t.desc.matCount != 0 && !holdsTile t g z) c g run s),
   faults u (plainFault 0x18 0xFF) (fun c g run s => p c g run s && ofTeam (fun t _ _ _ _ => t.desc.matCount == 0) c g run s)]

/-- MMP, MMPB, MMPG: with descriptors that pass R373 and R393, a readable index list and the tile, the multiplication is handed over. -/
def multiplyClaim (fn : Nat) (fmts : List Nat) (n : BitVec 2) (a b : BitVec 8) (sg : BitVec 1) : List Claim :=
  let u : Uses := { role := .matrixOnly, sr := [(a.toNat, 8), (b.toNat, 8)], bad := decide (a.toNat % 8 ≠ 0) || decide (b.toNat % 8 ≠ 0),
                    long := some false, pair := true }
  let good : Team → Cur → Group → Bool := fun t c g => (sg != 1 || t.pair) && (matDescBad (eightWords g a) fmts [fn == 2] false).isNone &&
    (matDescBad (eightWords g b) (if fn = 2 then [matFmt (eightWords g a)] else fmts) [false] false).isNone && holdsTile t g n.toNat &&
    (matAddrFault c [eightWords g a, eightWords g b]).isNone
  let list : Team → Cur → Group → State → Option (List Word × State) := fun t c g s =>
    indexList s c t (eightWords g a) (if t.pair && sg == 1 then 128 else 64)
  [does u (byTeam (fun t c g run s => match list t c g s with
      | none => s
      | some (ls, s1) => match savedTile c n.toNat s1 with
        | none => s1
        | some s2 => (s2.longOp c run false (.matrix fn n.toNat (eightWords g a) (eightWords g b) (sg == 1) ls none false [] none)).2))
    (ofTeam (fun t c g _ s => good t c g && (list t c g s).any (fun x => (savedTile c n.toNat x.2).isSome)))]

/-! MCFG, MMP, MMPB, MMPG, MZERO, TOKPASS, TOKWAIT, TREAD, TWRITE, TCHK, MDRAIN (R374 to R391). -/
/-- MCFG. -/
def mcfgClaims (n : BitVec 2) (a : BitVec 8) : List Claim :=
    let u : Uses := { role := .matrixOnly, sr := [(a.toNat, 1)], long := some false, pair := true }
    let good : Group → Bool := fun g => cfgOk (g.rf.S a.toNat)
    [does u (fun c g run s => match savedTile c n.toNat s with
        | some s1 => (s1.longOp c run false (.mcfg n.toNat (g.rf.S a.toNat))).2
        | none => s)
      (ofTeam (fun t c g _ s => good g && holdsTile t g n.toNat && (savedTile c n.toNat s).isSome)),
     faults u (plainFault 0x03) (fun _ g _ _ => !good g)] ++ tokenFaults u n.toNat (fun _ g _ _ => good g)
/-- MMP. -/
def mmpClaims (n : BitVec 2) (a : BitVec 8) (b : BitVec 8) (sg : BitVec 1) : List Claim :=
    multiplyClaim 0 [0] n a b sg
/-- MMPB. -/
def mmpbClaims (n : BitVec 2) (a : BitVec 8) (b : BitVec 8) (sg : BitVec 1) : List Claim :=
    multiplyClaim 1 [1] n a b sg
/-- MMPG. -/
def mmpgClaims (n : BitVec 2) (a : BitVec 8) (b : BitVec 8) (sg : BitVec 1) : List Claim :=
    multiplyClaim 2 [0, 1] n a b sg
/-- MZERO. -/
def mzeroClaims (n : BitVec 2) : List Claim :=
    let u : Uses := { role := .matrixOnly, long := some false }
    [does u (fun c _ run s => match savedTile c n.toNat s with
        | some s1 => (s1.longOp c run false (.mzero n.toNat)).2
        | none => s)
      (ofTeam (fun t c g _ s => holdsTile t g n.toNat && (savedTile c n.toNat s).isSome))] ++ tokenFaults u n.toNat
/-- TOKPASS. -/
def tokpassClaims (n : BitVec 2) (a : BitVec 8) : List Claim :=
    let u : Uses := { role := .matrixVector, sr := [(a.toNat, 2)], bad := decide (a.toNat % 2 = 1), long := some false, pair := true }
    let dst : Group → Nat := fun g => (g.rf.S a.toNat).toNat
    let own : Group → Bool := fun g => g.rf.S (a.toNat + 1) == 0xFFFFFFFF
    let other : Team → Group → State → Bool := fun t g s => s.teams.any (fun (x : Nat × Team) =>
      !x.2.command && x.2.handle == g.rf.S (a.toNat + 1) && x.2.ctx != t.ctx)
    let live : Team → Group → Bool := fun t g => decide (dst g < t.ngroups) && (t.group? (dst g)).any (fun x => !x.retired)
    [does u (byTeam (fun t c g run s => ((s.onTeam t.id (fun x => { x with
        tokens := setAt x.tokens n.toNat none, tokpend := setAt x.tokpend n.toNat (some (dst g)) })).longOp c run false (.tokpass n.toNat (dst g))).2))
      (ofTeam (fun t _ g _ s => own g && live t g && holdsTile t g n.toNat && releaseDone s t g 1 s.opCtr)),
     waits u noEffect (ofTeam (fun t _ g _ s => own g && live t g && holdsTile t g n.toNat && !releaseDone s t g 1 s.opCtr)),
     faults u (plainFault 0x03) (ofTeam (fun t _ g _ _ => own g && !live t g)),
     faults u (plainFault 0x03 0x71) (ofTeam (fun t _ g _ s => !own g && !other t g s)),
     faults u (plainFault 0x11 0x70) (ofTeam (fun t _ g _ s => !own g && other t g s && holdsTile t g n.toNat))] ++
    tokenFaults u n.toNat (ofTeam (fun t _ g _ s => (own g && live t g) || (!own g && other t g s)))
/-- TOKWAIT. -/
def tokwaitClaims (n : BitVec 2) : List Claim :=
    let u : Uses := { role := .matrixVector, long := some false }
    let goes : Claim := does u (fun c _ run s => (s.longOp c run false .done).2.acquire c 1) (ofTeam (fun t _ g _ _ => holdsTile t g n.toNat))
    [goes, goes.again,
     waits u (waitFor (fun _ _ _ => .token n.toNat)) (ofTeam (fun t _ g _ _ => t.desc.matCount != 0 && !holdsTile t g n.toNat)),
     faults u (plainFault 0x18 0xFF) (ofTeam (fun t _ _ _ _ => t.desc.matCount == 0))]
/-- TREAD. -/
def treadClaims (n : BitVec 2) (d : BitVec 8) (r : BitVec 8) (h : BitVec 1) : List Claim :=
    let u : Uses := { role := .matrixVector, sr := [(r.toNat, 1)], vw := [d.toNat], long := some true }
    let e : Group → Nat := fun g => (g.rf.S r.toNat).toNat
    let good : Team → Group → Bool := fun t g => (h != 1 || t.pair) && decide (e g % g.lanes = 0) && decide (e g < 8192)
    let clean : Cur → Group → Bool := fun c g => (lanesOf c.lanes).all (fun l => !g.outside d.toNat 1 l && !g.sliceSplits (lanesOf c.lanes) d.toNat 1 2 l &&
      !(decide (0x88 ≤ d.toNat) && (g.rf :: g.sh.toList).any (fun rf => rf.xbad.contains ((d.toNat - 0x88) * 64 + l))))
    [does u (sends true (fun c g _ _ => .tread n.toNat h.toNat (e g) ((lanesOf c.lanes).map (fun l => (l, (g.regAt g.rf d.toNat l).getD 0)))))
      (ofTeam (fun t c g _ _ => good t g && holdsTile t g n.toNat && clean c g)),
     faults u (plainFault 0x03) (ofTeam (fun t _ g _ _ => !good t g))] ++ tokenFaults u n.toNat (ofTeam (fun t _ g _ _ => good t g))
/-- TWRITE. -/
def twriteClaims (n : BitVec 2) (a : BitVec 8) (r : BitVec 8) (h : BitVec 1) : List Claim :=
    let u : Uses := { role := .matrixVector, sr := [(r.toNat, 1)], vr := [a.toNat], bad := !isRegCode a.toNat, long := some false }
    let e : Group → Nat := fun g => (g.rf.S r.toNat).toNat
    let good : Team → Group → Bool := fun t g => (h != 1 || t.pair) && decide (e g % g.lanes = 0) && decide (e g < 8192)
    let clean : Cur → Group → Bool := fun c g => !(lanesOf c.lanes).isEmpty && (lanesOf c.lanes).all (fun l => !g.outside a.toNat 1 l &&
      (g.tagsAt a.toNat 1 l).all (· == 2) && (g.dirtyAt a.toNat 1 l 1).isNone)
    [does u (fun c g run s => match savedTile c n.toNat s with
        | some s1 => (s1.longOp c run false (.twrite n.toNat h.toNat (e g) ((lanesOf c.lanes).map (fun l =>
            (e g + l, (g.srcVal run g.rf a.toNat l).getD 0))))).2
        | none => s)
      (ofTeam (fun t c g _ s => good t g && holdsTile t g n.toNat && clean c g && (savedTile c n.toNat s).isSome)),
     faults u (plainFault 0x03) (ofTeam (fun t _ g _ _ => !good t g))] ++ tokenFaults u n.toNat (ofTeam (fun t _ g _ _ => good t g))
/-- TCHK. -/
def tchkClaims (n : BitVec 2) (d : BitVec 8) (k : BitVec 1) (f : BitVec 1) (h : BitVec 1) : List Claim :=
    let u : Uses := { role := .matrixVector, sw := [(d.toNat, 1)], long := some true }
    [does u (sends true (fun _ _ _ _ => .tchk n.toNat h.toNat d.toNat (k == 1) (f == 1)))
      (ofTeam (fun t _ g _ _ => (h != 1 || t.pair) && holdsTile t g n.toNat)),
     faults u (plainFault 0x03) (ofTeam (fun t _ _ _ _ => h == 1 && !t.pair))] ++
    tokenFaults u n.toNat (ofTeam (fun t _ _ _ _ => h != 1 || t.pair))
/-- MDRAIN. -/
def mdrainClaims (n : BitVec 2) (a : BitVec 8) (h : BitVec 1) : List Claim :=
    let u : Uses := { role := .matrixVector, sr := [(a.toNat, 8)], bad := decide (a.toNat % 8 ≠ 0), long := some false, pair := true }
    let good : Team → Cur → Group → Bool := fun t c g => (h != 1 || t.pair) && (matDescBad (eightWords g a) [0, 1, 2] [false, true] true).isNone &&
      holdsTile t g n.toNat && (matAddrFault c [eightWords g a]).isNone
    [does u (byTeam (fun t c g run s => match indexList s c t (eightWords g a) 64 with
        | some (ls, s1) => (s1.longOp c run false (.mdrain n.toNat h.toNat (eightWords g a) ls none none)).2
        | none => s))
      (soloTeam (fun t c g _ s => good t c g && (indexList s c t (eightWords g a) 64).isSome))]

/-! ## Recovery, compare and link words (R401 to R425, R449, R450, R480 to R487) -/

/-- The group is neither parted nor dual, and a word that ends a run stands right before its ENDRUN (R402). -/
def recPlace (run : Run) (g : Group) (last : Bool) : Bool := (!last || run.off + 1 == run.words.length) && !g.parted && !g.dual

/-- OPERAND of a recovery word (R402). -/
def recFault (datum : Nat) : Ending := plainFault 0x03 datum

/-- The level that the issuing group's ENSURE forms or joins, with the group and its snapshot in it (R403, R412). -/
def arriving (t : Team) (c : Cur) (g : Group) (run : Run) (e : BitVec 12) (limit : Word) : Level :=
  let imm := (run.imm.getD 0).toNat
  let lvl := t.forming.getD (newLevel c.addr (imm / 65536) e.toNat (BitVec.ofNat 16 imm) limit.toNat)
  { lvl with arrived := lvl.arrived ++ [g.id], snaps := lvl.snaps ++ [g.snapshot] }

/-! ENSURE, ELSEBY, ELSEERR, VERDICT, RBFAIL, RBSTAT, CONVJOIN of a team of one copy (R403 to R410, R421). -/
/-- ENSURE. -/
def ensureClaims (l : BitVec 8) (e : BitVec 12) : List Claim :=
    let u : Uses := { sr := [(l.toNat, 1)] }
    let waitsAt : Cur → Group → Option Nat := fun c g => match g.waitOf c.gang with | .ensure n => some n | _ => none
    let good : Team → Cur → Group → Run → Bool := fun t c g run =>
      let imm := (run.imm.getD 0).toNat
      recPlace run g true && run.imm.isSome && decide (3 ≤ imm / 65536) && decide (imm / 65536 < e.toNat) && decide (g.rf.S l.toNat ≠ 0) &&
      t.forming.all (fun f => f.ens == c.addr)
    let room : Team → Cur → Group → Run → Bool := fun t c g run =>
      decide (t.regionUsed + 1024 + (if t.allGroups (arriving t c g run e (g.rf.S l.toNat)).arrived then 256 else 0) ≤ t.regionSize)
    [waits u (byTeam (fun t c g run s =>
        (s.onTeam c.team (fun x => { x with forming := some (arriving t c g run e (g.rf.S l.toNat)) })).setWait c (.ensure (t.levels.length + 1))))
      (ofTeam (fun t c g run _ => good t c g run && (t.forming.isSome || decide (t.levels.length < 8)) && room t c g run)),
     (jumps u (fun c _ run s => s.branchTo c (behind run))
      (ofTeam (fun t c g _ _ => (waitsAt c g).any (fun n => decide (n ≤ t.levels.length))))).again,
     (jumps u (byTeam (fun t c _ run s => (openLevel s t).branchTo c (behind run)))
      (ofTeam (fun t c g _ s => (waitsAt c g).any (fun n => decide (t.levels.length < n)) && t.levelOpens s))).again,
     faults u (recFault 0) (ofTeam (fun t c g run _ => !good t c g run)),
     faults u (plainFault 0x1C 1) (ofTeam (fun t c g run _ => good t c g run && t.forming.isNone && decide (8 ≤ t.levels.length))),
     faults u (plainFault 0x1C 2) (ofTeam (fun t c g run _ => good t c g run && (t.forming.isSome || decide (t.levels.length < 8)) &&
        !room t c g run))]
/-- ELSEBY. -/
def elsebyClaims (o : BitVec 12) : List Claim :=
    let good : Team → Cur → Group → Run → Bool := fun t c g run => recPlace run g true && decide (3 ≤ o.toNat) &&
      t.levels.getLast?.any (fun l => !l.testing.contains g.id && l.term == c.addr)
    [jumps {} (byTeam (fun t c g _ s => (s.onTop c.team (fun l => { l with testing := l.testing ++ [g.id] })).branchTo c
        ((t.levels.getLast?.map (·.test)).getD 0))) (soloTeam (fun t c g run _ => good t c g run)),
     faults {} (recFault 0) (ofTeam (fun t c g run _ => !good t c g run))]
/-- ELSEERR. -/
def elseerrClaims : List Claim :=
    let good : Team → Cur → Group → Run → Bool := fun t c g run => recPlace run g true &&
      t.levels.getLast?.any (fun l => !l.testing.contains g.id && l.term == c.addr)
    [jumps {} (byTeam (fun t c g _ s => (s.onTop c.team (fun l => { l with testing := l.testing ++ [g.id] })).branchTo c
        ((t.levels.getLast?.map (·.test)).getD 0))) (soloTeam (fun t c g run _ => good t c g run)),
     faults {} (recFault 0) (ofTeam (fun t c g run _ => !good t c g run))]
/-- VERDICT. -/
def verdictClaims (q : BitVec 3) : List Claim :=
    let good : Team → Group → Run → Bool := fun t g run => recPlace run g true && t.levels.getLast?.any (fun l => l.testing.contains g.id)
    let waitsAt : Cur → Group → Option Nat := fun c g => match g.waitOf c.gang with | .verdict n => some n | _ => none
    let left : Team → Cur → State → Nat := fun t c s => (((judge s t).teams.find c.team).map (fun x => x.levels.length)).getD 0
    [waits {} (byTeam (fun t c g _ s => (s.onTop c.team (fun l => { l with
        verdicts := l.verdicts ++ [(g.id, (lanesOf c.lanes).all (fun l => g.rf.Q q.toNat l))] })).setWait c (.verdict t.levels.length)))
      (soloTeam (fun t c g run _ => good t g run && (g.predFault q.toNat (lanesOf c.lanes)).isNone)),
     (jumps {} noEffect (ofTeam (fun t c g _ _ => (waitsAt c g).any (fun n => decide (t.levels.length < n))))).again,
     (jumps {} (byTeam (fun t _ _ _ s => judge s t)) (ofTeam (fun t c g _ s => (waitsAt c g).any (fun n =>
        decide (n ≤ t.levels.length) && t.verdictReady s && decide (left t c s < n))))).again,
     faults {} (recFault 0) (ofTeam (fun t _ g run _ => !good t g run))]
/-- RBFAIL. -/
def rbfailClaims (k : BitVec 8) : List Claim :=
    [waits {} (fun c g _ s => failInnermost (stopGroup s c.team c.group) c.team 3 k.toNat g.id) (ofTeam (fun t _ _ _ _ => !t.levels.isEmpty)),
     faults {} (recFault 0) (ofTeam (fun t _ _ _ _ => t.levels.isEmpty))]
/-- RBSTAT. -/
def rbstatClaims (d : BitVec 8) : List Claim :=
    [does { sw := [(d.toNat, 4)], bad := decide (d.toNat % 4 ≠ 0), long := some true } (returns d.toNat (fun t _ _ _ =>
        [t.rbdepth.toNat, t.rbcause.toNat, t.regionUsed, t.committed * 65536 + t.rolled])) (ofTeam (fun _ _ _ _ _ => true))]
/-- CONVJOIN. -/
def convjoinClaims (a : BitVec 8) : List Claim :=
    let u : Uses := { sr := [(a.toNat, 2)], bad := decide (a.toNat % 2 = 1) }
    let va : Group → DWord := fun g => g.rf.S64 a.toNat
    let open? : Team → Group → Bool := fun t g => t.levels.getLast?.any (fun l => l.routine == 0 && !l.testing.contains g.id &&
      (l.joiners.isEmpty || l.convva == va g)) && !t.levels.any (fun l => l.joined)
    let free : Cur → Run → State → State := fun c run s => (run.unpark (s.onRun c (fun r => { r with op := none }))).setWait c .none
    let ready : Team → State → Leaf → Bool := fun t s lf =>
      let key := homeKey lf.vc lf.pa
      decide (lf.pa < 2 ^ 40) && !lf.sealed && !provBlocked s t.id key && (s.wakeSlice lf.vc lf.pa).1 &&
      (let s1 := (s.wakeSlice lf.vc lf.pa).2
       present s1 lf.vc lf.pa && !homePoison s1 lf.vc lf.pa && decide (2 ≤ recNat s1 key 0 1) && decide (recNat s1 key 0 1 ≤ 8) &&
       decide (recNat s1 key 2 1 = 0) && recNat s1 key 1 1 != recNat s1 key 0 1 && !foreignMember s1 t.ctx key)
    let found : Team → Group → State → Option (Leaf × State) := fun t g s => match engineLeaf s .nowhere t.ctx (va g) .both with
      | (some (.ok lf), s1) => some (lf, s1)
      | _ => none
    [waits u (byTeam (fun t c g run s => match t.levels.getLast?, found t g s with
        | some l, some (lf, s1) => joinGroup ((free c run s1).wakeSlice lf.vc lf.pa).2 c t l (va g) (homeKey lf.vc lf.pa)
        | _, _ => s))
      (soloTeam (fun t c g run s => recPlace run g false && open? t g && decide ((va g).toNat % 64 = 0) &&
        (found t g s).any (fun x => ready t (free c run x.2) x.1))),
     (does u (fun _ _ run s => run.unpark s)
      (soloTeam (fun t c g _ _ => g.waitOf c.gang == .convjoin && t.levels.getLast?.any (fun l => l.formed)))).again,
     faults u (recFault 0) (soloTeam (fun _ _ g run _ => !recPlace run g false)),
     faults u (recFault 0x93) (soloTeam (fun t _ g run _ => recPlace run g false && !open? t g))]

/-! CMPSTAT, CMPPOINT (R449, R450): outside core-pair protection CMPPOINT compares nothing beyond what its frame does. -/
/-- CMPSTAT. -/
def cmpstatClaims (d : BitVec 8) : List Claim :=
    [does { sw := [(d.toNat, 4)], bad := decide (d.toNat % 4 ≠ 0), long := some true } (returns d.toNat (fun t _ _ _ =>
        [t.desc.protect * 2 ^ 30 + t.cmp.held.length * 65536 + t.cmp.mismatch, t.cmp.retries * 65536 + t.cmp.escal, t.cmp.stall,
         t.cmp.lastGroup * 2 ^ 20 + t.cmp.lastDatum])) (soloTeam)]
/-- CMPPOINT. -/
def cmppointClaims (a : BitVec 8) (sg : BitVec 1) (n : BitVec 3) : List Claim :=
    [does (if sg = 1 then { sr := [(a.toNat, n.toNat + 1)], long := some false, pair := true }
        else { vrs := [(a.toNat, n.toNat + 1)], bad := decide (0x80 < a.toNat + (n.toNat + 1)), long := some false, pair := true })
      noEffect (soloTeam)]

/-- The pairs that a LNKPARK or LNKWAKE mask names, and the pairs after it (R470, R481). -/
def pairsNamed (m : Nat) : List Nat := (List.range 7).filter (fun i => natBit m (i + 1))
def pairsAfter (l : Link) (m : Nat) (act : Pair → Pair) : List Pair :=
  l.pairs.zipIdx.map (fun (x : Pair × Nat) => if (pairsNamed m).contains x.2 then act x.1 else x.1)

/-- A word that changes named pairs (R481). -/
def pairClaim (a : BitVec 8) (g : BitVec 3) (act : Pair → Pair) (body : List Nat → OpBody) : List Claim :=
  let u : Uses := { priv := true, sr := [(a.toNat, 1)], long := some false }
  let m : Group → Nat := fun gr => (gr.rf.S a.toNat).toNat
  let good : Group → Bool := fun gr => decide (m gr < 256) && !natBit (m gr) 0
  [does u (fun c gr run s =>
      let l := s.link g.toNat
      ((s.putLink g.toNat { l with pairs := pairsAfter l (m gr) act }).longOp c run false (body (pairsNamed (m gr)))).2)
    (fun _ gr _ s => good gr && pairsAfter (s.link g.toNat) (m gr) act != (s.link g.toNat).pairs),
   does u noEffect (fun _ gr _ s => good gr && pairsAfter (s.link g.toNat) (m gr) act == (s.link g.toNat).pairs),
   faults u (plainFault 0x03) (fun _ gr _ _ => !good gr)]

/-- The two tables of a slot-table image (R463, R484). -/
def tablesOf (bs : List Byte) : List Nat × List Nat := (imageTable bs 0 4096, imageTable bs 4096 4096)

/-! LNKPARK, LNKWAKE, LNKSTAT, SLOTLD, SLOTSW, LNKTHR, LNKRETRAIN (R481 to R486). -/
/-- LNKPARK. -/
def lnkparkClaims (a : BitVec 8) (g : BitVec 3) : List Claim :=
    pairClaim a g (fun p => match p with
      | .active => .parkpend
      | .wakepend => .parked
      | .waking n _ => .waking n true
      | p => p) (.park g.toNat)
/-- LNKWAKE. -/
def lnkwakeClaims (a : BitVec 8) (g : BitVec 3) : List Claim :=
    pairClaim a g (fun p => match p with
      | .parkpend => .active
      | .parked => .wakepend
      | .waking n _ => .waking n false
      | p => p) (.wake g.toNat)
/-- LNKSTAT. -/
def lnkstatClaims (d : BitVec 8) (g : BitVec 3) : List Claim :=
    [does { priv := true, sw := [(d.toNat, 4)], bad := decide (d.toNat % 4 ≠ 0), long := some true }
      (sends true (fun _ _ _ s => .ret d.toNat (s.link g.toNat).stat))]
/-- SLOTLD. -/
def slotldClaims (a : BitVec 8) (g : BitVec 3) : List Claim :=
    let u : Uses := { priv := true, sr := [(a.toNat, 2)], bad := decide (a.toNat % 2 = 1), long := some false }
    let image : Team → Group → State → Option (List Byte × State) := fun t gr s =>
      match (globalReadN 257 s t.ctx (gr.rf.S64 a.toNat) 16384).1 with
      | .ok bs s => some (bs, s)
      | _ => none
    let calm : Group → State → Bool := fun gr s => !(s.link g.toNat).swpend && decide ((gr.rf.S64 a.toNat).toNat % 4096 = 0)
    let bad? : List Byte → Option (Nat × Nat) := fun bs => tablesBad (tablesOf bs).1 (tablesOf bs).2
    [does u (byTeam (fun t c gr run s => match image t gr s with
        | some (bs, s1) =>
          let s2 := run.unpark s1
          ((s2.putLink g.toNat { s2.link g.toNat with standby := some ⟨sparse (tablesOf bs).1, sparse (tablesOf bs).2⟩ }).longOp c run false .done).2.acquire
            c 4
        | none => s))
      (ofTeam (fun t _ gr _ s => calm gr s && (image t gr s).any (fun x => (bad? x.1).isNone))),
     { uses := plain u, cond := ofTeam (fun t _ gr _ s => calm gr s && (image t gr s).any (fun x => (bad? x.1).isSome)),
       effect := byTeam (fun t _ gr run s => ((image t gr s).map (fun x => run.unpark x.2)).getD s),
       ending := .fault (fun c gr _ s => match (s.teams.find c.team).bind (fun t => (image t gr s).bind (fun x => bad? x.1)) with
         | some (r, k) => { code := 0x23, datum := r * 4096 + k, lanes := c.lanes }
         | none => { code := 0x23, lanes := c.lanes }) },
     faults u (plainFault 0x03) (ofTeam (fun _ _ _ _ s => (s.link g.toNat).swpend)),
     faults u (addrFaultAt 0x08 (fun _ => 0) (fun gr => gr.rf.S64 a.toNat))
      (ofTeam (fun _ _ gr _ s => !(s.link g.toNat).swpend && decide ((gr.rf.S64 a.toNat).toNat % 4096 ≠ 0)))]
/-- SLOTSW. -/
def slotswClaims (g : BitVec 3) : List Claim :=
    let u : Uses := { priv := true, long := some false }
    let twice : State → List Nat := fun s => match (s.link g.toNat).standby with
      | some t => doubleClaims (s.link g.toNat).active.request t.request
      | none => []
    [does u (fun c _ run s =>
        let l := s.link g.toNat
        ((s.putLink g.toNat { l with swpend := true }).longOp c run false (.switch g.toNat)).2)
      (fun _ _ _ s => !(s.link g.toNat).swpend && (s.link g.toNat).standby.isSome && (twice s).isEmpty),
     faults u (plainFault 0x03) (fun _ _ _ s => (s.link g.toNat).swpend),
     faults u (plainFault 0x23 (9 * 4096)) (fun _ _ _ s => !(s.link g.toNat).swpend && (s.link g.toNat).standby.isNone),
     faults u (.fault (fun c _ _ s => { code := 0x23, datum := 8 * 4096 + (twice s).foldl min ((twice s).headD 0), lanes := c.lanes }))
      (fun _ _ _ s => !(s.link g.toNat).swpend && !(twice s).isEmpty)]
/-- LNKTHR. -/
def lnkthrClaims (a : BitVec 8) (g : BitVec 3) : List Claim :=
    let u : Uses := { priv := true, sr := [(a.toNat, 1)], long := some false }
    let n : Group → Nat := fun gr => (gr.rf.S a.toNat).toNat
    [does u (fun _ gr _ s =>
        let l := s.link g.toNat
        s.putLink g.toNat { l with thr := n gr, armed := decide (l.waiting < n gr) }) (fun _ gr _ _ => decide (n gr < 65536)),
     faults u (plainFault 0x03) (fun _ gr _ _ => decide (65536 ≤ n gr))]
/-- LNKRETRAIN. -/
def lnkretrainClaims (g : BitVec 3) : List Claim :=
    [does { priv := true, long := some false } (fun c _ run s => ((startRetrain s g.toNat).longOp c run false (.retrain g.toNat)).2)]

/-! ## Steps without a word: memory, banks, copies, the fabric -/

/-- Every claim of a list holds of a step without a word. -/
def AllTake (i : Instr) (l : List Event) : Prop := ∀ x ∈ l, x.Holds i

/-- The step takes place where p holds, and nothing changes where it does not. -/
def whenDue (p : Subject → State → Bool) (f : Subject → State → State) : List Event :=
  [{ due := p, effect := f }, { due := fun e s => !p e s, effect := fun _ s => s }]

/-- Nothing changes where p holds. -/
def idleWhen (p : Subject → State → Bool) : Event := { due := p, effect := fun _ s => s }

/-- A step about the operation that its subject names. -/
def opStep (p : Op → Subject → State → Bool) (f : Op → Subject → State → State) : Event :=
  { due := fun e s => (s.ops.find e.a).any (fun o => p o e s)
    effect := fun e s => match s.ops.find e.a with
      | some o => f o e s
      | none => s }

/-- A step about the team that its subject names. -/
def teamStep (p : Team → Subject → State → Bool) (f : Team → Subject → State → State) : Event :=
  { due := fun e s => (s.teams.find e.a).any (fun t => p t e s)
    effect := fun e s => match s.teams.find e.a with
      | some t => f t e s
      | none => s }

/-- A step about the team and group that its subject names. -/
def groupStep (p : Team → Group → Subject → State → Bool) (f : Team → Group → Subject → State → State) : Event :=
  { due := fun e s => (s.teams.find e.a).any (fun t => (s.group? e.a e.b).any (fun g => p t g e s))
    effect := fun e s => match s.teams.find e.a, s.group? e.a e.b with
      | some t, some g => f t g e s
      | _, _ => s }

/-- A step about the copy that its subject names. -/
def copyStep (p : Copy → Subject → State → Bool) (f : Copy → Subject → State → State) : Event :=
  { due := fun e s => (s.copies.find e.a).any (fun k => p k e s)
    effect := fun e s => match s.copies.find e.a with
      | some k => f k e s
      | none => s }

/-- A step about a lane that is neither over nor being translated, of the memory operation that its subject names, with its team and
group. -/
def laneStep (p : Op → MemOp → Team → Group → LaneAcc → State → Bool) (f : Op → MemOp → Team → Group → LaneAcc → State → State) : Event :=
  { due := fun e s => (s.ops.find e.a).any (fun o => (match o.body with
      | .mem m => (s.teams.find o.team).any (fun t => (s.group? o.team o.group).any (fun g => t.phase == .resident &&
          (m.accs.find? (fun (a : LaneAcc) => a.lane == e.b && (a.st == .ready || a.st == .miss))).any (fun a => p o m t g a s)))
      | _ => false))
    effect := fun e s => match s.ops.find e.a with
      | none => s
      | some o => match o.body, s.teams.find o.team, s.group? o.team o.group with
        | .mem m, some t, some g =>
          (match m.accs.find? (fun (a : LaneAcc) => a.lane == e.b && (a.st == .ready || a.st == .miss)) with
          | some a => f o m t g a s
          | none => s)
        | _, _, _ => s }

/-- A load whose lane may be performed now. -/
def loads (s : State) (t : Team) (g : Group) (o : Op) (m : MemOp) (a : LaneAcc) : Bool :=
  (m.kind == .load || m.kind == .loadU) && loadReady s t g o m a

/-- The bank of a scratch or sync access serves it without an uncorrectable word (R267, R268). -/
def bankServes (s : State) (t : Team) (m : MemOp) (a : LaneAcc) : Bool :=
  (s.wakeBank t.pool (a.pa / 32768)).1 && !(((s.wakeBank t.pool (a.pa / 32768)).2.cluster t.pool).bank (a.pa / 32768)).bad.any (fun w =>
    decide (a.pa % 32768 / 8 ≤ w) && decide (w ≤ (a.pa % 32768 + m.bytes - 1) / 8))

/-- A plain global load that neither a reply nor forwarding answers (R235): what forwarding gives its bytes. -/
def globalMiss (s : State) (t : Team) (g : Group) (o : Op) (m : MemOp) (a : LaneAcc) : Option (List (Option Byte)) :=
  if loads s t g o m a ∧ m.space = .global ∧ a.pa < 2 ^ 40 ∧ (replyFor s o.id (a.pa / 256)).isNone then
    (forward s t g o m a).filter (fun fs => !fs.all (·.isSome))
  else none

/-- A load that acquires at clus or wider does not look into L1 (R229). -/
def skipsL1 (t : Team) (m : MemOp) : Bool := acquires m.mods.order && decide (3 ≤ t.scope m.mods.scope)

/-! LOAD_REPLY: a lane of a load is performed where its bytes are: at a tile, at its bank, forwarded whole, in L1, or at the home slice,
which it then fills into L1; a probe's word comes (R219, R223, R228 to R236, R250). -/
/-- LOAD_REPLY. -/
def loadReplyClaims : List Event :=
    [laneStep (fun _ m _ _ _ _ => m.kind == .probe) (fun o m _ _ a s => bindData s o m a a.data),
     laneStep (fun o m t g a s => loads s t g o m a && m.space == .tile && !tileWaits s t (a.pa / 2 ^ 15) o.id) (fun o m t g a s =>
        bindData s o m a (tileBytes (s.tileOf t (a.pa / 2 ^ 15) (g.core - t.core)) (a.pa % 2 ^ 15) m.bytes)),
     laneStep (fun o m t g a s => loads s t g o m a && m.space == .scratch && (forward s t g o m a).isSome && bankServes s t m a)
      (fun o m t g a s =>
        let s1 := (s.wakeBank t.pool (a.pa / 32768)).2
        bindData (s1.correctBank t.pool (a.pa / 32768) (a.pa % 32768) m.bytes) o m a (overBytes ((forward s t g o m a).getD [])
          (Memory.readN ((s1.cluster t.pool).bank (a.pa / 32768)).mem m.bytes (a.pa % 32768)))),
     laneStep (fun o m t g a s => loads s t g o m a && m.space == .global && decide (a.pa < 2 ^ 40) && (replyFor s o.id (a.pa / 256)).isNone &&
        (forward s t g o m a).any (fun fs => fs.all (·.isSome)))
      (fun o m t g a s => bindData s o m a (overBytes ((forward s t g o m a).getD []) [])),
     laneStep (fun o m t g a s => (globalMiss s t g o m a).isSome && !skipsL1 t m && (l1Read s g m a).1.isSome) (fun o m t g a s =>
        bindData (l1Read s g m a).2 o m a (overBytes ((globalMiss s t g o m a).getD []) ((l1Read s g m a).1.getD []))),
     laneStep (fun o m t g a s => (globalMiss s t g o m a).isSome && skipsL1 t m && (s.vcs.find a.vc).isSome &&
        !provBlocked s t.id (homeKey a.vc a.pa) && (s.wakeSlice a.vc a.pa).1 && present (s.wakeSlice a.vc a.pa).2 a.vc a.pa &&
        !homePoison (s.wakeSlice a.vc a.pa).2 a.vc a.pa)
      (fun o m t g a s =>
        let s1 := touchHome ((s.wakeSlice a.vc a.pa).2.correct a.vc a.pa) a.vc a.pa m.mods.cpol
        bindData (fillL1 s1 g.core a.vc a.pa a.sealed m.mods.cpol g.acqt true) o m a
          (overBytes ((globalMiss s t g o m a).getD []) (homeBytes s1 a.vc m.bytes a.pa)))]

/-- The block that a store acknowledgement is about: of the merge point, with none ahead that it has to wait for, and with its team and
group there. -/
def ackOf (e : Subject) (s : State) : Option Block :=
  match (s.core e.a).merge.find? (fun b => b.id == e.b) with
  | some b => if ((s.core e.a).merge.takeWhile (fun x => x.id != b.id)).any (fun x => blockAhead s x b) then none else some b
  | none => none

/-- A step about such a block. -/
def ackStep (p : Block → Team → Group → Subject → State → Bool) (f : Block → Team → Group → Subject → State → State) : Event :=
  { due := fun e s => (ackOf e s).any (fun b => (s.teams.find b.team).any (fun t => (s.group? b.team b.group).any (fun g => p b t g e s)))
    effect := fun e s => match ackOf e s with
      | none => s
      | some b => match s.teams.find b.team, s.group? b.team b.group with
        | some t, some g => f b t g e s
        | _, _ => s }

/-- The cells that a block writes into its bank: a raise is computed on the word that is there (R64, R269). -/
def bankCells (s : State) (t : Team) (b : Block) : List Host.Cell :=
  let cells := b.cells.map (fun c => (c.1 % 32768, c.2))
  let o := (cells.headD (0, 0)).1
  match b.kind with
  | .swadd n => cellsAt o (syncRaise (Memory.readN ((s.cluster t.pool).bank b.bank).mem 16 o) n none)
  | _ => cells

/-- The sector of a store that a step performs, and the block's cells in it. -/
def sectorOf (b : Block) (pick : Nat) : Nat :=
  let secs := (b.cells.map (fun c => c.1 / 64)).eraseDups
  secs.getD (pick % max 1 secs.length) 0
def inSector (b : Block) (sec : Nat) : List Host.Cell := b.cells.filter (fun c => c.1 / 64 == sec)
def offSector (b : Block) (sec : Nat) : List Host.Cell := b.cells.filter (fun c => c.1 / 64 != sec)

/-- A store in global space whose VC is defined. -/
def isHomeStore (b : Block) (s : State) : Bool :=
  b.space == .global && !b.device && (s.vcs.find b.vc).isSome && (match b.kind with | .atomic _ _ => false | _ => true)

/-- The state that a home write of a store's sector leaves, where it is done at once. -/
def homeDone (s : State) (b : Block) (pick : Nat) : Option State :=
  let sec := sectorOf b pick
  if !(s.wakeSlice b.vc (64 * sec)).1 then none else
  match homeWrite (s.wakeSlice b.vc (64 * sec)).2 b.team b.level b.vc (inSector b sec) b.mods.cpol with
  | .done s => some ((inSector b sec).foldl (fun (s : State) c => hitRegions s b.ctx (b.va.toNat / 256 * 256 + c.1 % 256) 1) s)
  | _ => none

/-- The atomic that a block performs at its home, where it can at once: the old bytes and the state (R300); a write is noted where it
falls into a recovery region (R414). -/
def atomDone (s : State) (b : Block) : Option (List Byte × State) :=
  match b.kind with
  | .atomic op wide =>
    let pa := (b.cells.headD (0, 0)).1
    let d := leVal (b.cells.map (·.2))
    let tag := if op = 8 then 0 else b.cmp
    let cmp := if op = 8 then b.cmp else 0
    if b.space ≠ .global ∨ b.device ∨ (s.vcs.find b.vc).isNone ∨ atomParked s b then none else
    (match homeAtomic s b.team b.vc pa op wide tag d cmp b.mods.cpol with
    | .ok bs s => some (bs, if (atomicNew op wide tag (leVal bs) d cmp).isSome then hitRegions s b.ctx b.va.toNat (if wide then 8 else 4) else s)
    | _ => none)
  | _ => none

/-! STORE_BLOCK_MERGE, STORE_ACKNOWLEDGE, COMMUTATIVE_FLUSH: a group's oldest block passes to its core's merge point, in order, once
releases allow it; from there it is performed at its bank, tile or home sector, an atomic with its old value (R45 to R58, R228,
R230, R234, R269, R300, R389). -/
/-- STORE_BLOCK_MERGE. -/
def storeBlockMergeClaims : List Event :=
    let ready : Team → Group → Block → State → Bool := fun t g b s => mergeReady s t g b && (b.mods.use == 2 || mergeRoom s g.core b)
    [groupStep (fun t g _ s => g.fifo.head?.any (fun b => ready t g b s && b.mods.use != 2 && b.space != .drawer)) (fun t g _ s =>
        match g.fifo with
        | b :: rest =>
          let s1 := mergeL1 (s.onGroup t.id g.id (fun g => { g with fifo := rest })) g.core b
          let k := s1.mergeKey g.core
          let c := s1.core k
          s1.putCore k { c with merge := c.merge ++ [b] }
        | [] => s),
     groupStep (fun t g _ s => g.fifo.head?.any (fun b => ready t g b s && b.mods.use == 2 && b.space != .drawer)) (fun t g _ s =>
        match g.fifo with
        | b :: rest =>
          let s1 := mergeL1 (s.onGroup t.id g.id (fun g => { g with fifo := rest })) g.core b
          let k := s1.mergeKey g.core
          let c := s1.core k
          s1.putCore k { c with comm := c.comm ++ [b] }
        | [] => s),
     groupStep (fun t g _ s => g.fifo.head?.all (fun b => !ready t g b s)) (fun _ _ _ s => s)]
/-- STORE_ACKNOWLEDGE. -/
def storeAcknowledgeClaims : List Event :=
    [ackStep (fun b t _ _ s => (b.space == .scratch || b.space == .sync) && (s.wakeBank t.pool b.bank).1 &&
        (bankWrite (s.wakeBank t.pool b.bank).2 t.id t.pool b.bank (bankCells (s.wakeBank t.pool b.bank).2 t b)).isSome)
      (fun b t _ _ s =>
        let s1 := (s.wakeBank t.pool b.bank).2
        ((bankWrite s1 t.id t.pool b.bank (bankCells s1 t b)).getD s1).dropBlock b.id),
     ackStep (fun b t _ _ s => b.space == .tile && !tileWaits s t ((b.cells.headD (0, 0)).1 / 2 ^ 15) b.op) (fun b t g _ s =>
        let z := (b.cells.headD (0, 0)).1 / 2 ^ 15
        (s.putTile t z (g.core - t.core) ((s.tileOf t z (g.core - t.core)).write (tileWords b))).dropBlock b.id),
     ackStep (fun b _ _ e s => isHomeStore b s && (homeDone s b e.c).isSome && (offSector b (sectorOf b e.c)).isEmpty)
      (fun b _ _ e s => ((homeDone s b e.c).getD s).dropBlock b.id),
     ackStep (fun b _ _ e s => isHomeStore b s && (homeDone s b e.c).isSome && !(offSector b (sectorOf b e.c)).isEmpty)
      (fun b _ _ e s => ((homeDone s b e.c).getD s).allCores (fun c => { c with merge := c.merge.map (fun (x : Block) =>
        if x.id = b.id then { x with cells := offSector b (sectorOf b e.c) } else x) })),
     ackStep (fun b _ _ _ s => (atomDone s b).isSome) (fun b _ _ _ s => match atomDone s b with
        | some (bs, s) => atomBound s b bs
        | none => s),
     ackStep (fun b _ _ _ _ => b.space == .global && b.device && (match b.kind with | .atomic _ _ => false | _ => true))
      (fun b _ _ _ s => (devWrite s b.cells).dropBlock b.id)]
/-- COMMUTATIVE_FLUSH. -/
def commutativeFlushClaims : List Event :=
    [{ due := fun _ _ => true, effect := fun e s => (s.core e.a).comm.foldl (fun (s : State) b => ackBlock s b 0) s }]

/-- A long-latency operation whose word has met its counterpart, and whose body is read by f. -/
def bodyStep {α : Type} (f : OpBody → Option α) (p : α → Op → State → Bool) (x : α → Op → State → State) : Event :=
  opStep (fun o _ s => !opHeld s o && (f o.body).any (fun a => p a o s)) (fun o _ s => match f o.body with
    | some a => x a o s
    | none => s)

/-! LONG_LATENCY_COMPLETION: an operation whose effect is over completes: its words are written, its flag falls, and ranges that are
pending for a flag at zero end; a memory operation completes when its lanes are over and its blocks have left the FIFO; a fence when its
order holds; RINGACK moves HEAD on; MCFG and MZERO act on every half of the tile; STAGEARV changes its stage's phase (R86, R248,
R269, R275, R358, R374, R386). -/
/-- LONG_LATENCY_COMPLETION. -/
def longLatencyCompletionClaims : List Event :=
    let here : Op → State → Bool := fun o s => (s.teams.find o.team).isSome && (s.group? o.team o.group).isSome
    [bodyStep (fun b => match b with | .done => some () | _ => none) (fun _ _ _ => true) (fun _ o s => finishOp s o.id [] 512),
     bodyStep (fun b => match b with | .ret d v => some (d, v) | _ => none) (fun _ _ _ => true) (fun x o s => finishOp s o.id x.2 x.1),
     bodyStep (fun b => match b with | .at n => some n | _ => none) (fun n _ s => decide (n ≤ s.clock)) (fun _ o s => finishOp s o.id [] 512),
     bodyStep (fun b => match b with | .at n => some n | _ => none) (fun n _ s => decide (s.clock < n)) (fun _ _ s => s),
     bodyStep (fun b => match b with | .mem m => some m | _ => none) (fun m o s => here o s && m.accs.any (fun a => !a.st.ended) &&
        !(m.kind.isStore && m.accs.any (fun a => a.st == .ready))) (fun _ _ s => s),
     bodyStep (fun b => match b with | .mem m => if m.kind = .load ∨ m.kind = .loadU then some m else none | _ => none)
      (fun m o s => here o s && m.accs.all (fun a => a.st.ended)) (fun _ o s =>
        (dropReads s (fun r => match r.who with | .lane k _ => k == o.id && r.left == 0 | _ => false)).completeOp o.id),
     bodyStep (fun b => match b with | .fence n k => some (n, k) | _ => none)
      (fun x o s => x.1 == 2 && (s.teams.find o.team).any (fun t => (s.group? o.team o.group).any (fun g => releaseDone s t g x.2 o.id)))
      (fun _ o s => s.completeOp o.id),
     bodyStep (fun b => match b with | .fence n k => some (n, k) | _ => none)
      (fun x o s => x.1 == 1 && (s.teams.find o.team).any (fun t => (s.group? o.team o.group).any (fun g =>
        !loadsOut s t.id g.id o.id && decide (t.scope x.2 < 3))))
      (fun _ o s => s.completeOp o.id),
     bodyStep (fun b => match b with | .ringack h n => some (h, n) | _ => none) (fun _ o s => !loadsOut s o.team o.group o.id true)
      (fun x o s => (s.onRing x.1 (fun r => { r with head := r.head + x.2 })).completeOp o.id),
     bodyStep (fun b => match b with | .mcfg z w => some (z, w) | _ => none)
      (fun x o s => (s.teams.find o.team).any (fun t => !tileWaits s t x.1 o.id))
      (fun x o s => match s.teams.find o.team with
        | some t => (t.halves.foldl (fun (s : State) h => s.putTile t x.1 h { s.tileOf t x.1 h with tcfg := x.2 }) s).completeOp o.id
        | none => s),
     bodyStep (fun b => match b with | .mzero z => some z | _ => none) (fun z o s => (s.teams.find o.team).any (fun t => !tileWaits s t z o.id))
      (fun z o s => match s.teams.find o.team with
        | some t => (t.halves.foldl (fun (s : State) h => s.putTile t z h { Tile.reset with tcfg := (s.tileOf t z h).tcfg }) s).completeOp o.id
        | none => s),
     bodyStep (fun b => match b with | .stagearv r k => some (r, k) | _ => none)
      (fun _ o s => (s.teams.find o.team).any (fun t => (s.group? o.team o.group).any (fun g => releaseDone s t g 1 o.id)))
      (fun x o s => match s.teams.find o.team with
        | some t => (s.onTeam t.id (fun u => { u with phases := setAt u.phases x.1 (setAt (u.phases.getD x.1 []) x.2
            (!phaseOf u x.1 x.2)) })).completeOp o.id
        | none => s),
     opStep (fun o _ s => opHeld s o) (fun _ _ s => s)]

/-! TRANSLATION_WALK, PAGE_MONITOR_WAKE, WALK_RETRY_TIMER, SECTOR_FILL_RETURN, LINE_HANDOVER, SHARE_CLEARING_DONE, the retention of
slice banks, CMLR_RESERVATION_TIMEOUT (R226, R236 to R245, R286, R294, R297, R303). -/
/-- TRANSLATION_WALK. -/
def translationWalkClaims : List Event :=
    let at? : Subject → State → Option (Op × MemOp × Team × Group × LaneAcc) := fun e s => match s.ops.find e.a with
      | none => none
      | some o => match o.body, s.teams.find o.team, s.group? o.team o.group with
        | .mem m, some t, some g => if t.phase ≠ .resident then none else
            (m.accs.find? (fun (a : LaneAcc) => a.lane == e.b && a.st == .walk)).map (fun a => (o, m, t, g, a))
        | _, _, _ => none
    let own? : Team → Group → LaneAcc → Bool := fun t g x => (g.lastPage.find x.lane).any (fun p => p.covers t.ctx x.va.toNat)
    let hit : MemOp → Team → Group → LaneAcc → Bool → LaneAcc → Bool := fun m t g a own x => x.st == .walk && (x.lane == a.lane ||
      (m.kind != .probe && !own && !own? t g x && x.va.toNat / 256 == a.va.toNat / 256))
    let ended : Subject → State → Option ((Op × MemOp × Team × Group × LaneAcc) × (Walk × Bool × Bool) × State) := fun e s =>
      (at? e s).bind (fun y => match laneWalk s y.2.2.2.1 y.2.2.1.ctx y.2.2.2.2.lane y.2.2.2.2.va y.2.1.kind.need with
        | (some r, s1) => some (y, r, s1)
        | (none, _) => none)
    [{ due := fun e s => (ended e s).any (fun z => z.1.2.1.kind != .probe && (match z.2.1.1 with | .ok _ => true | _ => false)), effect := fun e s =>
        match ended e s with
        | some ((o, m, t, g, a), (.ok l, reached, own), s1) =>
          let kept := (m.accs.filter (hit m t g a own)).foldl (fun (p : Map Tlb) (x : LaneAcc) => p.put x.lane (l.asTlb t.ctx)) g.lastPage
          (s1.onGroup t.id g.id (fun (g : Group) => { g with lastPage := kept })).setBody o.id (.mem { m with accs := m.accs.map (fun (x : LaneAcc) =>
            if hit m t g a own x then translatedLane m x (.ok l) reached else x) })
        | _ => s },
     { due := fun e s => (ended e s).any (fun z => z.1.2.1.kind == .probe || (match z.2.1.1 with | .ok _ => false | _ => true)), effect := fun e s =>
        match ended e s with
        | some ((o, m, t, g, a), (w, reached, own), s1) => s1.setBody o.id (.mem { m with accs := m.accs.map (fun (x : LaneAcc) =>
            if hit m t g a own x then translatedLane m x w reached else x) })
        | _ => s },
     { due := fun e s => (at? e s).isSome && (ended e s).isNone, effect := fun e s => match at? e s with
        | some (_, m, t, g, a) => (laneWalk s g t.ctx a.lane a.va m.kind.need).2
        | none => s },
     idleWhen (fun e s => (at? e s).isNone)]
/-- PAGE_MONITOR_WAKE. -/
def pageMonitorWakeClaims : List Event :=
    [{ due := fun _ _ => true, effect := fun e s =>
        let who := (s.monitors.filter (fun (m : Monitor) => m.sector == e.a && m.fired)).map (·.who)
        who.foldl (fun (s : State) (w : Waiter) => match w with
          | .op i => s.unparkOp i
          | .copy i => { s with copies := s.copies.adjust i (fun (k : Copy) => if k.phase = .waiting then { k with phase := .active } else k) })
          { s with monitors := s.monitors.filter (fun (m : Monitor) => !who.contains m.who) } }]
/-- WALK_RETRY_TIMER. -/
def walkRetryTimerClaims : List Event :=
    [{ due := fun e s => (s.group? e.a e.b).isSome, effect := fun e s => match s.group? e.a e.b with
        | none => s
        | some g =>
          let due := g.allGangs.filterMap (fun (k : Gang) => match k.wait with
            | .timer i d => if d ≤ s.clock then some i else none
            | _ => none)
          due.foldl (fun (s : State) i => s.unparkOp i)
            { s with monitors := s.monitors.filter (fun (m : Monitor) => !due.any (fun i => m.who == Waiter.op i)) } }]
/-- SECTOR_FILL_RETURN. -/
def sectorFillReturnClaims : List Event :=
    let mine : Subject → State → LinkRead → Bool := fun e s r =>
      r.who == .fill (e.a * 2 ^ 34 + 64 * e.b / 256 * 4) && natBit r.mask (e.b % 4) && replyHere s r
    let sweep : State → Link → Link := fun s l => { l with sent := l.sent.filter (fun r => !(r.mask == 0 && replyHere s r)) }
    let took : Subject → State → State := fun e s => s.allLinks (fun l => sweep s { l with
      sent := mapUpTo (mine e s) (fun (x : LinkRead) => { x with mask := x.mask - 2 ^ (e.b % 4) }) 1 l.sent })
    let reply : Subject → State → Option LinkRead := fun e s => (s.links.flatMap (fun l => l.2.sent)).find? (mine e s)
    let waiting : Subject → State → Option (Sector × DWord) := fun e s => match s.homes.find (homeKey e.a (64 * e.b)) with
      | some x => (match x.st with | .pending w => some (x, w) | _ => none)
      | none => none
    [{ due := fun e s => (reply e s).isSome && (waiting e (took e s)).isSome, effect := fun e s => match reply e s, waiting e (took e s) with
        | some r, some (x, w) => fillSector (took e s) e.a (64 * e.b) x w r
        | _, _ => s },
     { due := fun e s => (reply e s).isSome && (waiting e (took e s)).isNone, effect := took },
     { due := fun e s => (reply e s).isNone, effect := fun _ s => s.allLinks (sweep s) }]
/-- LINE_HANDOVER. -/
def lineHandoverClaims : List Event :=
    [{ due := fun _ _ => true, effect := fun e s => handOver s e.a e.b }]
/-- SHARE_CLEARING_DONE. -/
def shareClearingDoneClaims : List Event :=
    let due : Subject → State → Bool := fun e s => (s.vcs.find e.a).any (fun v => (v.clearing.find? (fun c => c.1 == e.b)).any (fun c => decide (c.2 ≤ s.clock)))
    whenDue due (fun e s => match s.vcs.find e.a with
        | some v => { s with vcs := s.vcs.put e.a { v with clearing := v.clearing.filter (fun c => c.1 != e.b) },
                             sliceUse := s.sliceUse.setD (shareBank e.b) s.clock 0 }
        | none => s)
/-- SLICE_RETENTION_ENTRY. -/
def sliceRetentionEntryClaims : List Event :=
    let b : Subject → Nat := fun e => e.a * 12 + e.b
    let set : Retention → Subject → State → State := fun r e s => { s with sliceRet := s.sliceRet.setD (b e) r .active }
    let n : Subject → State → Nat := fun e s => (s.slret.getD e.a 0x00010100).toNat
    [{ due := fun e s => s.sliceRet.getD (b e) .active == .active && natBit (n e s) 16 && decide (1 ≤ n e s % 2 ^ 16) &&
        !s.vcs.any (fun v => v.2.clearing.any (fun c => shareBank c.1 == b e)) &&
        decide (s.sliceUse.getD (b e) 0 + n e s % 2 ^ 16 * 1024 ≤ s.clock), effect := fun e s => set (.entering s.clock) e s },
     { due := fun e s => (match s.sliceRet.getD (b e) .active with | .entering t => decide (t + 16384 ≤ s.clock) | _ => false),
       effect := set .retained },
     idleWhen (fun e s => (match s.sliceRet.getD (b e) .active with | .entering t => decide (s.clock < t + 16384) | .active => !natBit (n e s) 16 | _ => true))]
/-- SLICE_RETENTION_EXIT_DONE. -/
def sliceRetentionExitDoneClaims : List Event :=
    let b : Subject → Nat := fun e => e.a * 12 + e.b
    [{ due := fun e s => (match s.sliceRet.getD (b e) .active with | .leaving t => decide (t ≤ s.clock) | _ => false)
       effect := fun e s => { s with sliceRet := s.sliceRet.setD (b e) .active .active, sliceUse := s.sliceUse.setD (b e) s.clock 0 } },
     idleWhen (fun e s => (match s.sliceRet.getD (b e) .active with | .leaving t => decide (s.clock < t) | _ => true))]
/-- CMLR_RESERVATION_TIMEOUT. -/
def cmlrReservationTimeoutClaims : List Event :=
    [{ due := fun _ _ => true, effect := fun e s => s.onGroup e.a e.b (fun (g : Group) => { g with
        resv := g.resv.map (fun (r : Resv) => { r with lost := r.lost || decide (r.due ≤ s.clock) }) }) }]

/-! BANK_ZEROING_DONE, the retention of banks, GIVE_LAND, RING_MESSAGE_DELIVERY, SEND_REFUSAL (R256, R261, R267, R274). -/
/-- BANK_ZEROING_DONE. -/
def bankZeroingDoneClaims : List Event :=
    let due : Subject → State → Bool := fun e s => match ((s.cluster e.a).bank e.b).st with
      | .zeroing _ (some start) => decide (start + 256 ≤ s.clock)
      | _ => false
    let freed : Subject → State → State := fun e s => s.onBank e.a e.b (fun x => { x with
      st := .free, mem := [], bad := [], weak := [], last := s.clock, ret := .active })
    let waiting : Subject → State → List (Nat × Nat) := fun e s =>
      (s.cluster e.a).banks.filterMap (fun x => match x.2.st with | .zeroing r none => some (r, x.1) | _ => none)
    let first : List (Nat × Nat) → Option (Nat × Nat) := fun l => match l with
      | [] => none
      | x :: xs => some (xs.foldl (fun a z => if z.1 < a.1 then z else a) x)
    whenDue due (fun e s =>
      let s1 := freed e s
      let s2 := match first (waiting e s1) with
        | some y => s1.onBank e.a y.2 (fun b => { b with st := .zeroing y.1 (some s1.clock) })
        | none => s1
      keepPromises s2 e.a 64)
/-- BANK_RETENTION_ENTRY. -/
def bankRetentionEntryClaims : List Event :=
    let x : Subject → State → Bank := fun e s => (s.cluster e.a).bank e.b
    let n : Subject → State → Nat := fun e s => (s.cluster e.a).bsret.toNat
    [{ due := fun e s => (x e s).ret == .active && natBit (n e s) 16 && decide (1 ≤ n e s % 2 ^ 16) && !(x e s).st.isZeroing &&
        decide ((x e s).last + n e s % 2 ^ 16 * 1024 ≤ s.clock)
       effect := fun e s => s.onBank e.a e.b (fun b => { b with ret := if b.st = .free then .retained else .entering s.clock }) },
     { due := fun e s => (match (x e s).ret with | .entering t => decide (t + 2048 ≤ s.clock) | _ => false)
       effect := fun e s => s.onBank e.a e.b (fun b => { b with ret := .retained }) },
     idleWhen (fun e s => (match (x e s).ret with | .entering t => decide (s.clock < t + 2048) | .active => !natBit (n e s) 16 | _ => true))]
/-- BANK_RETENTION_EXIT_DONE. -/
def bankRetentionExitDoneClaims : List Event :=
    let x : Subject → State → Bank := fun e s => (s.cluster e.a).bank e.b
    whenDue (fun e s => (match (x e s).ret with
        | .leaving t => decide (t ≤ s.clock) || (x e s).st == .free
        | .retained => (x e s).st == .free
        | _ => false))
      (fun e s => s.onBank e.a e.b (fun b => { b with ret := .active, last := s.clock }))
/-- GIVE_LAND. -/
def giveLandClaims : List Event :=
    let drop : State → Nat → Nat → State := fun s p k =>
      s.putCluster p { s.cluster p with gives := (s.cluster p).gives.filter (fun x => x.op != k) }
    let held : State → Team → Nat → Option Give := fun s t k => (s.cluster t.pool).gives.find? (fun x => x.op == k && x.landed)
    let to? : Op → Option Nat := fun o => match o.body with | .bopen _ _ _ _ _ (some k) => some k | _ => none
    let give : Op → Option (Nat × Nat × Nat) := fun o => match o.body with | .bgive sl b _ _ (some bo) => some (sl, b, bo) | _ => none
    [opStep (fun o _ s => (to? o).any (fun k => (s.teams.find o.team).any (fun t => (held s t k).any (fun x => (landReady s o x.bank).1)))) (fun o _ s =>
        match to? o, s.teams.find o.team with
        | some k, some t => (match held s t k with
          | some x => landAt (drop (landReady s o x.bank).2 t.pool k) o x.bank x.gcore
          | none => s)
        | _, _ => s),
     opStep (fun o _ s => (give o).any (fun x => (s.ops.find x.2.2).any (fun k => (landReady s k x.2.1).1) && (s.group? o.team o.group).isSome &&
        (s.teams.find o.team).any (fun t => slotDrained s t x.1 x.2.1 o.id none))) (fun o _ s =>
        match give o, s.teams.find o.team, s.group? o.team o.group with
        | some (sl, b, bo), some t, some g => (match s.ops.find bo with
          | some k => (landAt (drop ((landReady s k b).2.onTeam t.id (fun t => t.setSlot sl .detached)) t.pool o.id) k b (t.coreNo g)).completeOp o.id
          | none => s)
        | _, _, _ => s)]
/-- RING_MESSAGE_DELIVERY. -/
def ringMessageDeliveryClaims : List Event :=
    let msg : Op → Option (Word × Nat × List Byte) := fun o => match o.body with
      | .send h _ len (some bs) none => some (h, len, bs)
      | _ => none
    let wordUp : Ring → State → Bool × State := fun r s => match r.sync with | some off => raiseReady s r.team off | none => (true, s)
    let goes : Op → State → Option (Team × Ring × Team × Nat) := fun o s =>
      match msg o, s.teams.find o.team with
      | some (h, len, _), some t =>
        if opHeld s o || sendAhead s o h || (sendRefused s t h len).isSome then none else
        (match ringAt s h with
        | none => none
        | some r => match s.teams.find r.team with
          | none => none
          | some k =>
            let up := wordUp r (s.onRing h (fun r => { r with producer := some t.id }))
            match k.slot (r.base / 32768) with
            | .attached b => if k.phase = .resident ∧ (r.tail - r.head).toNat + len ≤ r.size ∧ up.1 = true ∧ (up.2.wakeBank k.pool b).1 = true then
                some (t, r, k, b) else none
            | _ => none)
      | _, _ => none
    [opStep (fun o _ s => (goes o s).isSome) (fun o _ s => match msg o, goes o s with
        | some (h, len, bs), some (t, r, k, b) =>
          let s1 := ((wordUp r (s.onRing h (fun r => { r with producer := some t.id }))).2.wakeBank k.pool b).2
          let s2 := s1.onBank k.pool b (fun x => x.write s1.clock
            (bs.zipIdx.map (fun x => (r.base % 32768 + (r.tail.toNat + x.2) % r.size, x.1))))
          let s3 := s2.onRing h (fun r => { r with tail := r.tail + BitVec.ofNat 32 len })
          sendOver (match r.sync with
            | some off => (raiseAt s3 r.team off len none).2
            | none => s3) o
        | _, _ => s)]
/-- SEND_REFUSAL. -/
def sendRefusalClaims : List Event :=
    let why : Op → State → Option (Team × Nat) := fun o s => match o.body, s.teams.find o.team with
      | .send h _ len _ no, some t => if opHeld s o || sendAhead s o h then none else (no <|> sendRefused s t h len).map (fun d => (t, d))
      | _, _ => none
    [opStep (fun o _ s => (why o s).isSome) (fun o _ s => match why o s with
        | some (t, d) => sendOver ((s.pairOf t.id).foldl (fun (s : State) i =>
            s.keepLate { o with team := i } { code := 0x11, datum := d, lanes := o.lanes }) s) o
        | none => s),
     opStep (fun o _ s => (why o s).isNone) (fun _ _ s => s)]

/-- A copy that has nothing left to move, and no write of its own under way at the port. -/
def movedAll (s : State) (k : Copy) : Bool :=
  k.todo.isEmpty && k.parts.isEmpty && (k.phase == .active || k.phase == .remote) &&
  !s.links.any (fun l => (l.2.writes ++ l.2.unacked).any (fun w => w.waiter == some k.id))

/-- Its team is resident, or gone. -/
def copyHere (s : State) (k : Copy) : Bool := (s.teams.find k.team).all (fun t => t.phase == .resident)

/-! COPY_TRANSFER, SYNC_WORD_RAISE, COPY_FINISH, REMOTE_OPERATION_TIMEOUT (R322 to R326, R339). -/
/-- COPY_TRANSFER. -/
def copyTransferClaims : List Event :=
    [copyStep (fun k _ s => copyHere s k && k.phase == .queued && mayStart s k) (fun k _ s => s.putCopy { k with phase := .active }),
     copyStep (fun k _ s => copyHere s k && k.phase == .active && !k.todo.isEmpty && !olderStores s k && decide (k.fn < fnPut)) (fun k _ s =>
        let n := s.free.1
        let want := s.free.2.free.1
        let v := k.todo.getD (n % max 1 k.todo.length) (0, 1)
        movePiece s.free.2.free.2 k (v.1 + n / max 1 k.todo.length % max 1 (v.2 - v.1)) v.2 (want % 64 + 1)),
     copyStep (fun k _ s => copyHere s k && k.phase == .active && !k.todo.isEmpty && !olderStores s k && decide (fnPut ≤ k.fn))
      (fun k _ s => sendNext s k),
     copyStep (fun k _ s => !copyHere s k || (k.phase == .queued && !mayStart s k) || (k.phase == .active && (k.todo.isEmpty || olderStores s k)))
      (fun _ _ s => s)]
/-- SYNC_WORD_RAISE. -/
def syncWordRaiseClaims : List Event :=
    let bank : Copy → State → Option Nat := fun k s => match (s.teams.find k.team).map (fun (t : Team) => t.slot (dword k.words 11 / 32768)) with
      | some (.attached b) => some b
      | _ => none
    [copyStep (fun k _ s => swEn k.words && !k.raised && movedAll s k && (bank k s).any (fun b => (s.wakeBank k.cluster b).1)) (fun k _ s =>
        match bank k s with
        | some b => ((raiseAt (s.wakeBank k.cluster b).2 k.team (dword k.words 11) (copyTotal k.fn k.words)
            (if k.code = 0 then none else some k.code)).2).putCopy { k with raised := true }
        | none => s),
     copyStep (fun k _ s => !(swEn k.words && !k.raised && movedAll s k)) (fun _ _ s => s)]
/-- COPY_FINISH. -/
def copyFinishClaims : List Event :=
    [copyStep (fun k _ s => movedAll s k && !(swEn k.words && !k.raised)) (fun k _ s => finishCopy s k),
     copyStep (fun k _ s => !(movedAll s k && !(swEn k.words && !k.raised))) (fun _ _ s => s)]
/-- REMOTE_OPERATION_TIMEOUT. -/
def remoteOperationTimeoutClaims : List Event :=
    let late : Copy → State → Bool := fun k s => decide (fnPut ≤ k.fn) && k.phase != .held && decide (k.since + 450000 ≤ s.clock) &&
      (!k.todo.isEmpty || !k.parts.isEmpty)
    [copyStep (fun k _ s => late k s) (fun k _ s => s.putCopy (k.fail 0x20 1)), copyStep (fun k _ s => !late k s) (fun _ _ s => s)]

/-- A step on a packet of a type. -/
def packetStep (type : Nat) (f : Packet → State → State) : List Event :=
  [{ due := fun e _ => e.packet.any (fun p => p.type == type), effect := fun e s => match e.packet with
      | some p => f p s
      | none => s },
   idleWhen (fun e _ => e.packet.any (fun p => p.type != type))]

/-- A request reaches the port, or the receiving connections perform what waits. -/
def requestStep (type : Nat) : List Event :=
  [{ due := fun e _ => e.packet.any (fun p => p.type == type), effect := fun e s => match e.packet with
      | some p => arrive p s
      | none => s },
   idleWhen (fun e _ => e.packet.any (fun p => p.type != type)),
   { due := fun e _ => e.packet.isNone, effect := fun _ s => s.fabric.conns.foldl serveConn s }]

/-! The GFT packets, their retransmission, keys, and management frames (R331 to R340). -/
/-- GFT_PUT. -/
def gftPutClaims : List Event :=
    requestStep 1
/-- GFT_GET_REQUEST. -/
def gftGetRequestClaims : List Event :=
    requestStep 2
/-- GFT_ATOMIC_REQUEST. -/
def gftAtomicRequestClaims : List Event :=
    requestStep 4
/-- GFT_GET_REPLY. -/
def gftGetReplyClaims : List Event :=
    packetStep 3 (fun p s => answered s p (fun k q s =>
      let va := dpair k.words 2 + BitVec.ofNat 64 (raOffset q.raddr - raOffset (dpair k.words 0))
      if p.data.length ≠ q.len then .error s else
      if !(copyReady s k va q.len).1 then .error (copyReady s k va q.len).2 else
      match copyWriteN (dSpace k.words) 200 (copyReady s k va q.len).2 k va p.data with
      | (.ok _ s, k, _) => .ok (s.putCopy { k with posted := false })
      | (.bad code sub, k, _) => .ok (s.putCopy (k.fail code sub))
      | (r, k, at?) => .error (k.meet (copyReady s k va q.len).2 at? r)))
/-- GFT_ATOMIC_REPLY. -/
def gftAtomicReplyClaims : List Event :=
    packetStep 5 (fun p s => answered s p (fun k _ s => .ok (s.putCopy { k with result := leVal (p.data.take 8) })))
/-- GFT_ACKNOWLEDGEMENT. -/
def gftAcknowledgementClaims : List Event :=
    packetStep 6 (fun p s => answered s p (fun _ _ s => .ok s))
/-- GFT_REFUSAL. -/
def gftRefusalClaims : List Event :=
    packetStep 7 (fun p s => answered s p (fun k _ s => .ok (s.putCopy (k.fail 0x15 (p.info.toNat % 16)))))
/-- GFT_RETRANSMIT. -/
def gftRetransmitClaims : List Event :=
    let late : Subject → State → Option (Packet × Nat × Nat) := fun e s =>
      (s.conn e.a e.b).unacked.find? (fun x => x.1.seq == e.c && decide (x.2.1 + 36000 ≤ s.clock))
    whenDue (fun e s => (late e s).isSome) (fun e s => match late e s with
      | some x =>
        let c := s.conn e.a e.b
        let s1 := s.putConn { c with unacked := c.unacked.map (fun (x : Packet × Nat × Nat) => if x.1.seq = e.c then (x.1, s.clock, x.2.2) else x) }
        { s1 with fabric := { s1.fabric with outbox := s1.fabric.outbox ++ [x.1] } }
      | none => s)
/-- KEY_EPOCH_INSTALL. -/
def keyEpochInstallClaims : List Event :=
    let good : Subject → State → Bool := fun e _ => decide (e.a < 256) && decide (e.c < 2) && decide (e.b < 2 ^ 16) && e.raw.length == 32
    whenDue good (fun e s =>
      let old := s.fabric.owners.find e.a
      let k : OwnerKey := { fowner := e.b, epoch := e.c, key0 := if e.c = 0 then e.raw else (old.map (·.key0)).getD [],
                            key1 := if e.c = 1 then e.raw else (old.map (·.key1)).getD [] }
      { s with fabric := { s.fabric with owners := s.fabric.owners.put e.a k, conns := s.fabric.conns.filter (fun c =>
          !((c.owner == e.a && c.peer == 2 ^ 40 + e.c) || (c.owner == e.b && decide (c.peer < 2 ^ 40) && c.peer % 2 == e.c))) } })
/-- MANAGEMENT_FRAME. -/
def managementFrameClaims : List Event :=
    let good : State → Frame → Bool := fun s f => !(s.fabric.macsec && !f.macsecOk) && decide (f.length ≤ 9216)
    [{ due := fun e s => e.frame.any (fun f => good s f && f.addr == .management), effect := fun e s =>
        { s with fabric := { s.fabric with mgmt := s.fabric.mgmt ++ e.frame.toList } } },
     { due := fun e s => e.frame.any (fun f => good s f && f.addr == .host), effect := fun e s =>
        { s with fabric := { s.fabric with hostRx := s.fabric.hostRx ++ e.frame.toList } } },
     { due := fun e s => e.frame.any (fun f => !good s f || f.addr == .other), effect := fun _ s => s.dropPacket }]

/-! ## Steps without a word: devices, queues, teams, recovery, compare -/

/-- Writes to device space: every part of the write that is of the event's kind takes effect, in the order in which the write names the
parts; a part of another kind does nothing (R345 to R348, R447, R479, R503). -/
def deviceWrite (ks : List DevKind) : List Event :=
  [{ due := fun e s => (devUnits e.bytes).length == 1 && (devUnits e.bytes).all (fun u => decide (qmemBase ≤ u.1) && ks.contains (devKind s u.1 u.2)),
     effect := fun e s => match devUnits e.bytes with
       | u :: _ => unitWrite s u.1 u.2
       | [] => s },
   idleWhen (fun e s => (devUnits e.bytes).length == 1 && !(devUnits e.bytes).all (fun u => decide (qmemBase ≤ u.1) && ks.contains (devKind s u.1 u.2))),
   { due := fun _ _ => true, effect := fun e s => (devUnits e.bytes).foldl (fun s u =>
       if decide (qmemBase ≤ u.1) && ks.contains (devKind s u.1 u.2) then unitWrite s u.1 u.2 else s) s }]

/-- The write is of consecutive bytes from an address on, all within n bytes from a base on. -/
def writes (e : Subject) (a : Nat) (bs : List Byte) (base n : Nat) : Bool :=
  e.bytes == cellsAt a bs && !bs.isEmpty && decide (base ≤ a) && decide (a + bs.length ≤ base + n)

/-- The bytes from a base on after such a write: those that it does not cover keep their value (R503). -/
def patched (base : Nat) (old : List Byte) (a : Nat) (bs : List Byte) : List Byte :=
  old.take (a - base) ++ bs ++ old.drop (a - base + bs.length)

/-! KICK_WRITE, the definitions of contexts and queues, their other writes, the injection port, RES, and registers; a context's
destruction ends when nothing of it is left (R345 to R348, R447, R479, R503). -/
/-- KICK_WRITE (R348): the write takes effect as a kick where it covers bytes 0 to 3 of KICK, is not of a DEV queue, and names a TAIL in
range; any other write of KICK counts as an error, and one of the rest of the control line does nothing. -/
def kickWriteClaims (a : Nat) (bs : List Byte) : List Event :=
    let hit : State → Option (Nat × Queue) := fun s => (s.queues.find? (fun q => q.2.v && decide (0x10000000000 + q.2.base ≤ a) &&
      decide (a < 0x10000000000 + q.2.base + 64 * (1 + 2 ^ q.2.logsize)))).filter (fun q =>
        s.queues.find q.1 == some q.2 && decide (q.2.base % 64 = 0) && decide (q.2.base < 2 ^ 26))
    let line : Queue → Nat := fun q => 0x10000000000 + q.base
    let good : Queue → Bool := fun q => decide (a = line q) && decide (4 ≤ bs.length) && !q.dev && decide (leVal bs < 2 ^ 32) &&
      decide ((leVal bs + 2 ^ 32 - q.head.toNat) % 2 ^ 32 ≤ 2 ^ q.logsize)
    [{ due := fun e s => (hit s).any (fun q => writes e a bs (line q.2) 8 && good q.2), effect := fun _ s => match hit s with
        | some (i, q) => { s with queues := s.queues.put i { q with tail := BitVec.ofNat 32 (leVal bs) } }
        | none => s },
     { due := fun e s => (hit s).any (fun q => writes e a bs (line q.2) 8 && !good q.2), effect := fun _ s =>
        { s with fabric := { s.fabric with errors := s.fabric.errors + 1 } } },
     idleWhen (fun e s => (hit s).any (fun q => writes e a bs (line q.2 + 8) 56))]

/-- The 128 bytes of a context record as they read (R345). -/
def contextRecord (x : Ctx) : List Byte :=
  let flag (b : Bool) (i : Nat) : Nat := if b then 2 ^ i else 0
  bytesLE 8 (flag x.v 0 + flag x.busy 1 + flag x.err 2 + flag x.custom 3 + x.owner * 256) ++ bytesLE 8 x.ptroot ++ bytesLE 8 x.splbase ++
  bytesLE 8 x.splcount ++ bytesLE 8 x.peertab ++ bytesLE 8 x.peercount ++ bytesLE 8 x.fqbase ++ bytesLE 8 x.fqlog ++
  bytesLE 4 x.mdef.toNat ++ bytesLE 4 x.wdcfg.toNat ++ bytesLE 4 x.cmpretry.toNat ++ bytesLE 4 x.phvc ++ List.replicate 48 0

/-- A number of n bytes at an offset. -/
def numAt (r : List Byte) (o n : Nat) : Nat := leVal ((r.drop o).take n)

/-- No field of the record holds a reserved value, and every byte without a field is zero (R345, R103). -/
def recordKeepsLimits (r : List Byte) : Bool :=
  let mdef := numAt r 0x40 4
  let bits (lo n : Nat) : Nat := mdef / 2 ^ lo % 2 ^ n
  decide (numAt r 0 8 / 16 % 16 = 0) && decide (numAt r 0 8 / 2 ^ 16 = 0) && decide (numAt r 0x08 8 % 2048 = 0) &&
  decide (numAt r 0x10 8 % 4096 = 0) && decide (numAt r 0x1C 4 = 0) && decide (numAt r 0x20 8 % 32 = 0) && decide (numAt r 0x28 4 ≤ 4096) &&
  decide (numAt r 0x2C 4 = 0) && decide (numAt r 0x30 8 % 4096 = 0) && decide (6 ≤ numAt r 0x38 4) && decide (numAt r 0x38 4 ≤ 16) &&
  decide (numAt r 0x3C 4 = 0) && decide (bits 23 3 ≤ 4) && decide (bits 20 3 ≤ 5) && decide (bits 17 3 ≤ 5) && decide (bits 14 3 ≤ 5) &&
  decide (bits 11 3 ≤ 5) && decide (bits 9 2 ≤ 2) && decide (bits 0 9 = 0) && decide (bits 26 6 = 0) && decide (numAt r 0x44 4 < 2 ^ 16) &&
  decide (numAt r 0x48 4 < 16) && decide (numAt r 0x4D 51 = 0)

/-- The fields that a record gives a context, with ERR cleared where the write writes 1 there (R345). -/
def recordFields (x : Ctx) (r : List Byte) : Ctx :=
  { x with v := decide (numAt r 0 1 % 2 = 1), err := x.err && decide (numAt r 0 1 / 4 % 2 = 0), custom := decide (numAt r 0 1 / 8 % 2 = 1),
           owner := numAt r 1 1, ptroot := numAt r 0x08 8, splbase := numAt r 0x10 8, splcount := numAt r 0x18 4, peertab := numAt r 0x20 8,
           peercount := numAt r 0x28 4, fqbase := numAt r 0x30 8, fqlog := numAt r 0x38 4, mdef := BitVec.ofNat 32 (numAt r 0x40 4),
           wdcfg := BitVec.ofNat 32 (numAt r 0x44 4), cmpretry := BitVec.ofNat 32 (numAt r 0x48 4), phvc := numAt r 0x4C 1 }

/-- A write to the record of context k of one kind: while BUSY it does nothing; one that breaks a limit sets ERR alone; V = 1 is ignored while
the board and the drawer do not match (R496); else it takes effect as f says of the fields. -/
def recordWrites (k a : Nat) (bs : List Byte) (kind : Ctx → Bool) (f : Ctx → Ctx → State → State) : List Event :=
  let base : Nat := 0x10004020000 + 128 * k
  let r : State → List Byte := fun s =>
    let b := patched base (contextRecord { s.ctx k with err := false, busy := false }) a bs
    (b.headD 0 &&& 0xFD) :: b.tail
  let at? : Subject → State → Bool := fun e s => writes e a bs base 128 && decide (k < 64) && kind (s.ctx k)
  let held : State → Bool := fun s => decide (numAt (r s) 0 1 % 2 = 1) && s.mgmt.mismatch
  [{ due := fun e s => at? e s && !(s.ctx k).busy && recordKeepsLimits (r s) && !held s,
     effect := fun _ s => f (s.ctx k) (recordFields (s.ctx k) (r s)) s },
   { due := fun e s => at? e s && !(s.ctx k).busy && !recordKeepsLimits (r s), effect := fun _ s => s.putCtx k { s.ctx k with err := true } },
   idleWhen (fun e s => at? e s && ((s.ctx k).busy || (recordKeepsLimits (r s) && held s)))]

/-- The write covers CTL's lowest byte and writes V = b there. -/
def setsV (base a : Nat) (bs : List Byte) (b : Bool) : Bool := decide (a = base) && (bs.head?).any (fun x => decide (x.toNat % 2 = 1) == b)

/-- CONTEXT_DEFINE (R345): MDEF, WDCFG and CMPRETRY are taken as written with CUSTOM, and at their reset values without. -/
def contextDefineClaims (k a : Nat) (bs : List Byte) : List Event :=
    recordWrites k a bs (fun x => setsV (0x10004020000 + 128 * k) a bs true && !x.v) (fun _ n s =>
      s.putCtx k (if n.custom then { n with fqseq := 0 } else { n with mdef := 0, wdcfg := 0x0100, cmpretry := 2, fqseq := 0 }))
/-- CONTEXT_DESTROY (R345): V clears and BUSY sets; the context's copies end with COPYERR SUB 4, its held gives are released, its queues
and windows and VCs are undefined, and its teams terminated. -/
def contextDestroyClaims (k a : Nat) (bs : List Byte) : List Event :=
    let taken : State → Give → Bool := fun s x => s.ops.any (fun o => match o.2.body with
      | .bopen _ _ _ _ _ (some i) => i == x.op
      | _ => false)
    recordWrites k a bs (fun x => setsV (0x10004020000 + 128 * k) a bs false && x.v) (fun _ n s =>
      let s1 : State := (s.putCtx k { n with v := true }).putCtx k { n with busy := true }
      let s2 : State := { s1 with copies := s1.copies.map (fun (x : Nat × Copy) => (x.1, if x.2.ctx = k ∧ x.2.phase ≠ CopyPhase.finished then
        { x.2 with todo := [], parts := [], phase := .active, code := if x.2.code = 0 then 0x20 else x.2.code,
                   sub := if x.2.code = 0 then 4 else x.2.sub } else x.2)) }
      let s3 : State := s2.clusters.foldl (fun (s : State) (x : Nat × Cluster) =>
        let held := x.2.gives.filter (fun (g : Give) => g.ctx == k && !taken s g)
        let freed : State := held.foldl (fun (s : State) (g : Give) => if g.landed then s.releaseBank x.1 g.bank else s) s
        freed.putCluster x.1 { freed.cluster x.1 with gives := (freed.cluster x.1).gives.filter (fun (g : Give) => !held.contains g) }) s2
      let s4 : State := { s3 with queues := s3.queues.map (fun (q : Nat × Queue) => (q.1, if q.2.v && q.2.ctx == k then
        { q.2 with v := false, started := (q.2.started.filter (fun (x : Started) => x.kind == 1 && x.result.isNone)).map (fun (x : Started) =>
            { x with index := x.index + 2 ^ 32, inc := 0, flags := 0, status := 0 }) } else q.2)) }
      let s5 : State := (s4.fabric.windows.filter (fun (w : Nat × Window) => w.2.valid && w.2.ctx == k)).foldl (fun (s : State) w =>
        { s with fabric := { s.fabric with windows := s.fabric.windows.adjust w.1 (fun (x : Window) =>
          { x with valid := false, gen := (x.gen + 1) % 256, revoked := some (s.now / 25) }) } }) s4
      let s6 : State := (s5.vcs.filter (fun (v : Nat × Vc) => v.2.ctx == k)).foldl (fun (s : State) v => s.hiddenOp (2 ^ 40) (.vcundef v.1)) s5
      ((s6.teams.filter (fun (x : Nat × Team) => x.2.ctx == k)).map (·.1)).foldl terminateTeam s6)
/-- CONTEXT_RECORD_WRITE (R345): a write that leaves V as it is. -/
def contextRecordWriteClaims (k a : Nat) (bs : List Byte) : List Event :=
    recordWrites k a bs (fun x => decide (a ≠ 0x10004020000 + 128 * k) || setsV (0x10004020000 + 128 * k) a bs x.v) (fun _ n s => s.putCtx k n)

/-- The 32 bytes of a queue's entry as they read (R347). -/
def queueEntryBytes (q : Queue) : List Byte :=
  let flag (b : Bool) (i : Nat) : Nat := if b then 2 ^ i else 0
  bytesLE 4 (flag q.v 0 + flag q.dev 1 + flag q.stopped 2 + q.prio * 2 ^ 3 + q.ctx * 2 ^ 6 + q.diemask * 2 ^ 12) ++ bytesLE 4 q.logsize ++
  bytesLE 8 q.base ++ bytesLE 4 q.errcode.toNat ++ List.replicate 12 0

/-- The fields that an entry gives a queue, with STOPPED cleared where the write writes 1 there (R347). -/
def entryFields (q : Queue) (r : List Byte) : Queue :=
  let bits (lo n : Nat) : Nat := numAt r 0 4 / 2 ^ lo % 2 ^ n
  { q with v := decide (bits 0 1 = 1), dev := decide (bits 1 1 = 1), stopped := q.stopped && decide (bits 2 1 = 0), prio := bits 3 3,
           ctx := bits 6 6, diemask := bits 12 8, logsize := numAt r 4 4 % 32, base := numAt r 8 8 }

/-- A write to the entry of queue i of one kind, with what it makes of the queue. -/
def entryWrites (i a : Nat) (bs : List Byte) (kind : Queue → Bool) (f : List Byte → Queue → Queue → State → Option Queue) : List Event :=
  let base : Nat := 0x10004000000 + 32 * i
  let q : State → Queue := fun s => (s.queues.find i).getD Queue.reset
  let r : State → List Byte := fun s => patched base (queueEntryBytes { q s with stopped := false }) a bs
  let at? : Subject → State → Bool := fun e s => writes e a bs base 32 && decide (i < 4096) && kind (q s)
  let new : State → Option Queue := fun s => f (r s) (q s) (entryFields (q s) (r s)) s
  [{ due := fun e s => at? e s && (new s).isSome, effect := fun _ s => match new s with
      | some x => { s with queues := s.queues.put i x }
      | none => s },
   idleWhen (fun e s => at? e s && (new s).isNone)]

/-- QUEUE_DEFINE (R347): HEAD, TAIL and COUNTER are zero; a definition that breaks a limit, names a context that is not defined, or
overlaps another queue's region is ignored. -/
def queueDefineClaims (i a : Nat) (bs : List Byte) : List Event :=
    let region : Queue → Nat := fun q => 64 * (1 + 2 ^ q.logsize)
    entryWrites i a bs (fun q => setsV (0x10004000000 + 32 * i) a bs true && !q.v) (fun r _ n s =>
      if decide (numAt r 0 4 / 2 ^ 20 = 0) && decide (2 ≤ numAt r 4 4) && decide (numAt r 4 4 ≤ 16) && decide (n.base % 64 = 0) &&
         decide (n.base + region n ≤ 2 ^ 26) && decide (numAt r 0x14 12 = 0) && (s.ctx n.ctx).v &&
         s.queues.all (fun o => decide (o.1 = i) || !o.2.v || decide (o.2.base + region o.2 ≤ n.base) || decide (n.base + region n ≤ o.2.base)) then
        some { n with head := 0, tail := 0, counter := 0 }
      else none)
/-- QUEUE_UNDEFINE (R347): the records that have started grids go on, and count nowhere. -/
def queueUndefineClaims (i a : Nat) (bs : List Byte) : List Event :=
    entryWrites i a bs (fun q => setsV (0x10004000000 + 32 * i) a bs false && q.v) (fun _ _ n _ =>
      some { n with started := (n.started.filter (fun (x : Started) => x.kind == 1 && x.result.isNone)).map (fun (x : Started) =>
        { x with index := x.index + 2 ^ 32, inc := 0, flags := 0, status := 0 }) })
/-- QUEUE_ENTRY_WRITE (R347): of a defined queue only PRIO and DIEMASK change, and STOPPED clears; a write that changes DEV, CTX, LOGSIZE or
BASE is ignored. -/
def queueEntryWriteClaims (i a : Nat) (bs : List Byte) : List Event :=
    entryWrites i a bs (fun q => decide (a ≠ 0x10004000000 + 32 * i) || setsV (0x10004000000 + 32 * i) a bs q.v) (fun r q n _ =>
      if !q.v then some n
      else if decide (n.dev = q.dev) && decide (n.ctx = q.ctx) && decide (numAt r 4 4 = q.logsize) && decide (n.base = q.base) then
        some { q with prio := n.prio, diemask := n.diemask, stopped := n.stopped }
      else none)

/-- INJECTION_PORT_WRITE (R447, R445): HANDLE, GROUP and CTX take their bytes; one aligned write of four bytes of VALUE is refused, waits for the next
team of its name, finds no group, or arms the group in each of its team's copies; a narrower one and one of STATUS do nothing. -/
def injectionPortWriteClaims (a : Nat) (bs : List Byte) : List Event :=
    let port : Nat := 0x10020020000
    let v : Nat := leVal bs
    let refused : Nat → Bool := fun protect => decide (v / 2 ^ 29 % 4 = 3) || decide (v / 2 ^ 27 % 4 = 3) ||
      (decide (protect = 0) && decide (v / 2 ^ 29 % 4 ≠ 0))
    let w : Word := BitVec.ofNat 32 (v / 2 ^ 27 * 2 ^ 27 + v / 2 ^ 8 % 2 ^ 13 * 2 ^ 8 + v % 2 ^ 6)
    let next : State → Bool := fun s => decide (s.inject.handle.toNat / 2 ^ 20 = 0xFFF)
    let team : State → Option (Nat × Team) := fun s => s.teams.find? (fun x => x.2.handle == s.inject.handle && (x.2.group? s.inject.group).isSome)
    let value : Subject → Bool := fun e => writes e a bs (port + 8) 4 && decide (bs.length = 4)
    [{ due := fun e _ => writes e a bs port 4, effect := fun _ s =>
        { s with inject := { s.inject with handle := BitVec.ofNat 32 (leVal (patched port (bytesLE 4 s.inject.handle.toNat) a bs)) } } },
     { due := fun e _ => writes e a bs (port + 4) 4, effect := fun _ s =>
        let n := leVal (patched (port + 4) (bytesLE 4 (s.inject.group + s.inject.ctx * 2 ^ 16)) a bs)
        { s with inject := { s.inject with group := n % 2 ^ 16, ctx := n / 2 ^ 16 % 64 } } },
     { due := fun e s => value e && next s && !refused 1, effect := fun _ s =>
        let x := (s.inject.ctx % 64, s.inject.handle.toNat % 2 ^ 20, s.inject.group, w)
        { s with inject := { s.inject with status := 1, pending := s.inject.pending ++ [x] } } },
     { due := fun e s => value e && !next s && (team s).any (fun x => !refused x.2.desc.protect), effect := fun _ s => match team s with
        | some x => { s with inject := { s.inject with status := 1, armed := s.inject.armed ++ (s.pairOf x.1).map (fun i => (i, s.inject.group, w)) } }
        | none => s },
     { due := fun e s => value e && !next s && (team s).isNone, effect := fun _ s => { s with inject := { s.inject with status := 2 } } },
     { due := fun e s => value e && (if next s then refused 1 else (team s).any (fun x => refused x.2.desc.protect)), effect := fun _ s =>
        { s with inject := { s.inject with status := 3 } } },
     idleWhen (fun e _ => writes e a bs (port + 8) 4 && decide (bs.length < 4)),
     idleWhen (fun e _ => writes e a bs (port + 12) 4)]

/-- CLSRES_WRITE (R479): RES of a class changes where neither it nor the sum of all exceeds 1,024, and else ERR is set; ERR of LGCTL clears where 1
is written; the rest of the block is reserved. -/
def clsresWriteClaims (g c a : Nat) (bs : List Byte) : List Event :=
    let block : Nat := 0x10010000000 + 0x10000 * g
    let reg : Nat := block + 0x100 + 4 * c
    let res : State → Nat := fun s => leVal (patched reg (bytesLE 4 ((s.link g).res.getD c 0)) a bs) % 2 ^ 11
    let new : State → Map Nat := fun s => (s.link g).res.setD c (res s) 0
    let fits : State → Bool := fun s => decide (res s ≤ 1024) && decide ((new s).foldl (fun n x => n + x.2) 0 ≤ 1024)
    let at? : Subject → Bool := fun e => decide (g < 8) && decide (c < 64) && writes e a bs reg 4
    [{ due := fun e s => at? e && fits s, effect := fun _ s => s.putLink g { s.link g with res := new s } },
     { due := fun e s => at? e && !fits s, effect := fun _ s => s.putLink g { s.link g with err := true } },
     { due := fun e _ => decide (g < 8) && writes e a bs block 4 && setsV block a bs true, effect := fun _ s => s.putLink g { s.link g with err := false } },
     idleWhen (fun e _ => decide (g < 8) && writes e a bs block 4 && !setsV block a bs true),
     idleWhen (fun e _ => decide (g < 8) && decide (block + 4 ≤ a) && decide (a < block + 0x100 ∨ block + 0x200 ≤ a) && decide (a < block + 0x10000) && writes e a bs (a / 4 * 4) 4)]

/-- REGISTER_WRITE (R503), by register: LECTL (R346), BSRET, CLWD, CECLUS and CECORE of a cluster (R267, R493, R454), SLRET and CESLICE of a slice
(R286), CESTACK, CCWD and FQLOST (R494, R491); a reserved place takes nothing; a byte of queue memory that no control line covers takes what is written. -/
def registerWriteClaims (k j a : Nat) (bs : List Byte) : List Event :=
    let cl : Nat := 0x10020000000 + 256 * k
    let sl : Nat := 0x10020010000 + 256 * k
    let new : Nat → Nat → Nat := fun reg old => leVal (patched reg (bytesLE 4 old) a bs)
    let line : State → Bool := fun s => match s.queues.find? (fun q => q.2.v && decide (q.2.base ≤ a / 8 * 8 - 0x10000000000) &&
        decide (a / 8 * 8 - 0x10000000000 < q.2.base + 64 * (1 + 2 ^ q.2.logsize))) with
      | some q => decide (a / 8 * 8 - 0x10000000000 - q.2.base < 64)
      | none => false
    [{ due := fun e _ => writes e a bs 0x10004022000 4, effect := fun _ s => { s with susplim := new 0x10004022000 s.susplim % 2 ^ 16 } },
     { due := fun e _ => decide (k < 224) && writes e a bs cl 4, effect := fun _ s =>
        s.putCluster k { s.cluster k with bsret := BitVec.ofNat 32 (new cl (s.cluster k).bsret.toNat % 2 ^ 17) } },
     { due := fun e _ => decide (k < 224) && writes e a bs (cl + 4) 4, effect := fun _ s =>
        let trip : Bool := (s.cluster k).clwd.getLsbD 16 && !natBit (leVal (patched (cl + 4) [0, 0, 0, 0] a bs)) 16
        let n := new (cl + 4) (s.cluster k).clwd.toNat % 2 ^ 16 + if trip then 2 ^ 16 else 0
        (s.putCluster k { s.cluster k with clwd := BitVec.ofNat 32 n }).watchCommand (k / 28) },
     { due := fun e _ => decide (k < 224) && writes e a bs (cl + 8) 4, effect := fun _ s =>
        s.putCluster k { s.cluster k with ceclus := BitVec.ofNat 32 (new (cl + 8) (s.cluster k).ceclus.toNat % 2 ^ 16) } },
     { due := fun e _ => decide (k < 224) && decide (j < 8) && writes e a bs (cl + 0x20 + 4 * j) 4, effect := fun _ s =>
        let n : Word := BitVec.ofNat 32 (new (cl + 0x20 + 4 * j) ((s.cluster k).cecore.getD j 0).toNat % 2 ^ 16)
        s.putCluster k { s.cluster k with cecore := (s.cluster k).cecore.setD j n 0 } },
     { due := fun e _ => decide (k < 128) && writes e a bs sl 4, effect := fun _ s =>
        { s with slret := s.slret.setD k (BitVec.ofNat 32 (new sl (s.slret.getD k 0x00010100).toNat % 2 ^ 17)) 0x00010100 } },
     { due := fun e _ => decide (k < 128) && writes e a bs (sl + 4) 4, effect := fun _ s =>
        { s with ceslice := s.ceslice.setD k (BitVec.ofNat 32 (new (sl + 4) (s.ceslice.getD k 0).toNat % 2 ^ 16)) 0 } },
     { due := fun e _ => decide (j < 12) && writes e a bs (0x10020021000 + 4 * j) 4, effect := fun _ s =>
        let n : Word := BitVec.ofNat 32 (new (0x10020021000 + 4 * j) (s.drawer.cestack.getD j 0).toNat % 2 ^ 16)
        { s with drawer := { s.drawer with cestack := s.drawer.cestack.setD j n 0 } } },
     { due := fun e _ => decide (j < 8) && writes e a bs (0x10020022000 + 4 * j) 4, effect := fun _ s =>
        { s with ccwd := s.ccwd.setD j (BitVec.ofNat 32 (new (0x10020022000 + 4 * j) (s.ccwd.getD j 0x0400).toNat % 2 ^ 16)) 0x0400 } },
     { due := fun e _ => decide (j < 64) && writes e a bs (0x10020023000 + 4 * j) 4, effect := fun _ s =>
        s.putCtx j { s.ctx j with fqlost := new (0x10020023000 + 4 * j) (s.ctx j).fqlost % 2 ^ 32 } },
     idleWhen (fun e _ => decide (k < 224) && decide (3 ≤ j) && decide (j < 64) && decide (j < 8 ∨ 16 ≤ j) && writes e a bs (cl + 4 * j) 4),
     { due := fun e s => writes e a bs (a / 8 * 8) 8 && decide (0x10000000000 ≤ a) && decide (a < 0x10000000000 + 2 ^ 26) && !line s, effect := fun _ s =>
        { s with qmem := Memory.writeAll s.qmem (cellsAt (a - 0x10000000000) bs) } }]
/-- CONTEXT_DESTRUCTION_DONE. -/
def contextDestructionDoneClaims : List Event :=
    whenDue (fun e s => (s.ctx e.a).busy && !s.teams.any (fun t => t.2.ctx == e.a) &&
        !s.copies.any (fun k => k.2.ctx == e.a && k.2.phase != .finished) && !s.vcs.any (fun v => v.2.ctx == e.a) &&
        !s.fabric.windows.any (fun w => w.2.ctx == e.a && !w.2.accepted.isEmpty))
      (fun e s => s.putCtx e.a { s.ctx e.a with busy := false })

/-- A step about the record at the HEAD of the queue that its subject names (R350). -/
def recordStep (p : Queue → CmdRecord → Subject → State → Bool) (f : Queue → CmdRecord → Subject → State → State) : Event :=
  { due := fun e s => (s.queues.find e.a).any (fun q => canStart q (headRecord s q) && p q (headRecord s q) e s)
    effect := fun e s => match s.queues.find e.a with
      | some q => f q (headRecord s q) e s
      | none => s }

/-- The record at HEAD starts and its outcome is a status word. -/
def refused (s : State) (e : Subject) (r : CmdRecord) (w : Nat) : State := startRecord s e.a r 0 0 (some w)

/-- What a record event does beside its own effect: a malformed record completes with code 1 and the offset, one whose status address
fails with code 6, and a record that may not start, or of another kind, waits (R350, R351). -/
def recordCommon (mine : Nat → Bool) : List Event :=
  [recordStep (fun _ r _ _ => mine r.kind && r.bad.isSome) (fun _ r e s => refused s e r (statusWord 0 0 (r.bad.getD 0) 1)),
   recordStep (fun q r _ s => mine r.kind && r.bad.isNone && !statusOk s q.ctx r)
     (fun _ r e s => refused s e { r with status := 0 } (statusWord 0 0 0 6)),
   idleWhen (fun e s => (s.queues.find e.a).all (fun q => !(mine (headRecord s q).kind && canStart q (headRecord s q))))]

/-- A record that may go on: well-formed, with a status address that can be written. -/
def goodRecord (s : State) (q : Queue) (r : CmdRecord) : Bool := r.bad.isNone && statusOk s q.ctx r

/-! NOP, LAUNCH, WAIT and LOAD records, and their completion (R349 to R352, R118). -/
/-- NOP_RECORD. -/
def nopRecordClaims : List Event :=
    recordStep (fun q r _ s => r.kind == 0 && goodRecord s q r) (fun _ r e s => refused s e r 0) ::
    recordCommon (fun k => k == 0 || decide (3 < k))
/-- WAIT_RECORD. -/
def waitRecordClaims : List Event :=
    [recordStep (fun q r _ s => r.kind == 2 && goodRecord s q r && (s.queue r.wqueue).v && (s.queue r.wqueue).ctx == q.ctx)
      (fun _ r e s => startRecord s e.a r r.arg0 0 none),
     recordStep (fun q r _ s => r.kind == 2 && goodRecord s q r && !((s.queue r.wqueue).v && (s.queue r.wqueue).ctx == q.ctx))
      (fun _ r e s => refused s e r (statusWord 0 0 0 8))] ++ recordCommon (fun k => k == 2)
/-- LAUNCH_RECORD. -/
def launchRecordClaims : List Event :=
    let read : Queue → CmdRecord → State → Option (List Byte × State) := fun q r s =>
      match (globalReadN 8 s q.ctx (BitVec.ofNat 64 r.arg0) 256).1 with
      | .ok bs s => some (bs, s)
      | _ => none
    let probe : List Byte → Queue → Subject → Team := fun bs q e =>
      newTeam (Desc.fromBytes bs) 0 0 0 q.ctx e.a 0 (if (Desc.fromBytes bs).protect = 2 then .leading else .only) none
    let fits : List Byte → Queue → Subject → State → Bool := fun bs q e s => fitsEmpty (probe bs q e) ((probe bs q e).candidates s false)
    let handle : State → Option Nat := fun s => (List.range 4096).find? (fun h => (s.grids.find h).isNone)
    [recordStep (fun q r e s => r.kind == 1 && goodRecord s q r && (read q r s).any (fun x => (descFault x.1).isNone && fits x.1 q e x.2 &&
        (handle x.2).isSome)) (fun q r e s => match read q r s with
        | some (bs, s1) => startGrid (startRecord s1 e.a r 0 ((handle s1).getD 0) none) (Desc.fromBytes bs) ((handle s1).getD 0) q.ctx e.a q.head.toNat
        | none => s),
     recordStep (fun q r _ s => r.kind == 1 && goodRecord s q r && (read q r s).any (fun x => (descFault x.1).isSome))
      (fun q r e s => match read q r s with
        | some (bs, s1) => refused s1 e r (statusWord 0 0 ((descFault bs).getD (0, 0)).2 ((descFault bs).getD (0, 0)).1)
        | none => s),
     recordStep (fun q r e s => r.kind == 1 && goodRecord s q r && (read q r s).any (fun x => (descFault x.1).isNone && !fits x.1 q e x.2))
      (fun q r e s => match read q r s with
        | some (_, s1) => refused s1 e r (statusWord 0 0 0 4)
        | none => s)] ++ recordCommon (fun k => k == 1)
/-- LOAD_RECORD. -/
def loadRecordClaims : List Event :=
    let image : Queue → CmdRecord → State → Option (List Byte × State) := fun q r s =>
      match readImage s q.ctx (BitVec.ofNat 64 r.arg0) with
      | .ok b s => some (b, s)
      | _ => none
    let kept : List Byte → Queue → State → Option (List Byte) := fun b q s =>
      (s.images.find? (fun x => x.1 == (Tvf.ofBytes b).hash && x.2.1 == q.ctx)).map (fun x => x.2.2)
    let code : Nat → Subject → CmdRecord → State → State := fun k e r s => refused s e r (statusWord 0 0 0 k)
    let finalised : List Byte → Queue → CmdRecord → Subject → State → State := fun b q r e s =>
      match (Tvf.ofBytes ((kept b q s).getD b)).native r.arg1 with
      | .error k => code k e r s
      | .ok (n, count) =>
        if r.arg2 < n.length then code 0x24 e r s else
        match (globalWriteN (n.length / 64 + 2) s q.ctx (BitVec.ofNat 64 r.arg1) n).1 with
        | .ok _ s1 => refused (if (kept b q s).isSome then s1 else { s1 with images := s1.images ++ [((Tvf.ofBytes b).hash, q.ctx, b)] }) e r
            (statusWord count 0 0 0)
        | .page _ => code 6 e r s
        | .bad _ _ => code 6 e r s
        | .wait s1 => s1
        | .stall _ => s
    [recordStep (fun q r _ s => r.kind == 3 && goodRecord s q r && decide (r.arg1 % 256 = 0) && (image q r s).isSome)
      (fun q r e s => match image q r s with
        | some (b, s1) => if b.isEmpty || !(Tvf.ofBytes b).hashOk then code 0x20 e r s1 else finalised b q r e s1
        | none => s),
     recordStep (fun q r _ s => r.kind == 3 && goodRecord s q r && decide (r.arg1 % 256 ≠ 0)) (fun _ r e s => code 0x25 e r s)] ++
    recordCommon (fun k => k == 3)
/-- COMMAND_RECORD_COMPLETE. -/
def commandRecordCompleteClaims : List Event :=
    let rec? : Subject → State → Option Started := fun e s => (s.queue e.a).started.find? (fun r => r.index == e.b)
    let done : Subject → State → Option (Started × Nat × State) := fun e s =>
      (rec? e s).bind (fun r => (recordResult s r).bind (fun x => (writeStatus x.2 (s.queue e.a).ctx r.status x.1).map (fun s1 => (r, x.1, s1))))
    [{ due := fun e s => (done e s).isSome, effect := fun e s => match done e s with
        | some (r, w, s1) =>
          let q := s1.queue e.a
          let stop := (s.queue e.a).v && decide (r.index < 2 ^ 32) && (w % 256 == 1 || (natBit r.flags 1 && w % 256 != 0))
          s1.putQueue e.a { q with started := q.started.filter (fun k => k.index != e.b), counter := (q.counter + r.inc) % 2 ^ 64,
                                   stopped := q.stopped || stop,
                                   errcode := if stop then BitVec.ofNat 32 (w % 256 + 256 * (r.index % 2 ^ 24)) else q.errcode }
        | none => s },
     idleWhen (fun e s => (done e s).isNone)]

/-- The gangs of listed groups end their wait at a barrier, and each of the groups passes an acq-rel fence at team scope (R61, R177). -/
def barrierEnds (s : State) (t : Team) (gs : List Nat) (p : Wait → Bool) : State := passBarrier s t gs p

/-- A copy of a team whose groups have all retired and whose copies are finished (R175). -/
def teamOver (s : State) (t : Team) : Bool :=
  t.phase == .resident && t.groups.all (·.retired) && s.copies.all (fun k => k.2.team != t.id || k.2.phase == .finished)

/-- The site that a TEAM_PLACEMENT names. -/
def siteOf (t : Team) (e : Subject) : Site :=
  if t.copy ≠ .only then ⟨e.b, [8 * e.b + e.c % 8], [8 * e.b + e.c / 8 % 8]⟩
  else if e.flag then ⟨e.b, [8 * e.b + e.c % 8 / 2 * 2, 8 * e.b + e.c % 8 / 2 * 2 + 1], []⟩
  else ⟨e.b, [8 * e.b + e.c % 8], []⟩

/-! TEAM_PLACEMENT, GROUP_RETIRE, TEAM_RETIRE, GROW_DEADLOCK_EVICTION, SLEEP_EXPIRY, the watchdogs, SUSPENSION_LIMIT_EXPIRY,
RING_CLUSTER_WAIT_TIMEOUT, the barriers (R175 to R184, R192, R353, R354, R362, R363, R493, R494). -/
/-- TEAM_PLACEMENT. -/
def teamPlacementClaims : List Event :=
    let due : Team → Subject → State → Bool := fun t e s => t.wants && decide (e.b < 224) && firstInList s t (e.b / 28) &&
      !(e.flag && t.copy == .only && fitsSingle s t (e.b / 28) (t.takesEnlarged s))
    [teamStep (fun t e s => due t e s && (placeLoaded s t (siteOf t e)).isSome) (fun t e s => (placeLoaded s t (siteOf t e)).getD s),
     teamStep (fun t e s => !(due t e s && (placeLoaded s t (siteOf t e)).isSome)) (fun _ _ s => s)]
/-- GROUP_RETIRE. -/
def groupRetireClaims : List Event :=
    [groupStep (fun t g _ s => g.isOver s t && g.late.isEmpty) (fun t g _ s => s.onTeam t.id (fun x => retireGroup x g.id)),
     groupStep (fun t g _ s => g.isOver s t && !g.late.isEmpty) (fun t g _ s => match g.late with
        | r :: rest => terminateTeam (postTeam (s.onGroup t.id g.id (fun x => { x with late := rest })) t 0 r) t.id
        | [] => s),
     groupStep (fun t g _ s => !g.isOver s t) (fun _ _ _ s => s)]
/-- TEAM_RETIRE. -/
def teamRetireClaims : List Event :=
    let over? : Team → State → Bool := fun t s => t.copy != .trailing && (s.pairOf t.id).all (fun i => (s.teams.find i).all (teamOver s))
    [teamStep (fun t _ s => over? t s) (fun t _ s => removeTeam ((s.pairOf t.id).foldl (fun (s : State) i => freeStorage s i .evicted) s) t.id false),
     teamStep (fun t _ s => !over? t s) (fun _ _ s => s)]
/-- GROW_DEADLOCK_EVICTION. -/
def growDeadlockEvictionClaims : List Event :=
    let gs : Subject → State → List (Team × Group) := fun e s => halfGroups s e.a e.b
    let asking : Subject → State → List (Team × Group) := fun e s => (gs e s).filter (fun x => x.2.asks.isSome)
    let stuck : Subject → State → Bool := fun e s => (gs e s).all (fun x => growBlocked x.1 x.2 && !x.1.suspended && !x.1.command && x.1.fail.isNone) &&
      (asking e s).all (fun x => !waitReady s x.1 x.2 (.grow (x.2.asks.getD 0)))
    let victim : Subject → State → Option Team := fun e s => if (asking e s).isEmpty then none else (oldestOf (gs e s)).map (fun old =>
      ((youngestOf ((gs e s).filter (fun x => !(s.pairOf old.1.id).contains x.1.id))).map (·.1)).getD old.1)
    [{ due := fun e s => stuck e s && (victim e s).isSome, effect := fun e s => match victim e s with
        | some t => (pauseTeam ((s.pairOf t.id).foldl (fun (s : State) i => s.onTeam i (fun t => { t with evictReq := true })) s) t.id).hiddenOp t.id
            (.evict t.id 512 false)
        | none => s },
     idleWhen (fun e s => !(stuck e s && (victim e s).isSome))]
/-- SLEEP_EXPIRY. -/
def sleepExpiryClaims : List Event :=
    let due : Team → Group → Subject → State → Option (Gang × Nat) := fun t g e s => match g.gang? e.c with
      | some k => (match k.wait with
        | .sleep n => if t.phase = .resident ∧ (if t.suspended then catchesUp s t g && decide (t.suspendedAt + n ≤ s.clock)
            else decide (n ≤ s.clock)) = true then some (k, n) else none
        | _ => none)
      | none => none
    [groupStep (fun t g e s => (due t g e s).isSome) (fun t g e s => match due t g e s with
        | some (k, _) => s.finishWord t.id g.id k.id
        | none => s),
     groupStep (fun t g e s => (due t g e s).isNone) (fun _ _ _ s => s)]
/-- GROUP_WATCHDOG_EXPIRY. -/
def groupWatchdogExpiryClaims : List Event :=
    let limit : Group → Nat := fun g => natBits g.wdcfg.toNat 0 16
    let due : Team → Group → Bool := fun t g => watched t g && limit g != 0 &&
      decide (limit g * 4096 * 25 ≤ g.idle) && !g.gangs.isEmpty
    let cur : Team → Group → Cur := fun t g =>
      let k := g.gangs.headD (Gang.new 0 0)
      let pc := match g.nextUnits k with
        | some (a, _) => a
        | none => (match g.units with | u :: _ => u.2.2.pc | [] => 0)
      { team := t.id, group := g.id, gang := k.id, units := [], lanes := g.unfinished, addr := pc, word := 0 }
    let taken : Team → Group → State → State := fun t g s =>
      takeFault (s.onGroup t.id g.id (fun x => { x with idle := 0 })) (cur t g) (g.gangs.headD (Gang.new 0 0)).run.isSome
        { code := 0x1E, lanes := g.unfinished }
    [groupStep (fun t g _ _ => due t g && t.command) (fun t g _ s => taken t g s),
     groupStep (fun t g _ _ => due t g && !t.command) (fun t g _ s =>
        let s1 := taken t g s
        let cl := s1.cluster t.cluster
        let n := min 255 (natBits cl.clwd.toNat 8 8 + 1)
        s1.putCluster t.cluster { cl with clwd := (cl.clwd &&& 0xFFFF00FF) ||| BitVec.ofNat 32 (n * 256) }),
     groupStep (fun t g _ _ => !due t g) (fun _ _ _ s => s)]
/-- CLUSTER_WATCHDOG_FIRE. -/
def clusterWatchdogFireClaims : List Event :=
    let w : Subject → State → Word := fun e s => (s.cluster e.a).clwd
    let due : Subject → State → Bool := fun e s => decide (e.a < 224) && decide (natBits (w e s).toNat 0 8 ≠ 0) && !(w e s).getLsbD 16 &&
      decide (natBits (w e s).toNat 0 8 ≤ natBits (w e s).toNat 8 8)
    whenDue due (fun e s =>
      let s1 := shutDoor s e.a (if (s.cluster e.a).door = .offline then .offline else .closed)
      let cl := s1.cluster e.a
      post ((s1.putCluster e.a { cl with clwd := w e s ||| 0x10000 }).watchCommand (e.a / 28)) 0 5 0xFFFFFFFF (e.a / 28) (moduleRecord 0x1E e.a))
/-- COMMAND_CORE_WATCHDOG_EXPIRY. -/
def commandCoreWatchdogExpiryClaims : List Event :=
    let limit : Subject → State → Nat := fun e s => (s.ccwd.getD e.a 0x0400).toNat % 2 ^ 16
    let due : Subject → State → Bool := fun e s => limit e s != 0 && (s.mgmt.ccount.find e.a).any (fun n => decide (n + limit e s * 65536 ≤ s.clock))
    let cleared : Subject → State → State := fun e s =>
      let s1 := resetCommand s e.a
      { s1 with clusters := s1.clusters.map (fun (c : Nat × Cluster) =>
          if c.1 < 224 ∧ c.1 / 28 = e.a then (c.1, { c.2 with clwd := c.2.clwd &&& 0xFFFEFFFF }) else c) }
    [{ due := fun e s => due e s && (cleared e s).mgmt.marigold.isSome, effect := fun e s => startCommand (cleared e s) e.a (cleared e s).mgmt.entry },
     { due := fun e s => due e s && (cleared e s).mgmt.marigold.isNone, effect := cleared },
     idleWhen (fun e s => !due e s)]
/-- SUSPENSION_LIMIT_EXPIRY. -/
def suspensionLimitExpiryClaims : List Event :=
    let due : Team → State → Bool := fun t s => t.phase == .resident && t.suspended && decide (t.suspendedAt + suspLimit s ≤ s.clock) &&
      !s.ops.any (fun o => match o.2.body with | .evict k _ _ => (s.pairOf t.id).contains k | _ => false)
    [teamStep (fun t _ s => due t s) (fun t _ s => resumeTeam s t.id), teamStep (fun t _ s => !due t s) (fun _ _ s => s)]
/-- RING_CLUSTER_WAIT_TIMEOUT. -/
def ringClusterWaitTimeoutClaims : List Event :=
    let gone : Team → State → List Nat := fun t s => (ringClusters s t.id).filter (fun k => (s.cluster k).door == .offline ||
      ((s.cluster k).door != .opened && decide (t.waitSince + suspLimit s ≤ s.clock)))
    [teamStep (fun t _ _ => t.phase == .evicted) (fun t _ s => (gone t s).foldl (fun (s : State) k => dropRingsIn s t.id k) s),
     teamStep (fun t _ _ => t.phase != .evicted) (fun _ _ s => s)]
/-- BARRIER_COMPLETE. -/
def barrierCompleteClaims : List Event :=
    let gs : Team → List Nat := fun t => (t.groups.filter (fun g => !g.retired)).map (·.id)
    let due : Team → State → Bool := fun t s => !(gs t).isEmpty && t.groups.all (fun g => g.retired || g.allWait Wait.atBar) && t.fail.isNone &&
      releasedAll s t (gs t)
    [teamStep (fun t _ s => due t s) (fun t _ s => barrierEnds s t (gs t) Wait.atBar), teamStep (fun t _ s => !due t s) (fun _ _ s => s)]
/-- BARP_GENERATION_COMPLETE. -/
def barpGenerationCompleteClaims : List Event :=
    let late : Team → Subject → Option (Group × Gang × Nat) := fun t e => if t.fail.isSome then none else t.lateArrival e.b
    let complete : Team → Subject → Option (Nat × List Nat) := fun t e =>
      if t.fail.isSome ∨ (t.lateArrival e.b).isSome then none else (t.barp e.b).closed.head?
    let stands : Team → Group → Gang → Cur := fun t g k =>
      { team := t.id, group := g.id, gang := k.id, units := [], word := 0
        lanes := g.unitLanes ((g.gangUnits k.id).map (fun u => (u.1, u.2.1)))
        addr := match k.run with | some r => r.clause + BitVec.ofNat 64 (4 * r.off) | none => 0 }
    [teamStep (fun t e _ => (late t e).any (fun x => (t.barp e.b).accepts t.ngroups x.2.2)) (fun t e s => match late t e with
        | some (g, _, n) => s.onTeam t.id (fun u => u.arriveBarp e.b g.id n)
        | none => s),
     teamStep (fun t e _ => (late t e).any (fun x => !(t.barp e.b).accepts t.ngroups x.2.2)) (fun t e s => match late t e with
        | some (g, k, _) => takeFault s (stands t g k) true { code := 0x03, lanes := (stands t g k).lanes }
        | none => s),
     teamStep (fun t e s => (complete t e).any (fun x => releasedAll s t x.2)) (fun t e s => match complete t e with
        | some (gen, gs) => (barrierEnds s t gs (Wait.atBarp e.b gen)).onTeam t.id (fun u =>
            u.setBarp e.b { u.barp e.b with closed := (t.barp e.b).closed.tail })
        | none => s),
     teamStep (fun t e s => (late t e).isNone && (complete t e).all (fun x => !releasedAll s t x.2)) (fun _ _ s => s)]

/-- The TOKPASS of a tile that a team has outstanding: its operation and the receiver (R387). -/
def passing (s : State) (team z : Nat) : Option (Op × Nat) :=
  (s.ops.find? (fun (o : Nat × Op) => o.2.team == team && (match o.2.body with | .tokpass k _ => k == z | _ => false))).bind (fun o =>
    match o.2.body with | .tokpass _ k => some (o.2, k) | _ => none)

/-- A multiplication, with its operation and team: its parts in the order of OpBody.matrix. -/
structure Product where
  op : Op
  team : Team
  fn : Nat
  tile : Nat
  a : List Word
  b : List Word
  share : Bool
  list : List Word
  posted : Option DWord
  started : Bool
  lines : Map (List Byte)
  bad : Option DWord

/-- The multiplication that a step is about, of a resident team. -/
def productAt (s : State) (id : Nat) : Option Product :=
  match s.ops.find id with
  | none => none
  | some o => match o.body, s.teams.find o.team with
    | .matrix fn z a b sh ls p st lines bad, some t => if t.phase = .resident then some ⟨o, t, fn, z, a, b, sh, ls, p, st, lines, bad⟩ else none
    | _, _ => none

/-- The addresses that a multiplication translates first (R378). -/
def Product.pages (x : Product) : List Nat := x.team.halves.flatMap (fun h =>
  panelVas (panelSize (matFmt x.a)) ((opRows x.team x.fn x.a x.share x.list h).map (·.2)) ++
  panelVas (panelSize (matFmt x.b)) ((opCols x.team x.b x.share h).map (·.2)))

/-- The lines that it has still to fetch (R380). -/
def Product.need (x : Product) (s : State) : List Nat :=
  (opLines s x.team x.fn x.tile x.a x.b x.share x.list).filter (fun l => (x.lines.find l).isNone)

/-- A step about a multiplication. -/
def productStep (p : Product → State → Bool) (f : Product → State → State) : Event :=
  { due := fun e s => (productAt s e.a).any (fun x => p x s)
    effect := fun e s => match productAt s e.a with
      | some x => f x s
      | none => s }

/-! TOKEN_HANDOVER and MATRIX_ACCUMULATION (R376 to R380, R387): a multiplication translates its panels, waits for the tile, fetches its
lines, and then updates every half. -/
/-- TOKEN_HANDOVER. -/
def tokenHandoverClaims : List Event :=
    let heir : Team → Nat → Option Nat := fun t k =>
      let live := (t.groups.filter (fun g => !g.retired)).map (·.id)
      if live.contains k then some k
      else (live.filter (fun g => decide (t.desc.matFirst ≤ g) && decide (g < t.desc.matFirst + t.desc.matCount)) ++ live).head?
    [teamStep (fun t e s => (passing s e.a e.b).any (fun x => !tileWaits s t e.b x.1.id)) (fun t e s => match passing s e.a e.b with
        | some (o, k) => (s.onTeam e.a (fun u => { u with tokens := setAt u.tokens e.b (heir t k), tokpend := setAt u.tokpend e.b none })).completeOp o.id
        | none => s),
     teamStep (fun t e s => (passing s e.a e.b).all (fun x => tileWaits s t e.b x.1.id)) (fun _ _ s => s)]
/-- MATRIX_ACCUMULATION. -/
def matrixAccumulationClaims : List Event :=
    let cover : Product → State → Option Cover × State := fun x s => coverAll x.team.pool x.team.ctx .load s x.pages
    let taken : Product → State → Bool := fun x s => tileWaits s x.team x.tile x.op.id || acquiresOut s x.team.id x.op.group x.op.id
    [productStep (fun x s => !x.started && (match (cover x s).1 with | some (.ok _) => true | _ => false)) (fun x s =>
        (cover x s).2.setBody x.op.id (.matrix x.fn x.tile x.a x.b x.share x.list x.posted true x.lines x.bad)),
     productStep (fun x s => !x.started && (match (cover x s).1 with | some (.page ..) => true | _ => false)) (fun x s =>
        match cover x s with
        | (some (.page va en), s1) => (tilePage s1 x.team x.op va en x.posted).setBody x.op.id
            (.matrix x.fn x.tile x.a x.b x.share x.list (some va) false x.lines x.bad)
        | _ => s),
     productStep (fun x s => !x.started && (match (cover x s).1 with | some (.fault ..) => true | _ => false)) (fun x s =>
        match cover x s with
        | (some (.fault code _ va), s1) => ((matLate s1 x.op x.tile 0 code va).unpin x.team.pool x.op.id).completeOp x.op.id
        | _ => s),
     productStep (fun x s => !x.started && (cover x s).1.isNone) (fun x s => (cover x s).2),
     productStep (fun x s => x.started && taken x s) (fun _ s => s),
     productStep (fun x s => x.started && !taken x s && (x.need s).isEmpty) (fun x s =>
        accumulate s x.team x.op x.fn x.tile x.a x.b x.share x.list x.lines x.bad)]

/-- The conversation that the subject's team belongs to, with its team's level: a formed one, or one that forms. -/
def convAt (s : State) (team : Nat) : Option (Level × Nat) :=
  ((s.teams.find team).bind (fun t => t.levels.find? (fun l => l.conv.isSome))).map (fun l => (l, l.conv.getD 0))

/-- A member whose pass is posted and whose groups are quiet, in each of its copies (R422). -/
def passed (s : State) (m : Team) : Bool := (s.pairOf m.id).all (fun i => (s.teams.find i).any (fun t => t.fail.isNone && t.phase == .resident &&
  t.levels.getLast?.any (fun x => x.formed && t.allGroups (x.verdicts.map (·.1)) && x.verdicts.all (·.2) && (x.posted || t.copy == .trailing) &&
    teamQuiet s t x.first)))

/-! LEVEL_ROLLBACK, CYCLE_LIMIT_EXPIRY, and the conversation's formation, commit and joint failure (R407, R418, R421, R422). -/
/-- LEVEL_ROLLBACK. -/
def levelRollbackClaims : List Event :=
    let ready : Team → Subject → State → Option (Failing × Team × State) := fun t e s => match t.fail with
      | none => none
      | some f =>
        let s1 := withdraw s t f.level
        if t.phase ≠ .resident ∨ teamStopped s1 t = false then none
        else ((abandonAccesses s1 t).teams.find e.a).bind (fun u =>
          if teamQuiet (abandonAccesses s1 t) u ((u.levels[f.level - 1]?).map (·.first) |>.getD 0) then some (f, u, abandonAccesses s1 t) else none)
    let saved : Failing → Team → Bool := fun f u => (u.levels.drop (f.level - 1)).any (fun l => !l.entries.isEmpty)
    [teamStep (fun t e s => (ready t e s).any (fun x => x.2.1.regionHit)) (fun t e s => match ready t e s with
        | some (_, u, s1) => malformedRegion s1 u
        | none => s),
     teamStep (fun t e s => (ready t e s).any (fun x => !x.2.1.regionHit && saved x.1 x.2.1)) (fun t e s => match ready t e s with
        | some (f, u, s1) => restoreLevels s1 u.id f.level
        | none => s),
     teamStep (fun t e s => (ready t e s).any (fun x => !x.2.1.regionHit && !saved x.1 x.2.1)) (fun t e s => match ready t e s with
        | some (f, u, s1) => rollbackEnd (u.cores.foldl (fun (s : State) k => s.invalidateL1 k) s1) u f
        | none => s),
     teamStep (fun t _ _ => t.fail.isNone || t.phase != .resident) (fun _ _ s => s)]
/-- CYCLE_LIMIT_EXPIRY. -/
def cycleLimitExpiryClaims : List Event :=
    let late : Team → State → Option Nat := fun t s =>
      if t.fail.isSome ∨ t.copy = .trailing then none else t.levels.findIdx? (fun l => decide (l.limit ≤ t.residentClocks s.clock - l.count))
    [teamStep (fun t _ s => (late t s).isSome) (fun t _ s => (s.pairOf t.id).foldl (fun (s : State) k =>
        failLevel s k ⟨(late t s).getD 0 + 1, 2, 0x1B, wholeTeam, false⟩) s),
     teamStep (fun t _ s => (late t s).isNone) (fun _ _ s => s)]
/-- CONVERSATION_FORMATION. -/
def conversationFormationClaims : List Event :=
    let due : Level → Nat → State → Bool := fun l key s => !l.formed && decide (recNat s key 2 1 = 0) && recNat s key 1 1 == recNat s key 0 1 &&
      (convMembers s key).all (fun m => m.fail.isNone)
    let depth : Nat → Team → Nat := fun key m => m.levels.findIdx (fun l => l.conv == some key) + 1
    [{ due := fun e s => (convAt s e.a).any (fun x => due x.1 x.2 s), effect := fun e s => match convAt s e.a with
        | some (_, key) =>
          let hs := (recHandles s key).foldl insertRising []
          (convMembers s key).foldl (fun (s : State) m => (s.pairOf m.id).foldl (fun (s : State) i => s.onTeam i (fun t => t.onLevel (depth key m)
            (fun l => { l with joined := true, formed := true }))) s) (convWrite (convWrite s key 16 (hs.flatMap (bytesLE 4))) key 2 [1])
        | none => s },
     idleWhen (fun e s => (convAt s e.a).all (fun x => !due x.1 x.2 s))]
/-- CONVERSATION_COMMIT. -/
def conversationCommitClaims : List Event :=
    let due : Level → Nat → State → Bool := fun l key s => l.formed && (convMembers s key).length == recNat s key 0 1 && (convMembers s key).all (passed s)
    [{ due := fun e s => (convAt s e.a).any (fun x => due x.1 x.2 s), effect := fun e s => match convAt s e.a with
        | some (_, key) => convClose ((convMembers s key).foldl (fun (s : State) m => (s.pairOf m.id).foldl (fun (s : State) i =>
            match s.teams.find i with
            | some t => commitLevel s t
            | none => s) s) s) key
        | none => s },
     idleWhen (fun e s => (convAt s e.a).all (fun x => !due x.1 x.2 s))]
/-- CONVERSATION_JOINT_FAILURE. -/
def conversationJointFailureClaims : List Event :=
    let failing : Team → State → Option (Nat × Level × Nat × Failing) := fun t s => match t.convLevel?, convKey s t, t.fail with
      | some (d, l), some key, some f => if l.formed ∧ f.level ≤ d then some (d, l, key, f) else none
      | _, _, _ => none
    let marked : Team → State → Nat → Bool := fun t s key => natBit (recNat s key 5 1) (memberBit s key t)
    [teamStep (fun t _ s => (failing t s).any (fun x => !marked t s x.2.2.1)) (fun t _ s => match failing t s with
        | some (d, _, key, f) => jointFail s t key d f
        | none => s),
     teamStep (fun t _ s => (failing t s).isNone) (fun _ _ s => s)]

/-! COMPARE_MATCH, COMPARE_WAIT_TIMEOUT, TRAILING_COPY_START (R432, R434, R436, R440). -/
/-- COMPARE_MATCH. -/
def compareMatchClaims : List Event :=
    let pair : Team → Subject → State → Option (Team × CmpEvent × CmpEvent) := fun t e s =>
      if t.copy ≠ .leading then none else
      (t.twin.bind s.teams.find).bind (fun w =>
        match t.cmp.held.find? (fun x => x.group == e.b), w.cmp.seen.find? (fun x => x.group == e.b) with
        | some x, some y => some (w, x, y)
        | _, _ => none)
    let taken : Team → Team → Subject → State → State := fun t w e s =>
      (s.onTeam t.id (fun u => { u with cmp := { u.cmp with held := u.cmp.held.eraseIdx (u.cmp.held.findIdx (fun v => v.group == e.b)) } })).onTeam
        w.id (fun u => { u with cmp := { u.cmp with seen := u.cmp.seen.eraseIdx (u.cmp.seen.findIdx (fun v => v.group == e.b)) } })
    [teamStep (fun t e s => (pair t e s).any (fun p => (diffDatum p.2.1 p.2.2).isSome)) (fun t e s => match pair t e s with
        | some (_, x, y) => mismatch s t.id x.group ((diffDatum x y).getD 0) (mismatchRecord x (diffLanes x y))
        | none => s),
     teamStep (fun t e s => (pair t e s).any (fun p => (diffDatum p.2.1 p.2.2).isNone && p.2.1.copy.isSome && p.2.2.copy.isSome && p.2.1.block.isNone &&
        p.2.2.block.isNone)) (fun t e s => match pair t e s with
        | some (w, x, y) => performOnce (taken t w e s) t.id w.id (x.copy.getD 0) (y.copy.getD 0)
        | none => s),
     teamStep (fun t e s => (pair t e s).any (fun p => (diffDatum p.2.1 p.2.2).isNone && (p.2.1.copy.isNone || p.2.2.copy.isNone)))
      (fun t e s => match pair t e s with
        | some (w, x, y) =>
          let s1 := match x.block with
            | some b => performBlock (taken t w e s) t.id e.b b
            | none => taken t w e s
          match y.block with
          | some b => if b.space.shared then s1 else performBlock s1 w.id e.b b
          | none => s1
        | none => s),
     teamStep (fun t e s => (pair t e s).isNone) (fun _ _ s => s)]
/-- COMPARE_WAIT_TIMEOUT. -/
def compareWaitTimeoutClaims : List Event :=
    let late : Team → State → Option CmpEvent := fun t s => t.cmp.held.find? (fun x => decide (x.since + 1048576 ≤ t.residentClocks s.clock))
    [teamStep (fun t _ s => (late t s).isSome) (fun t _ s => match late t s with
        | some x => mismatch s t.id x.group 4 (mismatchRecord x x.lanes)
        | none => s),
     teamStep (fun t _ s => (late t s).isNone) (fun _ _ s => s)]
/-- TRAILING_COPY_START. -/
def trailingCopyStartClaims : List Event :=
    let due : Team → State → Bool := fun t s => t.copy == .trailing && t.phase == .resident && t.fail.isNone && decide (t.startAt ≤ s.clock) &&
      (t.twin.bind s.teams.find).any (fun l => l.fail.isNone && l.live)
    [teamStep (fun t _ s => due t s) (fun _ e s => s.onTeam e.a (fun t => { t with started := true })),
     teamStep (fun t _ s => !due t s) (fun _ _ s => s)]

/-! ## Steps without a word: the optical port, management -/

/-- The work of a link group that a slot event of a kind and direction does: the group's next work, in its turn (R455, R462). -/
def slotWork (kind : Nat) (reply : Bool) (e : Subject) (s : State) : Option (Link × SlotWork) :=
  (s.links.find e.a).bind (fun l => (nextWork s l).bind (fun w =>
    if w.reply == reply && entryKind w.entry == kind && (reply || slotFirst s e.a l w.slot) then some (l, w) else none))

/-- A step of one slot of a kind and direction; with no such slot next it does nothing. -/
def slotStep (kind : Nat) (reply : Bool) (f : Nat → Link → SlotWork → State → State) : Event :=
  { due := fun e s => (slotWork kind reply e s).isSome
    effect := fun e s => match slotWork kind reply e s with
      | some x => f e.a x.1 x.2 s
      | none => s }

/-- The link after a live group starts to retrain at a clock (R473, R474): replies that are not whole are cut, and what has no answer is
asked again from the front. -/
def retraining (l : Link) (clock : Nat) : Link :=
  { l with
    st := .retrain clock, retrains := sat16 l.retrains, sent := l.sent.filter (fun r => r.left == 0),
    reads := (l.sent.filter (fun r => r.left != 0)).map (fun (r : LinkRead) => { r with left := 64 * max 1 (maskSectors r.mask).length, due := 0 }) ++ l.reads,
    unacked := [],
    writes := l.unacked.map (fun (w : LinkWrite) => { w with left := w.cells.length, due := 0 }) ++
      l.writes.map (fun (w : LinkWrite) => { w with left := w.cells.length }),
    pairs := l.pairs.map (fun (p : Pair) => match p with | .waking _ a => .waking 4 a | p => p) }

/-- A group loses its lock or fails a slot's check: a live group retrains (R457, R473). -/
def retrainStep : List Event :=
  whenDue (fun e s => (s.link e.a).st == .live) (fun e s => s.putLink e.a (retraining (s.link e.a) s.clock))

/-! READ_BUNDLE_SLOT to LINK_LIVE (R455 to R478). -/
/-- READ_BUNDLE_SLOT. -/
def readBundleSlotClaims : List Event :=
    [slotStep 1 false (fun g l w s =>
        let p := l.bundle (entryClass w.entry) (entrySize w.entry) w.slot
        let after : Nat → State := fun n => (p.1.take n).foldl (fun (s : State) (r : LinkRead) => if r.left = 0 then (drawerRead s r).2 else s) s
        let sent := p.1.zipIdx.map (fun (x : LinkRead × Nat) =>
          ({ (if x.1.left = 0 then (drawerRead (after x.2) x.1).1 else x.1) with due := w.slot + 1536 + x.2 } : LinkRead))
        let l1 : Link := { l with reqSlot := w.slot + 1, reads := p.2, sent := l.sent ++ sent }
        (after p.1.length).putLink g { l1 with armed := l1.armed || decide (l1.waiting < l1.thr) }),
     idleWhen (fun e s => (slotWork 1 false e s).isNone)]
/-- WRITE_SLOT. -/
def writeSlotClaims : List Event :=
    [slotStep 2 false (fun g l w s => match l.nextWrite (entryClass w.entry) w.slot with
        | none => s
        | some x =>
          let l1 : Link := { l with reqSlot := w.slot + 1 }
          if l.slotBytes < x.left then
            s.putLink g { l1 with writes := setWrite (entryClass w.entry) (some { x with left := x.left - l.slotBytes, begun := true }) l.writes }
          else (if x.done.isSome then s else drawerWrite s x).putLink g
            { l1 with writes := setWrite (entryClass w.entry) none l.writes, unacked := l.unacked ++ [{ x with left := 0, begun := true, done := some w.slot }] }),
     idleWhen (fun e s => (slotWork 2 false e s).isNone)]
/-- MAINTENANCE_SLOT. -/
def maintenanceSlotClaims : List Event :=
    [slotStep 3 false (fun g l w s =>
        let d := ((l.zeros.filter (zeroGoes s w.slot)).take 16).foldl (fun (d : Drawer) (z : ZeroCmd) => d.mark z.block) s.drawer
        let sent := mapUpTo (zeroGoes s w.slot) (fun (z : ZeroCmd) => { z with sentAt := some w.slot }) 16 l.zeros
        ({ s with drawer := d }).putLink g { l with reqSlot := w.slot + 1, zeros := sent }),
     slotStep 3 true (fun g l w s => s.putLink g { l with repSlot := w.slot + 1, zeros := takeUpTo (zeroOver w.slot) 16 l.zeros }),
     idleWhen (fun e s => (slotWork 3 false e s).isNone && (slotWork 3 true e s).isNone)]
/-- READ_REPLY_SLOT. -/
def readReplySlotClaims : List Event :=
    [slotStep 1 true (fun g l w s => match l.nextReply (entryClass w.entry) w.slot with
        | none => s
        | some r =>
          let r1 : LinkRead := if l.slotBytes < r.left then { r with left := r.left - l.slotBytes } else { r with left := 0, due := w.slot }
          s.putLink g { l with repSlot := w.slot + 1, sent := mapUpTo (fun x => x == r) (fun _ => r1) 1 l.sent }),
     idleWhen (fun e s => (slotWork 1 true e s).isNone)]
/-- ACKNOWLEDGEMENT_SLOT. -/
def acknowledgementSlotClaims : List Event :=
    [slotStep 2 true (fun g l w s =>
        s.putLink g { l with repSlot := w.slot + 1, unacked := takeUpTo (ackGoes (entryClass w.entry) w.slot) 8 l.unacked }),
     idleWhen (fun e s => (slotWork 2 true e s).isNone)]
/-- ZERO_MAP_BACKGROUND_CLEAR. -/
def zeroMapBackgroundClearClaims : List Event :=
    whenDue (fun e s => !s.drawer.clear.contains e.a && decide (e.a < 768 * 2 ^ 18))
      (fun e s => { s with drawer := { s.drawer with mem := dropBlock s.drawer.mem e.a, clear := insertRising s.drawer.clear e.a } })
/-- SUPERFRAME_BOUNDARY. -/
def superframeBoundaryClaims : List Event :=
    let due : Subject → State → Bool := fun e s => (s.links.find e.a).any (fun l => l.st == .live && decide (4096 * (l.frame + 1) ≤ s.slot) &&
      (nextWork s l).isNone)
    whenDue due (fun e s =>
      let l := s.link e.a
      let l1 : Link := { l with frame := l.frame + 1, sfcount := (l.sfcount + 1) % 2 ^ 32, pairs := l.pairs.map Pair.boundary, previous := none }
      s.putLink e.a (match l.standby with
        | some t => if l.swpend then { l1 with previous := some l.active, active := t, standby := none, swpend := false } else l1
        | none => l1))
/-- LANE_LOSS_OF_LOCK. -/
def laneLossOfLockClaims : List Event :=
    retrainStep
/-- SLOT_CHECK_FAILURE. -/
def slotCheckFailureClaims : List Event :=
    retrainStep
/-- LINKSTALL_TIMEOUT. -/
def linkstallTimeoutClaims : List Event :=
    whenDue (fun e s => match (s.link e.a).st with
        | .retrain t => decide (2048 ≤ s.clock - t)
        | .down _ => true
        | .live => false)
      (fun e s => s.ops.foldl (fun (s : State) (o : Nat × Op) => match o.2.body with
        | .mem m => stallOp s e.a o.2 m
        | _ => s) s)
/-- LINKDOWN. -/
def linkdownClaims : List Event :=
    whenDue (fun e s => match (s.link e.a).st with
        | .retrain t => decide (t + 45000 ≤ s.clock)
        | _ => false)
      (fun e s => (risingNats (linkContexts s e.a)).foldl (fun (s : State) c => post s c 4 0xFFFFFFFF e.a (moduleRecord 0x22 e.a))
        (s.putLink e.a { s.link e.a with st := .down s.clock }))
/-- LINK_LIVE. -/
def linkLiveClaims : List Event :=
    whenDue (fun e s => (s.link e.a).st != .live && decide (e.a < 8) && !s.mgmt.mismatch && decide (3 ≤ s.mgmt.booted)) (fun e s =>
      let l := s.link e.a
      let l1 : Link := { l with st := .live, sfcount := 0, frame := s.slot / 4096, reqSlot := s.slot + 1, repSlot := s.slot + 1, previous := none }
      s.ops.foldl (fun (s : State) (o : Nat × Op) => match o.2.body with
        | .mem m => unstall s e.a o.2 m
        | _ => s) (s.putLink e.a l1))

/-- What stands after module reset when boot has got as far as its subject lets it (R495 to R498). -/
def booted (b : BootInput) (s : State) : State :=
  let r := afterReset s (some b)
  match bootFirmware r b with
  | none => { r with mgmt := { r.mgmt with recovery := true } }
  | some fw =>
    let r1 := { r with mgmt := { r.mgmt with booted := 1, firmware := some fw } }
    if b.pairPackage ≠ b.pairDrawer then { r1 with mgmt := { r1.mgmt with mismatch := true } }
    else
      let r3 := { r1 with mgmt := { r1.mgmt with booted := 3 }, links := (List.range 8).map (fun g => (g, bootLink (b.trained.contains g))) }
      if imageOk r b.marigold && b.trained.contains 0 then bootMarigold r3 b else r3

/-! MODULE_RESET to STORAGE_BIT_ERROR (R194, R232, R268, R285, R454, R494 to R502). -/
/-- MODULE_RESET. -/
def moduleResetClaims : List Event :=
    [{ due := fun e _ => e.boot.isSome, effect := fun e s => match e.boot with
        | some b => booted b s
        | none => s },
     { due := fun e _ => e.boot.isNone, effect := fun _ s =>
        { afterReset s none with mgmt := { (afterReset s none).mgmt with recovery := true } } }]
/-- ATTESTATION_REQUEST. -/
def attestationRequestClaims : List Event :=
    [{ due := fun e s => e.raw.length == 32 && decide (s.mgmt.leaf < 2 ^ 20), effect := fun e s =>
        let body := reportBody s e.raw s.mgmt.leaf
        { s with mgmt := { s.mgmt with leaf := s.mgmt.leaf + 1, reports := s.mgmt.reports ++ [body ++ Config.xmssSign s.mgmt.leaf body] } } },
     { due := fun e s => e.raw.length == 32 && decide (2 ^ 20 ≤ s.mgmt.leaf), effect := fun _ s => { s with mgmt := { s.mgmt with refusing := true } } },
     idleWhen (fun e _ => e.raw.length != 32)]
/-- FOXGLOVE_PACKAGE_LOAD. -/
def foxglovePackageLoadClaims : List Event :=
    let good : Subject → State → Bool := fun e s => e.image.any (fun p => xmssVerify p.bytes p.signature && decide (s.mgmt.minVersion ≤ p.version) &&
      decide (p.cluster < 224))
    [{ due := fun _ _ => true, effect := fun e s =>
        if good e s then { s with mgmt := { s.mgmt with packages := s.mgmt.packages ++ e.image.toList } } else s }]
/-- IN_FIELD_SCAN. -/
def inFieldScanClaims : List Event :=
    let due : Subject → State → Bool := fun e s => s.mgmt.packages.any (fun p => p.cluster == e.a) &&
      ((s.cluster e.a).door == .closed || (s.cluster e.a).door == .offline) && (residents s e.a).isEmpty
    let tested : Subject → State → State := fun e s => { s with mgmt := { s.mgmt with results := s.mgmt.results ++
      [(e.a, e.flag, (List.range 64).all (fun b => ((s.cluster e.a).bank b).st == .free))] } }
    [{ due := fun e s => due e s && e.flag, effect := tested },
     { due := fun e s => due e s && !e.flag, effect := fun e s => (tested e s).putCluster e.a { s.cluster e.a with door := .offline } },
     idleWhen (fun e s => !due e s)]
/-- THERMAL_THROTTLE. -/
def thermalThrottleClaims : List Event :=
    [{ due := fun _ _ => true, effect := fun e s => { s with mgmt := { s.mgmt with hot := insertRising s.mgmt.hot e.a } } }]
/-- THERMAL_THROTTLE_RELEASE. -/
def thermalThrottleReleaseClaims : List Event :=
    [{ due := fun _ _ => true, effect := fun e s => { s with mgmt := { s.mgmt with hot := s.mgmt.hot.filter (fun d => d != e.a) } } }]
/-- THERMAL_SHUTDOWN. -/
def thermalShutdownClaims : List Event :=
    whenDue (fun _ s => s.mgmt.shutdownAt.isNone) (fun _ s =>
      let r := ((s.ctxs.filter (fun c => c.2.v)).map (·.1)).foldl (fun (x : State) c =>
        post x c 6 0xFFFFFFFF 0 (moduleRecord (s.free.1 % 256) (s.free.1 / 256 % 65536))) s.free.2
      { r with mgmt := { r.mgmt with shutdownAt := some (r.clock + 2250000) } })
/-- THERMAL_POWER_REMOVAL. -/
def thermalPowerRemovalClaims : List Event :=
    whenDue (fun _ s => s.mgmt.shutdownAt.any (fun k => decide (k ≤ s.clock))) (fun _ s => { s with mgmt := { s.mgmt with powered := false } })
/-- STORAGE_BIT_ERROR. -/
def storageBitErrorClaims : List Event :=
    [{ due := fun e _ => e.site.isNone, effect := fun _ s => s },
     { due := fun e s => match e.site with
        | some (.slice vc sector _) => (s.homes.find (vc * 2 ^ 34 + sector % 2 ^ 34)).any (fun x => x.st == .clean || x.st == .sealed)
        | _ => false,
       effect := fun e s => match e.site with
        | some (.slice vc sector _) => { s with homes := s.homes.del (vc * 2 ^ 34 + sector % 2 ^ 34) }
        | _ => s },
     { due := fun e s => match e.site with
        | some (.slice vc sector _) => (s.homes.find (vc * 2 ^ 34 + sector % 2 ^ 34)).any (fun x => match x.st with
            | .dirty => true
            | .prov _ _ => true
            | _ => false)
        | _ => false,
       effect := fun e s => match e.site with
        | some (.slice vc sector double) =>
          let key := vc * 2 ^ 34 + sector % 2 ^ 34
          match s.homes.find key with
          | some x => { s with homes := s.homes.put key (if double then { x with poison := true } else { x with weak := true }) }
          | none => s
        | _ => s },
     { due := fun e _ => match e.site with | some (.bank ..) => true | _ => false,
       effect := fun e s => match e.site with
        | some (.bank c b w double) => s.onBank c b (fun x =>
            if double then { x with bad := insertRising x.bad w } else { x with weak := insertRising x.weak w })
        | _ => s },
     { due := fun e _ => match e.site with | some (.l1 ..) => true | _ => false,
       effect := fun e s => match e.site with
        | some (.l1 core line word) => s.putCore core { s.core core with l1 := (s.core core).l1.map (fun (l : L1Line) =>
            if l.line = line then { l with bad := insertRising l.bad word } else l) }
        | _ => s },
     { due := fun e _ => match e.site with | some (.stack ..) => true | _ => false,
       effect := fun e s => match e.site with
        | some (.stack sector double) =>
          { s with drawer := if double then { s.drawer with poison := insertRising s.drawer.poison sector }
                             else { s.drawer with weak := insertRising s.drawer.weak sector } }
        | _ => s },
     { due := fun e _ => match e.site with | some (.residue ..) => true | some (.parityX ..) => true | some (.parityQ ..) => true | some (.unit ..) => true | _ => false,
       effect := fun e s => match e.site with
        | some (.residue t g r l) => s.onGroup t g (fun x =>
            let v := x.rf.v.getD (r * 64 + l) VWord.zero
            { x with rf := x.rf.setRaw r l ⟨v.val, (residue v.val + 1) % 3⟩ })
        | some (.parityX t g r l) => s.onGroup t g (fun x => { x with rf := { x.rf with xbad := insertRising x.rf.xbad (r * 64 + l) } })
        | some (.parityQ t g r l) => s.onGroup t g (fun x => { x with rf := { x.rf with qbad := insertRising x.rf.qbad (r * 64 + l) } })
        | some (.unit t g l) => s.onGroup t g (fun x => { x with unitBad := insertRising x.unitBad l })
        | _ => s }]

/-! ## The whole machine: checks, traps, frames, memory -/

/-- A privileged word in user mode takes PRIV, whatever else it fails, and has no effect (R18, R76, R105). -/
def NeedsSystemMode (i : Instr) : Prop :=
  ∀ s c g k run, Issuing s c g k run → k.wait = .none → run.op = none → g.sysmode = false →
    exec i s = .next (wordFaults c s { code := 0x02, lanes := c.lanes } s)

/-- A word that reads and writes uniform registers only: what R76 finds wrong with it in steps 4 and 6, in that order. It names a
register beyond the group's allocation, or has a hint attached that it does not take: OPERAND. It names a pending register: RUNHAZARD. -/
def ChecksUniform (i : Instr) (reads writes : List Nat) : Prop :=
  ∀ s c g k run, Issuing s c g k run → k.wait = .none → run.op = none →
    ((run.hopnd.isSome = true ∨ run.mpfx.isSome = true ∨ (reads ++ writes).any (fun r => decide (g.sregs ≤ r)) = true) →
      exec i s = .next (wordFaults c s { code := 0x03, lanes := c.lanes } s)) ∧
    (run.hopnd = none → run.mpfx = none → (reads ++ writes).all (fun r => decide (r < g.sregs)) = true →
      (reads ++ writes).any (g.pending true) = true → exec i s = .next (wordFaults c s { code := 0x0B, lanes := c.lanes } s))

/-! ### Taking an exception (R185 to R189, R406) -/

/-- The block that carries a record to the group's record address: a store of its 32 bytes through the group's FIFO (R187 step 2). -/
def recordBlock (t : Team) (l : Leaf) (a : DWord) (r : Record) (id clock : Nat) : Block :=
  { id := id, op := id, team := t.id, group := r.group, kind := .store, space := .global, lane := 0, ctx := t.ctx, vc := l.vc,
    lclass := l.lclass, device := decide (2 ^ 40 ≤ l.pa), bank := 0, cells := cellsAt l.pa r.toBytes, cmp := 0,
    mods := ⟨0, 0, .global, 0, 0, 0⟩, level := t.levels.length, iaddr := r.iaddr, gang := 0, lanes := r.lanes, va := a,
    psize := l.size, born := clock }

/-- The system-mode shadow of a trap (R189): divergence and run state, with the temporaries that belong to it (R94). -/
def shadowOf (g : Group) (gang : Nat) (lanes : Mask) (via : DWord) : Shadow :=
  { slices := g.slices, gangs := g.gangs, gang := gang, iaddr := via, lanes := lanes,
    temps := g.rf.v.filter (fun e => decide (128 * 64 ≤ e.1)), tempTags := g.tags.filter (fun e => decide (128 * 16 ≤ e.1)) }

/-- A group after trap entry (R187 steps 1, 3 and 4, R189): one gang of one unit per slice, single mode, every unfinished lane active
at the handler, empty stacks, INTRAP set; in system mode with the shadow kept, in user mode with what the operations of the runs that are
left will write still pending. -/
structure TrapEntered (t : Team) (g h : Group) (gang : Nat) (lanes : Mask) (via : DWord) : Prop where
  slices : h.slices = g.slices.map (fun (sl : Slice) =>
    { dual := false, b := PathUnit.empty, rj := 0, stack := [],
      a := { pc := t.desc.entry + (t.trapvec.signExtend 64 <<< 2), via := via, mask := sl.live, ret := [],
             st := if sl.live = 0 then .finished else .ready, gang := g.gangCtr } })
  gangs : ∃ n, h.gangs = [{ id := g.gangCtr, last := n, run := none, wait := .none, tried := none }]
  intrap : h.intrap = true
  shadow : h.shadow = if g.sysmode then some (shadowOf g gang lanes via) else g.shadow
  rest : h = { g with slices := h.slices, gangs := h.gangs, gangCtr := g.gangCtr + 1, loose := h.loose, fifo := h.fifo,
                      intrap := true, shadow := h.shadow }
  pending : h.loose = if g.sysmode then g.loose else g.loose ++ g.gangs.flatMap (fun k => match k.run with
    | some r => if g.flagCount r.fa = 0 then [] else r.dests.map (fun d => ⟨r.fa, d.scalar, d.reg, 1⟩)
    | none => [])

/-! ### Frames -/

/-- The step has changed nothing beside the teams, taken the issue slot of a core (R23), and used the issuer up: every memory, cache,
engine, queue, context and device stands as before. -/
structure OnlyTeams (s t : State) (core : Nat) : Prop where
  state : t = { s with teams := t.teams, cores := t.cores, cur := none }
  slot : t.core core = { s.core core with issued := (t.core core).issued }
  cores : ∀ i, i ≠ core → t.core i = s.core i

/-- Every byte of the module's memories reads as before: the drawer's, those of the home slices under every VC, those of the banks, and
queue memory's. -/
structure SameBytes (s t : State) : Prop where
  drawer : ∀ pa, t.drawer.byte pa = s.drawer.byte pa
  homes : ∀ vc pa, homeByte t vc pa = homeByte s vc pa
  banks : ∀ n b a, Memory.read ((t.cluster n).bank b).mem a = Memory.read ((s.cluster n).bank b).mem a
  queues : ∀ a, Memory.read t.qmem a = Memory.read s.qmem a

/-- Of the module only the issuing group has changed, with what its team's levels have saved (R412), and of the group's gangs only the
issuing one; h is the group after the step. -/
structure OnlyIssuer (s t : State) (c : Cur) (g h : Group) : Prop where
  rest : OnlyTeams s t g.core
  bytes : SameBytes s t
  others : ∀ i, i ≠ c.team → t.teams.find i = s.teams.find i
  team : ∃ x y, s.teams.find c.team = some x ∧ t.teams.find c.team = some y ∧ y = { x with groups := y.groups, levels := y.levels } ∧
    y.groups.filter (fun z => z.id != c.group) = x.groups.filter (fun z => z.id != c.group)
  issuer : t.curGroup? c = some h
  gangs : h.gangs.filter (fun z => z.id != c.gang) = g.gangs.filter (fun z => z.id != c.gang)

/-- A word of a claim is over with room for what it saves. -/
def Claim.Ends (x : Claim) (s : State) (c : Cur) (g : Group) (k : Gang) (run : Run) : Prop :=
  x.Applies s c g k run ∧ (keepWrites (x.uses c g run) c g (x.effect c g run s)).isSome = true

/-- The frame of a word that writes uniform registers: beside its gang's place in the run, the columns that it holds and the group's
no-issue counter, only the listed registers change; flags, pending ranges, special registers, divergence state and memory stand. -/
def FrameS (i : Instr) (x : Claim) (ds : List Nat) : Prop :=
  ∀ s c g k run t, x.Ends s c g k run → exec i s = .next t → ∃ h, OnlyIssuer s t c g h ∧
    h = { g with rf := { g.rf with s := h.rf.s }, sh := h.sh, gangs := h.gangs, idle := h.idle, busy := h.busy } ∧ ∀ r, r ∉ ds → h.rf.S r = g.rf.S r

/-- The frame of a lane-local word: beside its gang's place in the run, the columns that it holds and the group's no-issue counter, only
the destination of the active lanes changes, with the tags of the destination, FPSTAT and FPCNT; every inactive lane's registers, every
uniform register, every other special register, flags, pending ranges, divergence state and memory stand. -/
def FrameV (i : Instr) (x : Claim) (o : Cur → Group → Run → LaneOp) : Prop :=
  ∀ s c g k run t, x.Ends s c g k run → exec i s = .next t → ∃ h, OnlyIssuer s t c g h ∧
    h = { g with rf := h.rf, sh := h.sh, tags := h.tags, fpstat := h.fpstat, fpcnt := h.fpcnt, gangs := h.gangs, idle := h.idle,
                 busy := h.busy } ∧
    h.rf.s = g.rf.s ∧
    (∀ r l, l < 64 → (hasLane c.lanes l = false ∨ (match (o c g run).dst with | .vec x => g.regAt g.rf x l ≠ some r | _ => True)) →
      h.rf.V r l = g.rf.V r l) ∧
    (∀ q l, l < 64 → (hasLane c.lanes l = false ∨ (match (o c g run).dst with | .pred x => x ≠ q | _ => True)) → h.rf.Q q l = g.rf.Q q l) ∧
    (∀ n l, l < 64 → (hasLane c.lanes l = false ∨ (match (o c g run).dst with | .idx x => x ≠ n | _ => True)) → h.rf.X n l = g.rf.X n l)

/-- The frame of a branch: only the PCs and what goes with them of the issuing group's slices, its gangs, and the ranges that the run
binds change; no register, no special register and no byte of memory does. -/
def FrameJ (i : Instr) (x : Claim) : Prop :=
  ∀ s c g k run t, x.Ends s c g k run → g.rangeRoom c.gang = true → exec i s = .next t → ∃ h, OnlyTeams s t g.core ∧ SameBytes s t ∧
    t.curGroup? c = some h ∧ h.rf = g.rf ∧ h.sh = g.sh ∧ h.tags = g.tags ∧ h.flags = g.flags ∧ h.fpctl = g.fpctl ∧ h.fpstat = g.fpstat ∧
    h.fpcnt = g.fpcnt ∧ h.sysmode = g.sysmode ∧ h.intrap = g.intrap ∧ h.part = g.part ∧ h.evpend = g.evpend ∧ h.shadow = g.shadow ∧
    h.fifo = g.fifo ∧ ∀ i, i ≠ c.team → t.teams.find i = s.teams.find i

/-! ### Stepping and decoding -/

/-- Inside a run the gang's next word is the run's word at its offset; the step is that of its instruction, issued by the run's units. -/
def RunsWord (s : State) (t : Team) (g : Group) (k : Gang) (r : Run) (i : Instr) : Prop :=
  s.mgmt.powered = true ∧ s.teams.find t.id = some t ∧ t.begun = true ∧ t.group? g.id = some g ∧ g.gang? k.id = some k ∧ k.run = some r ∧
  (∃ w, decodeWord (r.words.getD (r.off - 1) 0).toNat = .ok w ∧ w = i)

/-- The state in which the first turn of the agenda moves: its time has passed, and the turn is used up (R6). -/
def turnBegins (s : State) (x : Turn) (rest : List Turn) : State := { s with agenda := rest }.elapse x.dt x.who.edge

/-- The state in which a scheduler's gang issues: the scheduler looks again afterwards, and a gang that has been woken waits no more. -/
def gangBegins (s : State) (core half : Nat) (t : Team) (g : Group) (k : Gang) : State :=
  let s1 : State := { s with agenda := ⟨0, .scheduler core half⟩ :: s.agenda }
  if k.wait = .woken then s1.onGroup t.id g.id (fun x => x.onGang k.id (fun y => { y with wait := .none })) else s1

/-- The issuer of the word at a run's offset: the run's units with their lanes, or those of them that a trap left to replay (R94, R189). -/
def runIssuer (t : Team) (g : Group) (k : Gang) (r : Run) : Cur :=
  { team := t.id, group := g.id, gang := k.id,
    units := match r.replay with | some m => r.units.filter (fun u => g.unitLanes [u] &&& m != 0) | none => r.units,
    lanes := match r.replay with | some m => g.unitLanes r.units &&& m | none => g.unitLanes r.units,
    addr := r.clause + BitVec.ofNat 64 (4 * r.off), word := r.words.getD (r.off - 1) 0 }

/-- The issuer of a word at a run's start. -/
def startIssuer (t : Team) (g : Group) (k : Gang) (pc : DWord) (us : List (Nat × Bool)) (w : Word) : Cur :=
  { team := t.id, group := g.id, gang := k.id, units := us, lanes := g.unitLanes us, addr := pc, word := w }

/-- What the words on two even pairs use. -/
def pairUses (d a : BitVec 8) : Uses :=
  { sr := [(a.toNat, 2), (d.toNat, 2)], sw := [(d.toNat, 2)], bad := decide (d.toNat % 2 = 1 ∨ a.toNat % 2 = 1) }

/-- What the words on three predicates use. -/
def predUses (d a b : BitVec 8) : Uses := { role := .vector, bad := decide (8 ≤ d.toNat ∨ 8 ≤ a.toNat ∨ 8 ≤ b.toNat) }

end Sys2Proof.Machine

/-- R155 to R157: the scalar words write their result, computed on the registers before them, to S(D), to s(256 + hidx) or to
the pair; those of R155 and R156 are encoded as its tables say. -/
def Obligations.ScalarWordsWriteTheirResult : Prop :=
  (∀ e ∈ scalar3, ∀ d a b, (does { sr := [(a.toNat, 1), (b.toNat, 1)], sw := [(d.toNat, 1)] }
    (onFiles (fun _ _ r => r.setS d.toNat (e.2 (r.S a.toNat) (r.S b.toNat))))).Holds (e.1 d a b)) ∧
  (∀ e ∈ scalar2, ∀ d a, (does { sr := [(a.toNat, 1)], sw := [(d.toNat, 1)] }
    (onFiles (fun _ _ r => r.setS d.toNat (e.2 (r.S a.toNat))))).Holds (e.1 d a)) ∧
  (∀ e ∈ scalarPairs, ∀ d a, (does (pairUses d a)
    (onFiles (fun _ _ r => r.setS64 d.toNat (BitVec.ofNat 64 (e.2 (r.S64 d.toNat) (r.S64 a.toNat)))))).Holds (e.1 d a)) ∧
  (∀ d a b, AllHold (.smov d a b) (smovClaims d a b)) ∧ (∀ d a x, AllHold (.sbfe d a x) (sbfeClaims d a x)) ∧
  (∀ d a, AllHold (.sbfi d a) (sbfiClaims d a)) ∧ (∀ d a b, AllHold (.ssel d a b) (sselClaims d a b)) ∧
  (∀ d i, AllHold (.sli d i) (sliClaims d i)) ∧ (∀ d i, AllHold (.sliu d i) (sliuClaims d i)) ∧
  (∀ d i, AllHold (.slih d i) (slihClaims d i)) ∧ (∀ d i, AllHold (.saddi d i) (saddiClaims d i)) ∧
  (∀ h a, AllHold (.smovh h a) (smovhClaims h a)) ∧ (∀ d h, AllHold (.smovl d h) (smovlClaims d h)) ∧
  (∀ d a, AllHold (.sshl64 d a) (sshl64Claims d a)) ∧ (∀ d a x, AllHold (.sshr64 d a x) (sshr64Claims d a x)) ∧
  (∀ d a x, AllHold (.smulw d a x) (smulwClaims d a x)) ∧
  (∀ e ∈ scalar3.zipIdx, ∀ d a b, decodeWord (wordA (0x20 + e.2) d a b) = .ok (e.1.1 d a b)) ∧
  (∀ d a b, decodeWord (wordA 0x36 d a b) = .ok (.ssel d a b) ∧ decodeWord (wordA 0x37 d a b) = .ok (.smov d a b)) ∧
  (∀ e ∈ scalarImms.zipIdx, ∀ (d : BitVec 8) (k : BitVec 16), decodeWord ((0x38 + e.2) * 2 ^ 24 + d.toNat * 2 ^ 16 + k.toNat) = .ok (e.1 d k))

/-- R205: the predicate words are encoded as the rule's table says; in every active lane they write f(Q(A, L), Q(B, L)) to Q(D, L); q7
reads as true, and a write to it is discarded; PANDN of q7 and qn is the negation of qn. -/
def Obligations.PredicateWordsFollowTheirRule : Prop :=
  (∀ e ∈ preds3.zipIdx, ∀ d a b, decodeWord (wordA (0x84 + e.2) d a b) = .ok (e.1.1 d a b)) ∧
  (∀ e ∈ preds3, ∀ d a b, (laneClaim (plain (predUses d a b)) (fun _ _ =>
    { prim := [], preds := [a.toNat, b.toNat], accept := fun _ => true, resTag := id, dst := .pred d.toNat,
      f := fun rf _ l _ => (boolWord (e.2 (rf.Q a.toNat l) (rf.Q b.toNat l)), []) })).Holds (e.1 d a b)) ∧
  (∀ (rf : RegFile) l b, rf.Q 7 l = true ∧ rf.setQ 7 l b = rf) ∧
  (∀ (e : Word3 × (Bool → Bool → Bool)), preds3[3]? = some e → ∀ x, e.2 true x = !x) ∧
  decodeWord 0x87020701 = .ok (.pandn 2 7 1)

/-- R158 to R165: RDSR, WRSR. -/
def Obligations.SpecialRegistersAreReadAndWritten : Prop :=
  (∀ d n, n.toNat ≤ 0x1D → AllHold (.rdsr d n) (rdsrClaims d n)) ∧ (∀ n a, AllHold (.wrsr n a) (wrsrClaims n a)) ∧ (∀ n a, WritesReadOnly n a)

/-- R99 to R104. -/
def Obligations.HintWordsAttach : Prop :=
  (∀ p v, AllHold (.himm p v) (himmClaims p v)) ∧ (∀ o, AllHold (.hopnd o) (hopndClaims o)) ∧
  (∀ o sc p q u n, AllHold (.mpfx o sc p q u n) (mpfxClaims o sc p q u n)) ∧ (AllHold .nop nopClaims) ∧
  (AllHold .hschedYield hschedYieldClaims) ∧ (AllHold .hschedPref hschedPrefClaims)

/-- R83 to R85, R97, R98: a CLAUSE whose mask's flags are clear and whose run passes R84 starts the run: the group's copies of the
context's registers are taken, and the gang stands at the first word behind the CLAUSE. An ENDRUN with room for its ranges binds
them to FA and sends the run's units to the word behind it. -/
def Obligations.RunsStartAndEnd : Prop :=
  (∀ wt a b l, Stands (.clause wt a b l)
    (fun c g k s => k.run.isNone && (List.range 12).all (fun i => !wt.getLsbD i || g.flagCount i == 0) &&
      (s.teams.find c.team).any (fun t => (runAt s t.ctx c g a.toNat l.toNat).isSome))
    (fun c g _ s =>
      let at? := (s.teams.find c.team).bind (fun t => runAt s t.ctx c g a.toNat l.toNat)
      let run : Run :=
        { clause := c.addr, words := (at?.getD ([], [])).1, off := 1, fa := a.toNat, fb := b.toNat, ranges := (at?.getD ([], [])).2,
          units := c.units, imm := none, hopnd := none, mpfx := none, temps := 0, dests := [], yield := false, op := none, replay := none }
      (runStart s c).onCur c (fun g =>
        { g.onGang c.gang (fun k => { k with wait := .none, run := some run }) with runs := g.runs + 1 }))) ∧
  (∀ wt a b l, Stands (.clause wt a b l)
    (fun _ g k _ => k.run.isNone && (List.range 12).any (fun i => wt.getLsbD i && g.flagCount i != 0))
    (fun c _ _ s => s.onCur c (fun g => g.onGang c.gang (fun k => { k with tried := some s.clock })))) ∧
  (∀ x f n y h m, Stands (.endrun x f n y h m)
    (fun c g k _ => k.run.any (fun run => decide ((g.bindRanges run).pend.length ≤ 16) && g.run? c.gang == some run))
    (fun c _ k s => match k.run with
      | some run => s.onCur c (fun g => (g.mapUnits run.units (fun _ _ u => { u with pc := behind run, via := c.addr })).leaveRun c.gang s.now)
      | none => s))

/-- R92, R169 to R176. -/
def Obligations.BranchesGoToTheirTargets : Prop :=
  (∀ cd a o, AllHold (.brs cd a o) (brsClaims cd a o)) ∧ (∀ a o, AllHold (.loop a o) (loopClaims a o)) ∧
  (∀ a, AllHold (.brx a) (brxClaims a)) ∧ (∀ o, AllHold (.call o) (callClaims o)) ∧ (AllHold .ret retClaims) ∧
  (∀ q n t j, AllHold (.dbr q n t j) (dbrClaims q n t j)) ∧ (AllHold .exit exitClaims) ∧
  (∀ a m, AllHold (.regang a m) (regangClaims a m))

/-- R177 to R183. -/
def Obligations.GroupsMeetAndGrow : Prop :=
  (AllHold .bar barClaims) ∧ (∀ a b, AllHold (.barp a b) (barpClaims a b)) ∧ (∀ a b, AllHold (.sigev a b) (sigevClaims a b)) ∧
  (∀ d a, AllHold (.waitev d a) (waitevClaims d a)) ∧ (∀ a, AllHold (.sleep a) (sleepClaims a)) ∧
  (AllHold .yield yieldClaims) ∧ (∀ d q, AllHold (.elect d q) (electClaims d q)) ∧
  (∀ p, AllHold (.setpart p) (setpartClaims p)) ∧ (∀ a, AllHold (.grow a) (growClaims a)) ∧
  (∀ a, AllHold (.shrink a) (shrinkClaims a)) ∧ (∀ a, AllHold (.errinj a) (errinjClaims a))

/-- R188 to R190. -/
def Obligations.TrapsSaveAndReturn : Prop :=
  (∀ n, AllHold (.trap n) (trapClaims n)) ∧ (∀ a n, AllHold (.syscall a n) (syscallClaims a n)) ∧ (AllHold .halt haltClaims) ∧
  (∀ sg, AllHold (.eret sg) (eretClaims sg))

/-- R195 to R209, R215, R217: the lane-local column words, where every active lane is clean and no injection is armed, write
each active lane's result, tag and flags (laneEffect), and the words go on. VCVT stands apart. -/
def Obligations.LaneWordsWriteEveryActiveLane : Prop :=
  (∀ e ∈ vec3, ∀ d a b, (laneClaim (plain (vecUses d a b)) (fun g _ =>
    { prim := [src a 1, src b 2], unit := true, accept := e.2.1, resTag := id, dst := .vec d.toNat,
      f := fun _ t _ vs => byElems (e.2.2 g.rm) t vs })).Holds (e.1 d a b)) ∧
  (∀ e ∈ logic3, ∀ d a b, (laneClaim (plain (vecUses d a b)) (fun _ _ =>
    { prim := [src a 1, src b 2], accept := logicTag, resTag := id, dst := .vec d.toNat,
      f := fun _ _ _ vs => (e.2 (ar vs 0) (ar vs 1), []) })).Holds (e.1 d a b)) ∧
  (∀ e ∈ vec2, ∀ d a, (laneClaim (plain (vecUses1 d a)) (fun _ _ =>
    { prim := [src a 1], unit := true, accept := e.2.1, resTag := id, dst := .vec d.toNat,
      f := fun _ t _ vs => byElems (fun t es => e.2.2 t (el es 0)) t vs })).Holds (e.1 d a)) ∧
  (∀ e ∈ preds3, ∀ d a b, (laneClaim (plain (predUses d a b)) (fun _ _ =>
    { prim := [], preds := [a.toNat, b.toNat], accept := fun _ => true, resTag := id, dst := .pred d.toNat,
      f := fun rf _ l _ => (boolWord (e.2 (rf.Q a.toNat l) (rf.Q b.toNat l)), []) })).Holds (e.1 d a b)) ∧
  (∀ e ∈ identities, ∀ d, (laneClaim (plain { role := .vector, vw := [d.toNat] }) (fun g _ =>
    { prim := [], accept := fun _ => true, resTag := fun _ => 0, dst := .vec d.toNat,
      f := fun _ _ l _ => (BitVec.ofNat 32 (e.2 g l), []) })).Holds (e.1 d)) ∧
  (∀ d a b, AllHold (.vma d a b) (vmaClaims d a b)) ∧ (∀ d a b, AllHold (.vmad d a b) (vmadClaims d a b)) ∧
  (∀ n d a b, AllHold (.vsel n d a b) (vselClaims n d a b)) ∧ (∀ d a b, AllHold (.vshl d a b) (vshlClaims d a b)) ∧
  (∀ d a b, AllHold (.vshr d a b) (vshrClaims d a b)) ∧ (∀ d a b, AllHold (.vbfe d a b) (vbfeClaims d a b)) ∧
  (∀ d a b, AllHold (.vbfi d a b) (vbfiClaims d a b)) ∧ (∀ d a b, AllHold (.vdot2 d a b) (vdot2Claims d a b)) ∧
  (∀ d a b, AllHold (.vdot4 d a b) (vdot4Claims d a b)) ∧ (∀ k q a b, AllHold (.vcmp k q a b) (vcmpClaims k q a b)) ∧
  (∀ k q a b, AllHold (.vcmpa k q a b) (vcmpaClaims k q a b)) ∧ (∀ k q a b, AllHold (.vcmpo k q a b) (vcmpoClaims k q a b)) ∧
  (∀ t d a, AllHold (.vretag t d a) (vretagClaims t d a)) ∧ (∀ d a, AllHold (.vmov d a) (vmovClaims d a)) ∧
  (∀ d n, AllHold (.vmovs d n) (vmovsClaims d n)) ∧ (∀ d i, AllHold (.vli d i) (vliClaims d i)) ∧
  (∀ d, AllHold (.vactive d) (vactiveClaims d)) ∧ (∀ d a r, AllHold (.vround d a r) (vroundClaims d a r)) ∧
  (∀ d a, AllHold (.vclass d a) (vclassClaims d a)) ∧ (∀ d a, AllHold (.vnot d a) (vnotClaims d a)) ∧
  (∀ k a, AllHold (.xset k a) (xsetClaims k a)) ∧ (∀ k i, AllHold (.xadd k i) (xaddClaims k i)) ∧
  (∀ b l, AllHold (.xwin b l) (xwinClaims b l)) ∧ (∀ d a k, AllHold (.vrand d a k) (vrandClaims d a k)) ∧
  (∀ d a k, AllHold (.vrandu d a k) (vranduClaims d a k))

/-- R210 to R214, R146: the cross-lane words, where no lane of their partitions faults and no injection is armed, write what the
partition gives each lane or uniform register, and the words go on. -/
def Obligations.CrossLaneWordsExchangePartitions : Prop :=
  (∀ e ∈ shuffles, ∀ d a, (crossClaim (fun _ _ run =>
      { vecUses1 d a with hopnd := .needs, bad := e.2.1 && !(run.hop == 0x8F || decide (0xC0 ≤ run.hop)) })
    (fun g run => shuffleOp e.2.2 d a g run)).Holds (e.1 d a)) ∧
  (∀ e ∈ reductions, ∀ d a (q : BitVec 2) (u : BitVec 1), (crossClaim (fun c g _ => reduceUses d a u c g) (fun g run => reduceOp e.2 d a q u g run)).Holds (e.1 d a q u)) ∧
  (∀ e ∈ scans, ∀ d a (q : BitVec 2) (x : BitVec 1), (crossClaim (plain (vecUses1 d a)) (fun g run =>
    { srcs := [a.toNat], qual := if q = 0 then none else some q.toNat, accept := e.2.accepts, resTag := id, size := 2 ^ g.part,
      vdst := [d.toNat], marksEmpty := true, unit := e.2.units, identity := e.2.identWord,
      f := scanPart e.2 (x == 1) g run a (2 ^ g.part) })).Holds (e.1 d a q x)) ∧
  (∀ d a, AllHold (.vvoteany d a) (vvoteanyClaims d a)) ∧ (∀ d a, AllHold (.vvoteall d a) (vvoteallClaims d a)) ∧
  (∀ d a, AllHold (.vballot d a) (vballotClaims d a)) ∧ (∀ n d a, AllHold (.vzip n d a) (vzipClaims n d a)) ∧
  (∀ n d a, AllHold (.vunzip n d a) (vunzipClaims n d a)) ∧ (∀ t r sg d a, AllHold (.vcvt t r sg d a) (vcvtClaims t r sg d a))

/-- R86, R218 to R226, R234, R239, R298 to R300: a load, store or atomic of translated space issues its operation and waits for
translation; one of scratch, sync or tile space is over at once; once every lane is translated, the word goes on. -/
def Obligations.MemoryWordsIssueAndGoOn : Prop :=
  (∀ t w d a p, (load t w d a p false).Translates (.ld t w d a p) ∧ (load t w d a p false).GoesOn (.ld t w d a p) ∧
    (load t w d a p false).resumes.Holds (.ld t w d a p)) ∧
  (∀ t w d a p, (store t w d a p false).Translates (.st t w d a p) ∧ (store t w d a p false).GoesOn (.st t w d a p) ∧
    (store t w d a p false).resumes.Holds (.st t w d a p)) ∧
  (∀ t w d a p, (load t w d a p true).GoesOn (.lds t w d a p)) ∧ (∀ t w d a p, (store t w d a p true).GoesOn (.sts t w d a p)) ∧
  (∀ d p, (uniformLoad d p false).Translates (.ldu d p) ∧ (uniformLoad d p false).GoesOn (.ldu d p) ∧
    (uniformLoad d p false).resumes.Holds (.ldu d p)) ∧
  (∀ d p, (uniformStore d p false).Translates (.stu d p) ∧ (uniformStore d p false).GoesOn (.stu d p) ∧
    (uniformStore d p false).resumes.Holds (.stu d p)) ∧
  (∀ d p, (uniformLoad d p true).GoesOn (.ldsu d p)) ∧ (∀ d p, (uniformStore d p true).GoesOn (.stsu d p)) ∧
  (∀ o w d a p, (atomic (.atom o.toNat) w d a p).Translates (.atom o w d a p) ∧ (atomic (.atom o.toNat) w d a p).resumes.Holds (.atom o w d a p)) ∧
  (∀ o w d a p, (atomic (.atomn o.toNat) w d a p).Translates (.atomn o w d a p) ∧
    (atomic (.atomn o.toNat) w d a p).resumes.Holds (.atomn o w d a p))

/-- R247, R250: PREF and PROBE are over at once, with an operation whose lanes have their addresses to translate; a prefetch is
observed by no flag. FENCE, INVL1, INVPG (R248, R249, R251). -/
def Obligations.FencesProbesAndPrefetchesIssue : Prop :=
  (∀ (x : Access) (i : Instr), (∃ t a p, x = { kind := .pref, tag := t.toNat, a := a.toNat, p := p.toNat } ∧ i = .pref t a p) ∨
      (∃ d a p, x = { kind := .probe, tag := 1, d := d.toNat, a := a.toNat, p := p.toNat } ∧ i = .probe d a p) →
    ∀ s c g k run t, x.Starts s c g k run t → ∃ y o h q r, exec i s = .next y ∧ y.cur = none ∧
      y.ops.find s.opCtr = some o ∧ o.body = .mem (x.opOf t c g run) ∧ (x.kind = .pref → o.flag = none) ∧
      y.curGroup? c = some h ∧ h.rf = g.rf ∧ h.gang? c.gang = some q ∧ q.wait = .none ∧ q.run = some r ∧ r.off = run.off + 1 ∧ SameMemory s y) ∧
  (AllHold .fence fenceClaims) ∧ (AllHold .invl1 invl1Claims) ∧ (∀ a b, AllHold (.invpg a b) (invpgClaims a b))

/-- R287 to R316: the slices' words hand their operations over where their operands, ranges and descriptors are as the rules ask. -/
def Obligations.SliceWordsHandTheirOperationsOver : Prop :=
  (∀ a n, AllHold (.cmlr a n) (cmlrClaims a n)) ∧ (∀ d a n, AllHold (.cmls d a n) (cmlsClaims d a n)) ∧
  (∀ a b, AllHold (.seal a b) (sealClaims a b)) ∧ (∀ a b, AllHold (.unseal a b) (unsealClaims a b)) ∧
  (∀ d a, AllHold (.wobseal d a) (wobsealClaims d a)) ∧ (∀ a, AllHold (.wobrel a) (wobrelClaims a)) ∧
  (∀ a b, AllHold (.discard a b) (discardClaims a b)) ∧ (∀ a b, AllHold (.flush a b) (flushClaims a b)) ∧
  (∀ d a, AllHold (.vcquery d a) (vcqueryClaims d a)) ∧ (∀ a, AllHold (.vcdef a) (vcdefClaims a)) ∧
  (∀ a, AllHold (.vcresize a) (vcresizeClaims a)) ∧ (∀ a, AllHold (.vcresizeMove a) (vcresizeMoveClaims a))

/-- R258 to R264, R269, R273 to R275: the words of the bank switch, its sync words and its rings. -/
def Obligations.BankWordsMoveBanksAndSignals : Prop :=
  (∀ d sg, AllHold (.btake d sg) (btakeClaims d sg)) ∧ (∀ sg, AllHold (.bfree sg) (bfreeClaims sg)) ∧
  (∀ p co sg, AllHold (.bgive p co sg) (bgiveClaims p co sg)) ∧ (∀ d p sg, AllHold (.bopen d p sg) (bopenClaims d p sg)) ∧
  (∀ l sg, AllHold (.bdrain l sg) (bdrainClaims l sg)) ∧ (∀ d o sg, AllHold (.bquery d o sg) (bqueryClaims d o sg)) ∧
  (∀ x a, AllHold (.swinit x a) (swinitClaims x a)) ∧ (∀ x a, AllHold (.swadd x a) (swaddClaims x a)) ∧
  (∀ d x, AllHold (.swwait d x) (swwaitClaims d x)) ∧ (∀ d x, AllHold (.swread d x) (swreadClaims d x)) ∧
  (∀ d a, AllHold (.ringdef d a) (ringdefClaims d a)) ∧ (∀ r a, AllHold (.send r a) (sendClaims r a)) ∧
  (∀ r a, AllHold (.ringack r a) (ringackClaims r a)) ∧ (∀ d r, AllHold (.ringwait d r) (ringwaitClaims d r))

/-- R320 to R325, R328, R335: data instructions queue their copies, and CSEAL, CWAIT and CSTAT work on batches. -/
def Obligations.CopyWordsQueueTheirCopies : Prop :=
  (∀ a, AllHold (.copy a) (copyClaims a)) ∧ (∀ a, AllHold (.copy2d a) (copy2dClaims a)) ∧
  (∀ a, AllHold (.cgath a) (cgathClaims a)) ∧ (∀ a, AllHold (.cscat a) (cscatClaims a)) ∧
  (∀ a, AllHold (.cfill a) (cfillClaims a)) ∧ (∀ a, AllHold (.rput a) (rputClaims a)) ∧
  (∀ a, AllHold (.rget a) (rgetClaims a)) ∧ (∀ d a, AllHold (.ratom d a) (ratomClaims d a)) ∧
  (∀ b, AllHold (.cseal b) (csealClaims b)) ∧ (∀ d k b, AllHold (.cwait d k b) (cwaitClaims d k b)) ∧
  (∀ d b, AllHold (.cstat d b) (cstatClaims d b))

/-- R357 to R359: QKICK, LAUNCH, QWAIT, the stage rings and ROLEQ. -/
def Obligations.QueueAndStageWordsWork : Prop :=
  (∀ a, AllHold (.qkick a) (qkickClaims a)) ∧ (∀ d a, AllHold (.launch d a) (launchClaims d a)) ∧
  (∀ a, AllHold (.qwait a) (qwaitClaims a)) ∧ (∀ r a, AllHold (.stageinit r a) (stageinitClaims r a)) ∧
  (∀ r k, AllHold (.stagearv r k) (stagearvClaims r k)) ∧ (∀ r h k, AllHold (.stagewt r h k) (stagewtClaims r h k)) ∧
  (∀ d r, AllHold (.roleq d r) (roleqClaims d r))

/-- R362 to R365: PREEMPT, CTXSAVE and CTXLOAD act on the named team or cluster and return a code. -/
def Obligations.PreemptActsOnTeamsAndClusters : Prop :=
  (∀ d a, AllHold (.preemptSuspend d a) (preemptSuspendClaims d a)) ∧
  (∀ d a, AllHold (.preemptResume d a) (preemptResumeClaims d a)) ∧
  (∀ d a, AllHold (.preemptEvict d a) (preemptEvictClaims d a)) ∧
  (∀ d a, AllHold (.preemptTerminate d a) (preemptTerminateClaims d a)) ∧
  (∀ d a, AllHold (.preemptSysresume d a) (preemptSysresumeClaims d a)) ∧
  (∀ d a, AllHold (.preemptCldrain d a) (preemptCldrainClaims d a)) ∧
  (∀ d a, AllHold (.preemptClopen d a) (preemptClopenClaims d a)) ∧
  (∀ d a, AllHold (.preemptCloff d a) (preemptCloffClaims d a)) ∧ (∀ d a, AllHold (.ctxsave d a) (ctxsaveClaims d a)) ∧
  (∀ d a, AllHold (.ctxload d a) (ctxloadClaims d a))

/-- R338, R340: WEXPORT defines a window, WREVOKE closes one. -/
def Obligations.WindowsAreExportedAndRevoked : Prop :=
  (∀ d a, AllHold (.wexport d a) (wexportClaims d a)) ∧ (∀ a, AllHold (.wrevoke a) (wrevokeClaims a))

/-- R371 to R398: matrix words hand their operations over where the group holds the tile and their operands are as the rules ask. -/
def Obligations.MatrixWordsIssue : Prop :=
  (∀ n a, AllHold (.mcfg n a) (mcfgClaims n a)) ∧ (∀ n a b sg, AllHold (.mmp n a b sg) (mmpClaims n a b sg)) ∧
  (∀ n a b sg, AllHold (.mmpb n a b sg) (mmpbClaims n a b sg)) ∧ (∀ n a b sg, AllHold (.mmpg n a b sg) (mmpgClaims n a b sg)) ∧
  (∀ n, AllHold (.mzero n) (mzeroClaims n)) ∧ (∀ n a, AllHold (.tokpass n a) (tokpassClaims n a)) ∧
  (∀ n, AllHold (.tokwait n) (tokwaitClaims n)) ∧ (∀ n d r h, AllHold (.tread n d r h) (treadClaims n d r h)) ∧
  (∀ n a r h, AllHold (.twrite n a r h) (twriteClaims n a r h)) ∧
  (∀ n d k f h, AllHold (.tchk n d k f h) (tchkClaims n d k f h)) ∧ (∀ n a h, AllHold (.mdrain n a h) (mdrainClaims n a h))

/-- R401 to R410, R421: the words of recovery blocks and conversations. -/
def Obligations.RecoveryWordsOpenTestAndJudge : Prop :=
  (∀ l e, AllHold (.ensure l e) (ensureClaims l e)) ∧ (∀ o, AllHold (.elseby o) (elsebyClaims o)) ∧
  (AllHold .elseerr elseerrClaims) ∧ (∀ q, AllHold (.verdict q) (verdictClaims q)) ∧
  (∀ k, AllHold (.rbfail k) (rbfailClaims k)) ∧ (∀ d, AllHold (.rbstat d) (rbstatClaims d)) ∧
  (∀ a, AllHold (.convjoin a) (convjoinClaims a))

/-- R449, R450: CMPSTAT reads the compare engine's counts; CMPPOINT completes. -/
def Obligations.CompareWordsReport : Prop :=
  (∀ d, AllHold (.cmpstat d) (cmpstatClaims d)) ∧ (∀ a sg n, AllHold (.cmppoint a sg n) (cmppointClaims a sg n))

/-- R480 to R486: the words on link groups. -/
def Obligations.LinkWordsControlTheGroups : Prop :=
  (∀ a g, AllHold (.lnkpark a g) (lnkparkClaims a g)) ∧ (∀ a g, AllHold (.lnkwake a g) (lnkwakeClaims a g)) ∧
  (∀ d g, AllHold (.lnkstat d g) (lnkstatClaims d g)) ∧ (∀ a g, AllHold (.slotld a g) (slotldClaims a g)) ∧
  (∀ g, AllHold (.slotsw g) (slotswClaims g)) ∧ (∀ a g, AllHold (.lnkthr a g) (lnkthrClaims a g)) ∧
  (∀ g, AllHold (.lnkretrain g) (lnkretrainClaims g))

/-- R219 to R236, R250: what LOAD_REPLY does where a lane's bytes are at hand. -/
def Obligations.LoadsBindTheirBytes : Prop :=
  (AllTake .loadReply loadReplyClaims)

/-- R45 to R58, R228 to R234, R269, R300: the way of a block from its group's FIFO over the merge point to where it is performed. -/
def Obligations.BlocksMergeAndArePerformed : Prop :=
  (AllTake .storeBlockMerge storeBlockMergeClaims) ∧ (AllTake .storeAcknowledge storeAcknowledgeClaims) ∧
  (AllTake .commutativeFlush commutativeFlushClaims)

/-- R86: an operation completes when its effect is over. -/
def Obligations.OperationsComplete : Prop :=
  (AllTake .longLatencyCompletion longLatencyCompletionClaims)

/-- R226, R236 to R245, R286, R294, R297, R303. -/
def Obligations.SlicesAndWalksGoOn : Prop :=
  (AllTake .translationWalk translationWalkClaims) ∧ (AllTake .pageMonitorWake pageMonitorWakeClaims) ∧
  (AllTake .walkRetryTimer walkRetryTimerClaims) ∧ (AllTake .sectorFillReturn sectorFillReturnClaims) ∧
  (AllTake .lineHandover lineHandoverClaims) ∧ (AllTake .shareClearingDone shareClearingDoneClaims) ∧
  (AllTake .sliceRetentionEntry sliceRetentionEntryClaims) ∧ (AllTake .sliceRetentionExitDone sliceRetentionExitDoneClaims) ∧
  (AllTake .cmlrReservationTimeout cmlrReservationTimeoutClaims)

/-- R256, R261, R267, R274. -/
def Obligations.BanksAndRingsGoOn : Prop :=
  (AllTake .bankZeroingDone bankZeroingDoneClaims) ∧ (AllTake .bankRetentionEntry bankRetentionEntryClaims) ∧
  (AllTake .bankRetentionExitDone bankRetentionExitDoneClaims) ∧ (AllTake .giveLand giveLandClaims) ∧
  (AllTake .ringMessageDelivery ringMessageDeliveryClaims) ∧ (AllTake .sendRefusal sendRefusalClaims)

/-- R322 to R326, R339. -/
def Obligations.CopiesMoveAndFinish : Prop :=
  (AllTake .copyTransfer copyTransferClaims) ∧ (AllTake .syncWordRaise syncWordRaiseClaims) ∧
  (AllTake .copyFinish copyFinishClaims) ∧ (AllTake .remoteOperationTimeout remoteOperationTimeoutClaims)

/-- R331 to R340. -/
def Obligations.FabricPacketsAreAnswered : Prop :=
  (AllTake .gftPut gftPutClaims) ∧ (AllTake .gftGetRequest gftGetRequestClaims) ∧
  (AllTake .gftAtomicRequest gftAtomicRequestClaims) ∧ (AllTake .gftGetReply gftGetReplyClaims) ∧
  (AllTake .gftAtomicReply gftAtomicReplyClaims) ∧ (AllTake .gftAcknowledgement gftAcknowledgementClaims) ∧
  (AllTake .gftRefusal gftRefusalClaims) ∧ (AllTake .gftRetransmit gftRetransmitClaims) ∧
  (AllTake .keyEpochInstall keyEpochInstallClaims) ∧ (AllTake .managementFrame managementFrameClaims)

/-- R345 to R348, R447, R479, R503. -/
def Obligations.DeviceWritesTakeEffect : Prop :=
  (∀ a bs, AllTake .kickWrite (kickWriteClaims a bs)) ∧ (∀ k a bs, AllTake .contextDefine (contextDefineClaims k a bs)) ∧
  (∀ k a bs, AllTake .contextDestroy (contextDestroyClaims k a bs)) ∧ (∀ k a bs, AllTake .contextRecordWrite (contextRecordWriteClaims k a bs)) ∧
  (∀ i a bs, AllTake .queueDefine (queueDefineClaims i a bs)) ∧ (∀ i a bs, AllTake .queueUndefine (queueUndefineClaims i a bs)) ∧
  (∀ i a bs, AllTake .queueEntryWrite (queueEntryWriteClaims i a bs)) ∧
  (∀ a bs, AllTake .injectionPortWrite (injectionPortWriteClaims a bs)) ∧ (∀ g c a bs, AllTake .clsresWrite (clsresWriteClaims g c a bs)) ∧
  (∀ k j a bs, AllTake .registerWrite (registerWriteClaims k j a bs)) ∧
  (AllTake .kickWrite (deviceWrite [.kick])) ∧ (AllTake .contextDefine (deviceWrite [.ctxDefine])) ∧
  (AllTake .contextDestroy (deviceWrite [.ctxDestroy])) ∧ (AllTake .contextRecordWrite (deviceWrite [.ctxRecord])) ∧
  (AllTake .queueDefine (deviceWrite [.queueDefine])) ∧ (AllTake .queueUndefine (deviceWrite [.queueUndefine])) ∧
  (AllTake .queueEntryWrite (deviceWrite [.queueEntry])) ∧ (AllTake .injectionPortWrite (deviceWrite [.injection])) ∧
  (AllTake .clsresWrite (deviceWrite [.clsres])) ∧ (AllTake .registerWrite (deviceWrite [.register, .memory])) ∧
  (AllTake .contextDestructionDone contextDestructionDoneClaims)

/-- R118, R349 to R352. -/
def Obligations.CommandRecordsStartAndComplete : Prop :=
  (AllTake .nopRecord nopRecordClaims) ∧ (AllTake .waitRecord waitRecordClaims) ∧ (AllTake .launchRecord launchRecordClaims) ∧
  (AllTake .loadRecord loadRecordClaims) ∧ (AllTake .commandRecordComplete commandRecordCompleteClaims)

/-- R175 to R184, R192, R353, R354, R362, R363, R493, R494. -/
def Obligations.TeamsArePlacedWatchedAndRetired : Prop :=
  (AllTake .teamPlacement teamPlacementClaims) ∧ (AllTake .groupRetire groupRetireClaims) ∧
  (AllTake .teamRetire teamRetireClaims) ∧ (AllTake .growDeadlockEviction growDeadlockEvictionClaims) ∧
  (AllTake .sleepExpiry sleepExpiryClaims) ∧ (AllTake .groupWatchdogExpiry groupWatchdogExpiryClaims) ∧
  (AllTake .clusterWatchdogFire clusterWatchdogFireClaims) ∧
  (AllTake .commandCoreWatchdogExpiry commandCoreWatchdogExpiryClaims) ∧
  (AllTake .suspensionLimitExpiry suspensionLimitExpiryClaims) ∧
  (AllTake .ringClusterWaitTimeout ringClusterWaitTimeoutClaims) ∧ (AllTake .barrierComplete barrierCompleteClaims) ∧
  (AllTake .barpGenerationComplete barpGenerationCompleteClaims)

/-- R376 to R380, R387. -/
def Obligations.MatrixOperationsGoOn : Prop :=
  (AllTake .tokenHandover tokenHandoverClaims) ∧ (AllTake .matrixAccumulation matrixAccumulationClaims)

/-- R407, R418, R421, R422. -/
def Obligations.LevelsRollBackAndConversationsGoOn : Prop :=
  (AllTake .levelRollback levelRollbackClaims) ∧ (AllTake .cycleLimitExpiry cycleLimitExpiryClaims) ∧
  (AllTake .conversationFormation conversationFormationClaims) ∧ (AllTake .conversationCommit conversationCommitClaims) ∧
  (AllTake .conversationJointFailure conversationJointFailureClaims)

/-- R432, R434, R436, R440. -/
def Obligations.CompareEventsMeet : Prop :=
  (AllTake .compareMatch compareMatchClaims) ∧ (AllTake .compareWaitTimeout compareWaitTimeoutClaims) ∧
  (AllTake .trailingCopyStart trailingCopyStartClaims)

/-- R452 to R478. -/
def Obligations.OpticalSlotsCarryTheirWork : Prop :=
  (AllTake .readBundleSlot readBundleSlotClaims) ∧ (AllTake .writeSlot writeSlotClaims) ∧
  (AllTake .maintenanceSlot maintenanceSlotClaims) ∧ (AllTake .readReplySlot readReplySlotClaims) ∧
  (AllTake .acknowledgementSlot acknowledgementSlotClaims) ∧ (AllTake .zeroMapBackgroundClear zeroMapBackgroundClearClaims) ∧
  (AllTake .superframeBoundary superframeBoundaryClaims) ∧ (AllTake .laneLossOfLock laneLossOfLockClaims) ∧
  (AllTake .slotCheckFailure slotCheckFailureClaims) ∧ (AllTake .linkstallTimeout linkstallTimeoutClaims) ∧
  (AllTake .linkdown linkdownClaims) ∧ (AllTake .linkLive linkLiveClaims)

/-- R194, R232, R268, R285, R454, R494 to R502. -/
def Obligations.ManagementStepsTakeEffect : Prop :=
  (AllTake .moduleReset moduleResetClaims) ∧ (AllTake .attestationRequest attestationRequestClaims) ∧
  (AllTake .foxglovePackageLoad foxglovePackageLoadClaims) ∧ (AllTake .inFieldScan inFieldScanClaims) ∧
  (AllTake .thermalThrottle thermalThrottleClaims) ∧ (AllTake .thermalThrottleRelease thermalThrottleReleaseClaims) ∧
  (AllTake .thermalShutdown thermalShutdownClaims) ∧ (AllTake .thermalPowerRemoval thermalPowerRemovalClaims) ∧
  (AllTake .storageBitError storageBitErrorClaims)

/-- R93, R106, R188. -/
def Obligations.BreakpointsAndReservedWordsTrap : Prop :=
  Stands .brk (fun _ _ k _ => k.run.all (fun r => r.hopnd.isNone && r.mpfx.isNone)) (fun c g k s =>
    deliver (s.takeSlot c) c.team c.group c.gang (eventRecordOf g c 3 0 c.addr 0 k.run.isSome)) ∧
  Stands .brk (fun _ _ k _ => k.run.any (fun r => r.hopnd.isSome || r.mpfx.isSome))
    (fun c _ _ s => wordFaults c s { code := 0x03, lanes := c.lanes } s) ∧
  Stands .reservedWord (fun _ _ k _ => k.run.isSome) (fun c _ _ s => wordFaults c s { code := 0x01, lanes := c.lanes } s) ∧
  Stands .reservedWord (fun c _ k _ => k.run.isNone && natBits c.word.toNat 26 6 == 1)
    (fun c _ _ s => takeFault s c false { code := 0x01, lanes := c.lanes }) ∧
  Stands .reservedWord (fun c _ k _ => k.run.isNone && natBits c.word.toNat 26 6 != 1)
    (fun c g _ s => takeFault s { c with addr := match g.units.filter (fun u => c.units.contains (u.1, u.2.1)) with
        | u :: _ => u.2.2.via
        | [] => c.addr } false { code := 0x04, datum := 5, lanes := c.lanes, faddr := c.addr })

/-- R18, R76, R105: PRIV is found before ROLE, OPERAND, RUNFORM and RUNHAZARD. -/
def Obligations.PrivilegedWordsTrapInUserMode : Prop :=
  (∀ a, NeedsSystemMode (.errinj a)) ∧ NeedsSystemMode .halt ∧ (∀ x, NeedsSystemMode (.eret x)) ∧
  (∀ a b, NeedsSystemMode (.invpg a b)) ∧ (∀ a, NeedsSystemMode (.vcdef a)) ∧ (∀ a, NeedsSystemMode (.vcresize a)) ∧
  (∀ a, NeedsSystemMode (.vcresizeMove a)) ∧ (∀ d a, NeedsSystemMode (.preemptSuspend d a)) ∧ (∀ d a, NeedsSystemMode (.preemptResume d a)) ∧
  (∀ d a, NeedsSystemMode (.preemptEvict d a)) ∧ (∀ d a, NeedsSystemMode (.preemptTerminate d a)) ∧
  (∀ d a, NeedsSystemMode (.preemptSysresume d a)) ∧ (∀ d a, NeedsSystemMode (.preemptCldrain d a)) ∧
  (∀ d a, NeedsSystemMode (.preemptClopen d a)) ∧ (∀ d a, NeedsSystemMode (.preemptCloff d a)) ∧ (∀ d a, NeedsSystemMode (.ctxsave d a)) ∧
  (∀ d a, NeedsSystemMode (.ctxload d a)) ∧ (∀ d a, NeedsSystemMode (.wexport d a)) ∧ (∀ a, NeedsSystemMode (.wrevoke a)) ∧
  (∀ a g, NeedsSystemMode (.lnkpark a g)) ∧ (∀ a g, NeedsSystemMode (.lnkwake a g)) ∧
  (∀ d g, NeedsSystemMode (.lnkstat d g)) ∧ (∀ a g, NeedsSystemMode (.slotld a g)) ∧ (∀ g, NeedsSystemMode (.slotsw g)) ∧
  (∀ a g, NeedsSystemMode (.lnkthr a g)) ∧ (∀ g, NeedsSystemMode (.lnkretrain g)) ∧
  (∀ n a, [0x09, 0x1A, 0x1B, 0x1C].contains n.toNat = true → NeedsSystemMode (.wrsr n a))

/-- R76 steps 4 and 6, R79, R90. -/
def Obligations.UniformWordsAreCheckedInOrder : Prop :=
  (∀ e ∈ scalar3, ∀ d a b, ChecksUniform (e.1 d a b) [a.toNat, b.toNat] [d.toNat]) ∧
  (∀ e ∈ scalar2, ∀ d a, ChecksUniform (e.1 d a) [a.toNat] [d.toNat]) ∧
  (∀ d a b, ChecksUniform (.ssel d a b) [a.toNat, b.toNat, d.toNat] [d.toNat]) ∧ (∀ d i, ChecksUniform (.sli d i) [] [d.toNat]) ∧
  (∀ d i, ChecksUniform (.sliu d i) [] [d.toNat]) ∧ (∀ d i, ChecksUniform (.slih d i) [d.toNat] [d.toNat]) ∧
  (∀ d i, ChecksUniform (.saddi d i) [d.toNat] [d.toNat]) ∧ (∀ h a, ChecksUniform (.smovh h a) [a.toNat] [256 + h.toNat]) ∧
  (∀ d h, ChecksUniform (.smovl d h) [256 + h.toNat] [d.toNat])

/-- R187, R189: a fault outside every level, with a vector and a record address and no handler running, is taken: the record goes to the
record address through the group's FIFO, and the group stands at the handler. With none of the three the team ends, and the record is
posted, with DOUBLE where a handler was running. -/
def Obligations.FaultsAreDelivered : Prop :=
  (∀ s t g gang r l s1, s.teams.find t.id = some t → t.group? g.id = some g → r.group = g.id → (g.sysmode = true → g.shadow = none) →
    t.trapvec ≠ 0 → g.intrap = false → g.recordAddr ≠ 0 → t.copy = .only →
    translate s g.core t.ctx g.recordAddr .store = (.ok l, s1) →
    ∃ h, (deliver s t.id g.id gang r).group? t.id g.id = some h ∧ TrapEntered t g h gang r.lanes r.iaddr ∧
      h.fifo = g.fifo ++ [recordBlock t l g.recordAddr r s1.opCtr s1.clock]) ∧
  (∀ s t g gang r, s.teams.find t.id = some t → t.group? g.id = some g → (g.sysmode = true → g.shadow = none) →
    (t.trapvec = 0 ∨ g.intrap = true ∨ g.recordAddr = 0) →
    deliver s t.id g.id gang r = terminateTeam (postTeam (s.onGroup t.id g.id (fun x => x.onGang gang (fun k => { k with wait := .halted })))
      t 0 { r with double := g.intrap }) t.id) ∧
  (∀ s t g gang r, s.teams.find t.id = some t → t.group? g.id = some g → g.sysmode = true → g.shadow.isSome = true →
    (deliver s t.id g.id gang r).mgmt.halted = insertRising s.mgmt.halted t.core ∧ (deliver s t.id g.id gang r).teams = s.teams)

/-- R185: the 32 bytes of a fault record. -/
def Obligations.FaultRecordsHaveTheirLayout : Prop :=
  ∀ r : Record, r.code < 256 → r.kind < 256 → r.toBytes.length = 32 ∧ leVal (r.toBytes.take 1) = r.code ∧
    leVal ((r.toBytes.drop 1).take 1) = r.kind ∧
    leVal ((r.toBytes.drop 2).take 1) = (if r.inrun then 1 else 0) + (if r.replay then 2 else 0) + (if r.sysmode then 4 else 0) +
      (if r.double then 8 else 0) ∧
    leVal ((r.toBytes.drop 3).take 1) = 0 ∧ leVal ((r.toBytes.drop 4).take 2) = r.group % 2 ^ 16 ∧
    leVal ((r.toBytes.drop 6).take 2) = r.num % 2 ^ 16 ∧ leVal ((r.toBytes.drop 8).take 8) = r.iaddr.toNat ∧
    leVal ((r.toBytes.drop 16).take 8) = r.lanes.toNat ∧ leVal ((r.toBytes.drop 24).take 8) = r.faddr.toNat

/-- R406: inside a level UNCORR, DATAPATH, CHECKSUM, RBOVERFLOW, TAGMISMATCH and ARITH fail the innermost level in place of a trap, and
the group stops; any other fault is delivered. -/
def Obligations.LevelsTakeEligibleFaults : Prop :=
  ∀ s c t g inrun f, s.teams.find c.team = some t → s.curGroup? c = some g →
    ([0x17, 0x21, 0x19, 0x1C, 0x05, 0x09].contains f.code = true → t.levels ≠ [] → t.fail = none →
      ∃ u, (takeFault s c inrun f).teams.find c.team = some u ∧ u.fail = some ⟨t.levels.length, 2, f.code, g.id, false⟩ ∧
        ∀ h ∈ u.groups, h.id = c.group → ∀ k ∈ h.gangs, k.wait = .members) ∧
    (f.code ≠ 0x1A → (t.levels = [] ∨ [0x17, 0x21, 0x19, 0x1C, 0x05, 0x09].contains f.code = false) →
      takeFault s c inrun f = deliver s c.team c.group c.gang
        { code := f.code, kind := 0, inrun := inrun, replay := f.replay, sysmode := g.sysmode, double := false, group := g.id,
          num := f.datum, iaddr := c.addr, lanes := f.lanes, faddr := f.faddr })


/-- R8, R79, R82, R152, R205, R215: a register holds what was written to it last, and a write to one register leaves the others alone; q7
reads true and discards what is written to it. A written vector register has its residue (R194). -/
def Obligations.RegistersHoldWhatIsWritten : Prop :=
  (∀ (rf : RegFile) r w, (rf.setS r w).S r = w ∧ (∀ i, i ≠ r → (rf.setS r w).S i = rf.S i) ∧
    (∀ i l, (rf.setS r w).V i l = rf.V i l ∧ (rf.setS r w).Q i l = rf.Q i l ∧ (rf.setS r w).X i l = rf.X i l)) ∧
  (∀ (rf : RegFile) r l w, l < 64 → (rf.setV r l w).V r l = w ∧ (rf.setV r l w).vOk r l = true ∧
    (∀ i j, j < 64 → (i ≠ r ∨ j ≠ l) → (rf.setV r l w).V i j = rf.V i j) ∧
    (∀ i j, (rf.setV r l w).S i = rf.S i ∧ (rf.setV r l w).Q i j = rf.Q i j ∧ (rf.setV r l w).X i j = rf.X i j)) ∧
  (∀ (rf : RegFile) q l b, l < 64 → (rf.setQ q l b).Q q l = (b || q == 7) ∧ (∀ i j, j < 64 → (i ≠ q ∨ j ≠ l) → (rf.setQ q l b).Q i j = rf.Q i j) ∧
    rf.Q 7 l = true ∧ (rf.setQ 7 l b) = rf) ∧
  (∀ (rf : RegFile) k l b, l < 64 → (rf.setX k l b).X k l = b ∧ (∀ i j, j < 64 → (i ≠ k ∨ j ≠ l) → (rf.setX k l b).X i j = rf.X i j))

/-- R477: a byte written to the drawer reads back, every other byte reads as before, those of a marked block as zero; a block that is
marked reads as zero, and the others as before. -/
def Obligations.DrawerReadsBackWhatIsWritten : Prop :=
  (∀ (d : Drawer) pa b, (d.write [(pa, b)]).byte pa = b ∧ ∀ q, q ≠ pa → (d.write [(pa, b)]).byte q = d.byte q) ∧
  (∀ (d : Drawer) cs q, (∀ x ∈ cs, x.1 ≠ q) → (d.write cs).byte q = d.byte q) ∧
  (∀ (d : Drawer) k q, (d.mark k).byte q = if q / 4096 = k then 0 else d.byte q)

/-- R282, R291: a write to a sector that its home slice holds, and that no level holds back, reaches the bytes that it names; every other
byte, under this VC and every other, reads as before. -/
def Obligations.HomeWritesReachTheirBytes : Prop :=
  ∀ (s : State) vc pa (bs : List Byte) cpol x, s.homes.find (homeKey vc pa) = some x → x.st ≠ .invalid → (s.vcs.find vc).isSome = true →
    pa < 2 ^ 40 → pa % 64 + bs.length ≤ 64 →
    (∀ i, i < bs.length → homeByte (putCells s vc (cellsAt pa bs) cpol) vc (pa + i) = bs.getD i 0) ∧
    (∀ v q, q < 2 ^ 40 → (v ≠ vc ∨ q < pa ∨ pa + bs.length ≤ q) → homeByte (putCells s vc (cellsAt pa bs) cpol) v q = homeByte s v q)

/-- A performed store of scratch or sync space changes the bytes of its bank that its block names, those of the bank's cells, and no other
byte of any memory (R45, R234). -/
def Obligations.BankStoresChangeTheirBytesOnly : Prop :=
  ∀ s e b t g, s.subject = e → ackOf e s = some b → s.teams.find b.team = some t → s.group? b.team b.group = some g →
    (b.space = .scratch ∨ b.space = .sync) → (s.wakeBank t.pool b.bank).1 = true → t.levels = [] →
    ∃ u, exec .storeAcknowledge s = .next u ∧
      (∀ a, (∀ x ∈ bankCells (s.wakeBank t.pool b.bank).2 t b, x.1 ≠ a) →
        Memory.read ((u.cluster t.pool).bank b.bank).mem a = Memory.read ((s.cluster t.pool).bank b.bank).mem a) ∧
      (∀ n i a, (n ≠ t.pool ∨ i ≠ b.bank) → Memory.read ((u.cluster n).bank i).mem a = Memory.read ((s.cluster n).bank i).mem a) ∧
      (∀ pa, u.drawer.byte pa = s.drawer.byte pa) ∧ (∀ vc pa, homeByte u vc pa = homeByte s vc pa) ∧
      (∀ a, Memory.read u.qmem a = Memory.read s.qmem a)

/-- The canonical form of the memories: two memories in it that read alike are the same data, and the writes of the drawer, of a bank and of
queue memory keep it. The form is the model's; that unlisted bytes read as zero is R34's and R477's. -/
def Obligations.MemoriesAreCanonical : Prop :=
  (∀ m n : Memory, Memory.wf m = true → Memory.wf n = true → (∀ a, Memory.read m a = Memory.read n a) → m = n) ∧
  (∀ (m : Memory) cs, Memory.wf m = true → Memory.wf (m.writeAll cs) = true) ∧
  (∀ (d : Drawer) cs, Memory.wf d.mem = true → Memory.wf (d.write cs).mem = true) ∧
  (∀ (x : Bank) now cs, Memory.wf x.mem = true → Memory.wf (x.write now cs).mem = true)

/-- R34, R159, R253, R346, R447, R477, R493: what module reset leaves where the spec gives a value. -/
def Obligations.ResetHoldsTheSpecsValues : Prop :=
  State.reset.clock = 0 ∧ (∀ pa, State.reset.drawer.byte pa = 0) ∧
  (∀ n b, ((State.reset.cluster n).bank b).st = .free ∧ ∀ a, Memory.read ((State.reset.cluster n).bank b).mem a = 0) ∧
  (∀ n, (State.reset.cluster n).clwd = 0x00000004 ∧ (State.reset.cluster n).bsret = 0x00010040) ∧ State.reset.susplim = 0x0400 ∧
  State.reset.inject.handle = 0 ∧ State.reset.inject.group = 0 ∧ State.reset.inject.ctx = 0 ∧ State.reset.inject.status = 0 ∧
  State.reset.teams = [] ∧ State.reset.mgmt.booted = 0 ∧
  (∀ rf r l, rf = RegFile.reset → r < 136 → rf.V r l = 0 ∧ rf.vOk r l = true ∧ rf.S r = 0 ∧ rf.X r l = 0 ∧ (r ≠ 7 → rf.Q r l = false))

/-- The memories of the state after reset are in canonical form. -/
def Obligations.ResetMemoriesAreCanonical : Prop := State.reset.memWf = true

/-- Every step keeps the memories in canonical form. -/
def Obligations.StepsKeepMemoriesCanonical : Prop := ∀ s t, s.memWf = true → Machine.step s = .next t → t.memWf = true

/-- Where a scheduler picks a gang inside a run, the step is that of the instruction that the run's word decodes to, issued by the run's
units for their lanes; the turn of an event is the step of that event; a module without power stops (R6, R23, R75, R84, R94, R502). -/
def Obligations.StepsRunTheDecodedWord : Prop :=
  (∀ s dt core half rest t g k r i, s.agenda = ⟨dt, .scheduler core half⟩ :: rest →
    RunsWord (turnBegins s ⟨dt, .scheduler core half⟩ rest) t g k r i →
    pickGang (turnBegins s ⟨dt, .scheduler core half⟩ rest) core half = some (t.id, g.id, k.id) →
    gangReady { turnBegins s ⟨dt, .scheduler core half⟩ rest with agenda := ⟨0, .scheduler core half⟩ :: rest } t g k = true →
    Machine.step s = exec i { gangBegins (turnBegins s ⟨dt, .scheduler core half⟩ rest) core half t g k with cur := some (runIssuer t g k r) }) ∧
  (∀ s i e dt rest, s.mgmt.powered = true → s.agenda = ⟨dt, .event i e⟩ :: rest →
    Machine.step s = exec i { turnBegins s ⟨dt, .event i e⟩ rest with subject := e, cur := none }) ∧
  (∀ s, s.mgmt.powered = false → Machine.step s = .fault .powerRemoved)

/-- Where a scheduler picks a gang at a run's start, the step is that of the word at its PC, read from memory through the context's page
tables and decoded; a word that does not decode is a reserved word (R75, R93, R106). -/
def Obligations.RunStartsRunTheFetchedWord : Prop :=
  ∀ s dt core half rest s1 t g k pc us w, s.mgmt.powered = true → s.agenda = ⟨dt, .scheduler core half⟩ :: rest →
    s1 = turnBegins s ⟨dt, .scheduler core half⟩ rest → pickGang s1 core half = some (t.id, g.id, k.id) → s1.teams.find t.id = some t →
    gangReady { s1 with agenda := ⟨0, .scheduler core half⟩ :: rest } t g k = true → t.begun = true → t.group? g.id = some g → g.gang? k.id = some k → k.run = none → g.nextUnits k = some (pc, us) → g.late = [] →
    g.atRejoin (g.units.filter (fun u => us.contains (u.1, u.2.1))) = [] →
    fetchWord (gangBegins s1 core half t g k) t.ctx (g.unitLanes us) pc = .word w →
    ∃ i, (decodeWord w.toNat = .ok i ∨ ((∀ j, decodeWord w.toNat ≠ .ok j) ∧ i = .reservedWord)) ∧
      Machine.step s = exec i { gangBegins s1 core half t g k with cur := some (startIssuer t g k pc us w) }

/-- No instruction is refused, and none stops the machine but a word without an issuer, which no turn of a gang gives. -/
def Obligations.NothingIsRefused : Prop := ∀ i s, (∃ t, exec i s = .next t) ∨ (exec i s = .fault .noIssuer ∧ i.isWord = true) ∨
  (exec i s = .fault .noIssuer ∧ i = .reservedWord)

/-- Words written out from the encodings of the spec decode to what they stand for (R78, R97 to R105). -/
def Obligations.WordsDecodeAsEncoded : Prop :=
  decodeTableWord 32 0x0402448A = some (.clause 9 1 2 5) ∧ decodeTableWord 32 0x60030102 = some (.vadd 3 1 2) ∧
  decodeTableWord 32 0x36090405 = some (.ssel 9 4 5) ∧ decodeTableWord 32 0xA0A08012 = some (.ld 2 2 8 1 2) ∧
  decodeTableWord 32 0xFFFFFFFF = some .brk ∧ decodeTableWord 32 0x00000000 = none ∧ decodeTableWord 32 0x18300000 = none

/-- Every well-formed word instruction, with every operand at every value, is what its bytes decode to, and decoding takes four bytes. -/
def Obligations.DecodingUndoesEncoding : Prop :=
  ∀ i rest, WellFormed i → decode (encode i ++ rest) = .ok (i, rest)

/-- Every word that decodes is the word of what it decodes to: no two words stand for one instruction, and no bit is dropped (R78). -/
def Obligations.EncodingUndoesDecoding : Prop :=
  ∀ w i, w < 2 ^ 32 → decodeWord w = .ok i → encodeWord i = w ∧ WellFormed i

/-- The frame of the scalar words (R155 to R157). -/
def Obligations.ScalarWordsLeaveTheRest : Prop :=
  (∀ e ∈ scalar3, ∀ d a b, FrameS (e.1 d a b) (does { sr := [(a.toNat, 1), (b.toNat, 1)], sw := [(d.toNat, 1)] }
    (onFiles (fun _ _ r => r.setS d.toNat (e.2 (r.S a.toNat) (r.S b.toNat))))) [d.toNat]) ∧
  (∀ e ∈ scalar2, ∀ d a, FrameS (e.1 d a) (does { sr := [(a.toNat, 1)], sw := [(d.toNat, 1)] }
    (onFiles (fun _ _ r => r.setS d.toNat (e.2 (r.S a.toNat))))) [d.toNat]) ∧
  (∀ e ∈ scalarPairs, ∀ d a, FrameS (e.1 d a) (does (pairUses d a)
    (onFiles (fun _ _ r => r.setS64 d.toNat (BitVec.ofNat 64 (e.2 (r.S64 d.toNat) (r.S64 a.toNat)))))) [d.toNat, d.toNat + 1]) ∧
  (∀ d a b, ∀ x ∈ smovClaims d a b, FrameS (.smov d a b) x [d.toNat]) ∧ (∀ d a x, ∀ y ∈ sbfeClaims d a x, FrameS (.sbfe d a x) y [d.toNat]) ∧
  (∀ d a, ∀ x ∈ sbfiClaims d a, FrameS (.sbfi d a) x [d.toNat]) ∧ (∀ d a b, ∀ x ∈ sselClaims d a b, FrameS (.ssel d a b) x [d.toNat]) ∧
  (∀ d i, ∀ x ∈ sliClaims d i, FrameS (.sli d i) x [d.toNat]) ∧ (∀ d i, ∀ x ∈ sliuClaims d i, FrameS (.sliu d i) x [d.toNat]) ∧
  (∀ d i, ∀ x ∈ slihClaims d i, FrameS (.slih d i) x [d.toNat]) ∧ (∀ d i, ∀ x ∈ saddiClaims d i, FrameS (.saddi d i) x [d.toNat]) ∧
  (∀ h a, ∀ x ∈ smovhClaims h a, FrameS (.smovh h a) x [256 + h.toNat]) ∧ (∀ d h, ∀ x ∈ smovlClaims d h, FrameS (.smovl d h) x [d.toNat]) ∧
  (∀ d a, ∀ x ∈ sshl64Claims d a, FrameS (.sshl64 d a) x [d.toNat, d.toNat + 1]) ∧
  (∀ d a x, ∀ y ∈ sshr64Claims d a x, FrameS (.sshr64 d a x) y [d.toNat, d.toNat + 1]) ∧
  (∀ d a x, ∀ y ∈ smulwClaims d a x, FrameS (.smulw d a x) y [d.toNat, d.toNat + 1]) ∧
  (∀ d n, n ≠ 0x0C → ∀ x ∈ rdsrClaims d n, FrameS (.rdsr d n) x [d.toNat]) ∧
  (∀ d, ∀ x ∈ rdsrClaims d 0x0C, FrameS (.rdsr d 0x0C) x [d.toNat, d.toNat + 1])

/-- The frame of the lane-local column words (R195 to R209, R217). -/
def Obligations.LaneWordsLeaveTheRest : Prop :=
  (∀ e ∈ vec3, ∀ d a b, FrameV (e.1 d a b) (laneClaim (plain (vecUses d a b)) (fun g _ =>
    { prim := [src a 1, src b 2], unit := true, accept := e.2.1, resTag := id, dst := .vec d.toNat,
      f := fun _ t _ vs => byElems (e.2.2 g.rm) t vs })) (fun _ g _ =>
    { prim := [src a 1, src b 2], unit := true, accept := e.2.1, resTag := id, dst := .vec d.toNat,
      f := fun _ t _ vs => byElems (e.2.2 g.rm) t vs })) ∧
  (∀ e ∈ vec2, ∀ d a, FrameV (e.1 d a) (laneClaim (plain (vecUses1 d a)) (fun _ _ =>
    { prim := [src a 1], unit := true, accept := e.2.1, resTag := id, dst := .vec d.toNat,
      f := fun _ t _ vs => byElems (fun t es => e.2.2 t (el es 0)) t vs })) (fun _ _ _ =>
    { prim := [src a 1], unit := true, accept := e.2.1, resTag := id, dst := .vec d.toNat,
      f := fun _ t _ vs => byElems (fun t es => e.2.2 t (el es 0)) t vs })) ∧
  (∀ e ∈ preds3, ∀ d a b, FrameV (e.1 d a b) (laneClaim (plain (predUses d a b)) (fun _ _ =>
    { prim := [], preds := [a.toNat, b.toNat], accept := fun _ => true, resTag := id, dst := .pred d.toNat,
      f := fun rf _ l _ => (boolWord (e.2 (rf.Q a.toNat l) (rf.Q b.toNat l)), []) })) (fun _ _ _ =>
    { prim := [], preds := [a.toNat, b.toNat], accept := fun _ => true, resTag := id, dst := .pred d.toNat,
      f := fun rf _ l _ => (boolWord (e.2 (rf.Q a.toNat l) (rf.Q b.toNat l)), []) }))

/-- The frame of the branches: BRS, DBR, BRX, CALL, RET and EXIT move PCs and what goes with them, and leave registers and memory
alone (R92, R169 to R175). -/
def Obligations.BranchesLeaveRegistersAndMemory : Prop :=
  (∀ q a o, ∀ x ∈ brsClaims q a o, x.ending = .jump → FrameJ (.brs q a o) x) ∧
  (∀ a, ∀ x ∈ brxClaims a, x.ending = .jump → FrameJ (.brx a) x) ∧ (∀ o, ∀ x ∈ callClaims o, x.ending = .jump → FrameJ (.call o) x) ∧
  (∀ x ∈ retClaims, x.ending = .jump → FrameJ .ret x) ∧ (∀ x ∈ exitClaims, x.ending = .jump → FrameJ .exit x) ∧
  (∀ q n t j, ∀ x ∈ dbrClaims q n t j, x.ending = .jump → FrameJ (.dbr q n t j) x)
end

