-- ==== Sys2Proof/Laws/Maps.lean ====
section
/-! SUPPORT. Laws of the finite maps and of the byte memories: read after write, and the canonical form that every memory
operation keeps. -/

namespace Sys2Proof.Machine

variable {α : Type}

/-! ## Finite maps -/

@[simp] theorem Map.find_nil (k : Nat) : Map.find ([] : Map α) k = none := rfl

@[simp] theorem Map.find_put_self (m : Map α) (k : Nat) (v : α) : (m.put k v).find k = some v := by
  induction m with
  | nil => simp [Map.put, Map.find]
  | cons e r ih =>
    obtain ⟨j, w⟩ := e
    unfold Map.put
    split
    · simp [Map.find]
    · split
      · simp [Map.find]
      · simp only [Map.find, if_neg ‹¬k = j›, ih]

@[simp] theorem Map.find_put_ne (m : Map α) {k j : Nat} (v : α) (h : j ≠ k) : (m.put k v).find j = m.find j := by
  induction m with
  | nil => simp [Map.put, Map.find, h]
  | cons e r ih =>
    obtain ⟨i, w⟩ := e
    unfold Map.put
    split
    · subst_vars; simp [Map.find, h]
    · split
      · simp [Map.find, h]
      · simp only [Map.find, ih]

theorem Map.find_filter (m : Map α) (p : Nat → Bool) (j : Nat) :
    Map.find (m.filter (fun e => p e.1)) j = if p j then m.find j else none := by
  induction m with
  | nil => simp [Map.find]
  | cons e r ih =>
    obtain ⟨i, w⟩ := e
    by_cases hi : p i <;> simp only [List.filter, hi, Map.find, ih]
    · by_cases hj : j = i
      · subst hj; simp [hi]
      · simp [hj]
    · by_cases hj : j = i
      · subst hj; simp [hi]
      · simp [hj]

@[simp] theorem Map.find_del_self (m : Map α) (k : Nat) : (m.del k).find k = none := by
  simp [Map.del, Map.find_filter m (fun j => j != k)]

@[simp] theorem Map.find_del_ne (m : Map α) {k j : Nat} (h : j ≠ k) : (m.del k).find j = m.find j := by
  simp [Map.del, Map.find_filter m (fun j => j != k), h]

@[simp] theorem Map.getD_put_self (m : Map α) (k : Nat) (v d : α) : (m.put k v).getD k d = v := by simp [Map.getD]

@[simp] theorem Map.getD_put_ne (m : Map α) {k j : Nat} (v d : α) (h : j ≠ k) : (m.put k v).getD j d = m.getD j d := by
  simp [Map.getD, h]

@[simp] theorem Map.getD_setD_self [DecidableEq α] (m : Map α) (k : Nat) (v d : α) : (m.setD k v d).getD k d = v := by
  unfold Map.setD
  split
  · simp [Map.getD, *]
  · simp [Map.getD]

@[simp] theorem Map.getD_setD_ne [DecidableEq α] (m : Map α) {k j : Nat} (v d : α) (h : j ≠ k) :
    (m.setD k v d).getD j d = m.getD j d := by
  unfold Map.setD
  split <;> simp [Map.getD, h]

theorem Map.find_adjust_self (m : Map α) (k : Nat) (f : α → α) : (m.adjust k f).find k = (m.find k).map f := by
  unfold Map.adjust
  cases h : m.find k <;> simp [h]

theorem Map.find_adjust_ne (m : Map α) {k j : Nat} (f : α → α) (h : j ≠ k) : (m.adjust k f).find j = m.find j := by
  unfold Map.adjust
  cases hk : m.find k <;> simp [h]

/-! ## Keys strictly rising -/

theorem Map.risingFrom_mono {a b : Nat} (h : a ≤ b) : ∀ m : Map α, m.risingFrom b = true → m.risingFrom a = true
  | [], _ => rfl
  | (k, v) :: r, hm => by
    simp only [Map.risingFrom, Bool.and_eq_true, decide_eq_true_eq] at hm ⊢
    exact ⟨by omega, hm.2⟩

theorem Map.risingFrom_put {b k : Nat} (v : α) (h : b ≤ k) :
    ∀ m : Map α, m.risingFrom b = true → (m.put k v).risingFrom b = true
  | [], _ => by simp [Map.put, Map.risingFrom, h]
  | (j, w) :: r, hm => by
    simp only [Map.risingFrom, Bool.and_eq_true, decide_eq_true_eq] at hm
    unfold Map.put
    split
    · subst_vars; simp [Map.risingFrom, hm.1, hm.2]
    · split
      · simp only [Map.risingFrom, Bool.and_eq_true, decide_eq_true_eq]
        exact ⟨h, by omega, hm.2⟩
      · simp only [Map.risingFrom, Bool.and_eq_true, decide_eq_true_eq]
        exact ⟨hm.1, Map.risingFrom_put v (by omega) r hm.2⟩

theorem Map.risingFrom_filter {b : Nat} (p : Nat × α → Bool) : ∀ m : Map α, m.risingFrom b = true →
    Map.risingFrom b (m.filter p) = true
  | [], _ => rfl
  | (k, v) :: r, hm => by
    simp only [Map.risingFrom, Bool.and_eq_true, decide_eq_true_eq] at hm
    have ih := Map.risingFrom_filter p r hm.2
    by_cases h : p (k, v)
    · simp [List.filter, h, Map.risingFrom, hm.1, ih]
    · simp only [List.filter, h]
      exact Map.risingFrom_mono (by omega) _ ih

theorem Map.rising_put {m : Map α} (k : Nat) (v : α) (h : m.rising = true) : (m.put k v).rising = true :=
  Map.risingFrom_put v (Nat.zero_le k) m h

theorem Map.rising_del {m : Map α} (k : Nat) (h : m.rising = true) : (m.del k).rising = true :=
  Map.risingFrom_filter _ m h

/-! ## Byte memories -/

@[simp] theorem Memory.read_nil (a : Nat) : Memory.read [] a = emptyByte := rfl

@[simp] theorem Memory.read_write_self (m : Memory) (a : Nat) (b : Byte) : Memory.read (Memory.write m a b) a = b := by
  simp [Memory.read, Memory.write]

@[simp] theorem Memory.read_write_ne (m : Memory) {a a' : Nat} (b : Byte) (h : a' ≠ a) :
    Memory.read (Memory.write m a b) a' = Memory.read m a' := by
  simp [Memory.read, Memory.write, h]

/-- A list of cells changes no byte that it does not name. -/
theorem Memory.read_writeAll_frame (cs : List Host.Cell) (a : Nat) (h : ∀ c ∈ cs, c.1 ≠ a) :
    ∀ m : Memory, Memory.read (Memory.writeAll m cs) a = Memory.read m a := by
  induction cs with
  | nil => intro m; rfl
  | cons c r ih =>
    intro m
    obtain ⟨x, b⟩ := c
    simp only [Memory.writeAll]
    rw [ih (fun c hc => h c (List.mem_cons_of_mem _ hc))]
    exact Memory.read_write_ne _ _ (fun e => h (x, b) List.mem_cons_self e.symm)

@[simp] theorem Memory.wf_nil : Memory.wf [] = true := rfl

theorem Memory.wf_filter {m : Memory} (p : Host.Cell → Bool) (h : Memory.wf m = true) : Memory.wf (m.filter p) = true := by
  simp only [Memory.wf, Map.rising, Bool.and_eq_true, List.all_eq_true] at h ⊢
  exact ⟨Map.risingFrom_filter _ _ h.1, fun c hc => h.2 c (List.mem_of_mem_filter hc)⟩

theorem Map.mem_put {m : Map α} {k : Nat} {v : α} {e : Nat × α} (h : e ∈ m.put k v) : e = (k, v) ∨ e ∈ m := by
  induction m with
  | nil => simpa [Map.put] using h
  | cons x r ih =>
    obtain ⟨j, w⟩ := x
    unfold Map.put at h
    split at h
    · rcases List.mem_cons.1 h with h | h
      · exact .inl h
      · exact .inr (List.mem_cons_of_mem _ h)
    · split at h
      · rcases List.mem_cons.1 h with h | h
        · exact .inl h
        · exact .inr h
      · rcases List.mem_cons.1 h with h | h
        · exact .inr (h ▸ List.mem_cons_self)
        · rcases ih h with h | h
          · exact .inl h
          · exact .inr (List.mem_cons_of_mem _ h)

/-- A write keeps the canonical form. -/
theorem Memory.wf_write {m : Memory} (a : Nat) (b : Byte) (h : Memory.wf m = true) : Memory.wf (Memory.write m a b) = true := by
  unfold Memory.write Map.setD
  split
  · exact Memory.wf_filter _ h
  · rename_i hb
    simp only [Memory.wf, Bool.and_eq_true, List.all_eq_true] at h ⊢
    refine ⟨Map.rising_put a b h.1, fun c hc => ?_⟩
    rcases Map.mem_put hc with rfl | hc
    · simpa using hb
    · exact h.2 c hc

/-- Writes of a list of cells keep the canonical form. -/
theorem Memory.wf_writeAll (cs : List Host.Cell) : ∀ {m : Memory}, Memory.wf m = true → Memory.wf (Memory.writeAll m cs) = true := by
  induction cs with
  | nil => intro m h; exact h
  | cons c r ih => intro m h; exact ih (Memory.wf_write _ _ h)

/-- Zeroing a block of the drawer keeps the canonical form. -/
theorem wf_dropBlock {m : List Host.Cell} (k : Nat) (h : Memory.wf m = true) : Memory.wf (dropBlock m k) = true :=
  Memory.wf_filter _ h

/-- A write at the drawer keeps the canonical form (R477). -/
theorem Drawer.wf_write (cs : List Host.Cell) :
    ∀ {d : Drawer}, Memory.wf d.mem = true → Memory.wf (Drawer.write d cs).mem = true := by
  induction cs with
  | nil => intro d h; exact h
  | cons c r ih =>
    intro d h
    obtain ⟨a, b⟩ := c
    simp only [Drawer.write]
    apply ih
    apply Memory.wf_write
    split
    · exact h
    · exact wf_dropBlock _ h

/-- A mark of the zero map leaves the bytes as they are (R477). -/
@[simp] theorem Drawer.mark_mem (d : Drawer) (k : Nat) : (d.mark k).mem = d.mem := rfl

/-- A write at a bank keeps the canonical form. -/
theorem Bank.wf_write {x : Bank} (now : Nat) (cs : List Host.Cell) (h : Memory.wf x.mem = true) :
    Memory.wf (x.write now cs).mem = true := Memory.wf_writeAll cs h

/-- A write at a bank changes no byte that it does not name. -/
theorem Bank.read_write_frame (x : Bank) (now : Nat) (cs : List Host.Cell) (a : Nat) (h : ∀ c ∈ cs, c.1 ≠ a) :
    Memory.read (x.write now cs).mem a = Memory.read x.mem a := Memory.read_writeAll_frame cs a h x.mem

/-! ## Lists -/

@[simp] theorem setAt_length (l : List α) : ∀ (i : Nat) (v : α), (setAt l i v).length = l.length := by
  induction l with
  | nil => intro i v; rfl
  | cons x r ih => intro i v; cases i <;> simp [setAt, ih]

theorem setAt_get_self (l : List α) : ∀ (i : Nat) (v : α), i < l.length → (setAt l i v)[i]? = some v := by
  induction l with
  | nil => intro i v h; exact absurd h (Nat.not_lt_zero i)
  | cons x r ih =>
    intro i v h
    cases i with
    | zero => rfl
    | succ n => simpa [setAt] using ih n v (by simpa using h)

theorem setAt_get_ne (l : List α) : ∀ (i j : Nat) (v : α), j ≠ i → (setAt l i v)[j]? = l[j]? := by
  induction l with
  | nil => intro i j v h; rfl
  | cons x r ih =>
    intro i j v h
    cases i with
    | zero => cases j with
      | zero => exact absurd rfl h
      | succ m => rfl
    | succ n => cases j with
      | zero => rfl
      | succ m => simpa [setAt] using ih n m v (by omega)

end Sys2Proof.Machine
end

