-- ==== Sys2Proof/Laws/State.lean ====
section
/-! SUPPORT. What each named update of the state leaves alone: one lemma per field and update, and what a component reads as
after its own update. -/

namespace Sys2Proof.Machine

/-! ## putCluster -/

@[simp] theorem State.putCluster_now (s : State) (n : Nat) (c : Cluster) : (s.putCluster n c).now = s.now := rfl
@[simp] theorem State.putCluster_agenda (s : State) (n : Nat) (c : Cluster) : (s.putCluster n c).agenda = s.agenda := rfl
@[simp] theorem State.putCluster_subject (s : State) (n : Nat) (c : Cluster) : (s.putCluster n c).subject = s.subject := rfl
@[simp] theorem State.putCluster_cur (s : State) (n : Nat) (c : Cluster) : (s.putCluster n c).cur = s.cur := rfl
@[simp] theorem State.putCluster_freeCtr (s : State) (n : Nat) (c : Cluster) : (s.putCluster n c).freeCtr = s.freeCtr := rfl
@[simp] theorem State.putCluster_opCtr (s : State) (n : Nat) (c : Cluster) : (s.putCluster n c).opCtr = s.opCtr := rfl
@[simp] theorem State.putCluster_teamCtr (s : State) (n : Nat) (c : Cluster) : (s.putCluster n c).teamCtr = s.teamCtr := rfl
@[simp] theorem State.putCluster_mgmt (s : State) (n : Nat) (c : Cluster) : (s.putCluster n c).mgmt = s.mgmt := rfl
@[simp] theorem State.putCluster_inject (s : State) (n : Nat) (c : Cluster) : (s.putCluster n c).inject = s.inject := rfl
@[simp] theorem State.putCluster_ctxs (s : State) (n : Nat) (c : Cluster) : (s.putCluster n c).ctxs = s.ctxs := rfl
@[simp] theorem State.putCluster_queues (s : State) (n : Nat) (c : Cluster) : (s.putCluster n c).queues = s.queues := rfl
@[simp] theorem State.putCluster_qmem (s : State) (n : Nat) (c : Cluster) : (s.putCluster n c).qmem = s.qmem := rfl
@[simp] theorem State.putCluster_grids (s : State) (n : Nat) (c : Cluster) : (s.putCluster n c).grids = s.grids := rfl
@[simp] theorem State.putCluster_susplim (s : State) (n : Nat) (c : Cluster) : (s.putCluster n c).susplim = s.susplim := rfl
@[simp] theorem State.putCluster_teams (s : State) (n : Nat) (c : Cluster) : (s.putCluster n c).teams = s.teams := rfl
@[simp] theorem State.putCluster_ops (s : State) (n : Nat) (c : Cluster) : (s.putCluster n c).ops = s.ops := rfl
@[simp] theorem State.putCluster_cores (s : State) (n : Nat) (c : Cluster) : (s.putCluster n c).cores = s.cores := rfl
@[simp] theorem State.putCluster_vcs (s : State) (n : Nat) (c : Cluster) : (s.putCluster n c).vcs = s.vcs := rfl
@[simp] theorem State.putCluster_homes (s : State) (n : Nat) (c : Cluster) : (s.putCluster n c).homes = s.homes := rfl
@[simp] theorem State.putCluster_shareCtx (s : State) (n : Nat) (c : Cluster) : (s.putCluster n c).shareCtx = s.shareCtx := rfl
@[simp] theorem State.putCluster_slret (s : State) (n : Nat) (c : Cluster) : (s.putCluster n c).slret = s.slret := rfl
@[simp] theorem State.putCluster_sliceRet (s : State) (n : Nat) (c : Cluster) : (s.putCluster n c).sliceRet = s.sliceRet := rfl
@[simp] theorem State.putCluster_sliceUse (s : State) (n : Nat) (c : Cluster) : (s.putCluster n c).sliceUse = s.sliceUse := rfl
@[simp] theorem State.putCluster_ceslice (s : State) (n : Nat) (c : Cluster) : (s.putCluster n c).ceslice = s.ceslice := rfl
@[simp] theorem State.putCluster_wobs (s : State) (n : Nat) (c : Cluster) : (s.putCluster n c).wobs = s.wobs := rfl
@[simp] theorem State.putCluster_monitors (s : State) (n : Nat) (c : Cluster) : (s.putCluster n c).monitors = s.monitors := rfl
@[simp] theorem State.putCluster_copies (s : State) (n : Nat) (c : Cluster) : (s.putCluster n c).copies = s.copies := rfl
@[simp] theorem State.putCluster_fabric (s : State) (n : Nat) (c : Cluster) : (s.putCluster n c).fabric = s.fabric := rfl
@[simp] theorem State.putCluster_ccwd (s : State) (n : Nat) (c : Cluster) : (s.putCluster n c).ccwd = s.ccwd := rfl
@[simp] theorem State.putCluster_links (s : State) (n : Nat) (c : Cluster) : (s.putCluster n c).links = s.links := rfl
@[simp] theorem State.putCluster_drawer (s : State) (n : Nat) (c : Cluster) : (s.putCluster n c).drawer = s.drawer := rfl
@[simp] theorem State.putCluster_images (s : State) (n : Nat) (c : Cluster) : (s.putCluster n c).images = s.images := rfl

/-! ## putCore -/

@[simp] theorem State.putCore_now (s : State) (n : Nat) (c : Core) : (s.putCore n c).now = s.now := rfl
@[simp] theorem State.putCore_agenda (s : State) (n : Nat) (c : Core) : (s.putCore n c).agenda = s.agenda := rfl
@[simp] theorem State.putCore_subject (s : State) (n : Nat) (c : Core) : (s.putCore n c).subject = s.subject := rfl
@[simp] theorem State.putCore_cur (s : State) (n : Nat) (c : Core) : (s.putCore n c).cur = s.cur := rfl
@[simp] theorem State.putCore_freeCtr (s : State) (n : Nat) (c : Core) : (s.putCore n c).freeCtr = s.freeCtr := rfl
@[simp] theorem State.putCore_opCtr (s : State) (n : Nat) (c : Core) : (s.putCore n c).opCtr = s.opCtr := rfl
@[simp] theorem State.putCore_teamCtr (s : State) (n : Nat) (c : Core) : (s.putCore n c).teamCtr = s.teamCtr := rfl
@[simp] theorem State.putCore_mgmt (s : State) (n : Nat) (c : Core) : (s.putCore n c).mgmt = s.mgmt := rfl
@[simp] theorem State.putCore_inject (s : State) (n : Nat) (c : Core) : (s.putCore n c).inject = s.inject := rfl
@[simp] theorem State.putCore_ctxs (s : State) (n : Nat) (c : Core) : (s.putCore n c).ctxs = s.ctxs := rfl
@[simp] theorem State.putCore_queues (s : State) (n : Nat) (c : Core) : (s.putCore n c).queues = s.queues := rfl
@[simp] theorem State.putCore_qmem (s : State) (n : Nat) (c : Core) : (s.putCore n c).qmem = s.qmem := rfl
@[simp] theorem State.putCore_grids (s : State) (n : Nat) (c : Core) : (s.putCore n c).grids = s.grids := rfl
@[simp] theorem State.putCore_susplim (s : State) (n : Nat) (c : Core) : (s.putCore n c).susplim = s.susplim := rfl
@[simp] theorem State.putCore_teams (s : State) (n : Nat) (c : Core) : (s.putCore n c).teams = s.teams := rfl
@[simp] theorem State.putCore_ops (s : State) (n : Nat) (c : Core) : (s.putCore n c).ops = s.ops := rfl
@[simp] theorem State.putCore_clusters (s : State) (n : Nat) (c : Core) : (s.putCore n c).clusters = s.clusters := rfl
@[simp] theorem State.putCore_vcs (s : State) (n : Nat) (c : Core) : (s.putCore n c).vcs = s.vcs := rfl
@[simp] theorem State.putCore_homes (s : State) (n : Nat) (c : Core) : (s.putCore n c).homes = s.homes := rfl
@[simp] theorem State.putCore_shareCtx (s : State) (n : Nat) (c : Core) : (s.putCore n c).shareCtx = s.shareCtx := rfl
@[simp] theorem State.putCore_slret (s : State) (n : Nat) (c : Core) : (s.putCore n c).slret = s.slret := rfl
@[simp] theorem State.putCore_sliceRet (s : State) (n : Nat) (c : Core) : (s.putCore n c).sliceRet = s.sliceRet := rfl
@[simp] theorem State.putCore_sliceUse (s : State) (n : Nat) (c : Core) : (s.putCore n c).sliceUse = s.sliceUse := rfl
@[simp] theorem State.putCore_ceslice (s : State) (n : Nat) (c : Core) : (s.putCore n c).ceslice = s.ceslice := rfl
@[simp] theorem State.putCore_wobs (s : State) (n : Nat) (c : Core) : (s.putCore n c).wobs = s.wobs := rfl
@[simp] theorem State.putCore_monitors (s : State) (n : Nat) (c : Core) : (s.putCore n c).monitors = s.monitors := rfl
@[simp] theorem State.putCore_copies (s : State) (n : Nat) (c : Core) : (s.putCore n c).copies = s.copies := rfl
@[simp] theorem State.putCore_fabric (s : State) (n : Nat) (c : Core) : (s.putCore n c).fabric = s.fabric := rfl
@[simp] theorem State.putCore_ccwd (s : State) (n : Nat) (c : Core) : (s.putCore n c).ccwd = s.ccwd := rfl
@[simp] theorem State.putCore_links (s : State) (n : Nat) (c : Core) : (s.putCore n c).links = s.links := rfl
@[simp] theorem State.putCore_drawer (s : State) (n : Nat) (c : Core) : (s.putCore n c).drawer = s.drawer := rfl
@[simp] theorem State.putCore_images (s : State) (n : Nat) (c : Core) : (s.putCore n c).images = s.images := rfl

/-! ## putCtx -/

@[simp] theorem State.putCtx_now (s : State) (n : Nat) (c : Ctx) : (s.putCtx n c).now = s.now := rfl
@[simp] theorem State.putCtx_agenda (s : State) (n : Nat) (c : Ctx) : (s.putCtx n c).agenda = s.agenda := rfl
@[simp] theorem State.putCtx_subject (s : State) (n : Nat) (c : Ctx) : (s.putCtx n c).subject = s.subject := rfl
@[simp] theorem State.putCtx_cur (s : State) (n : Nat) (c : Ctx) : (s.putCtx n c).cur = s.cur := rfl
@[simp] theorem State.putCtx_freeCtr (s : State) (n : Nat) (c : Ctx) : (s.putCtx n c).freeCtr = s.freeCtr := rfl
@[simp] theorem State.putCtx_opCtr (s : State) (n : Nat) (c : Ctx) : (s.putCtx n c).opCtr = s.opCtr := rfl
@[simp] theorem State.putCtx_teamCtr (s : State) (n : Nat) (c : Ctx) : (s.putCtx n c).teamCtr = s.teamCtr := rfl
@[simp] theorem State.putCtx_mgmt (s : State) (n : Nat) (c : Ctx) : (s.putCtx n c).mgmt = s.mgmt := rfl
@[simp] theorem State.putCtx_inject (s : State) (n : Nat) (c : Ctx) : (s.putCtx n c).inject = s.inject := rfl
@[simp] theorem State.putCtx_queues (s : State) (n : Nat) (c : Ctx) : (s.putCtx n c).queues = s.queues := rfl
@[simp] theorem State.putCtx_qmem (s : State) (n : Nat) (c : Ctx) : (s.putCtx n c).qmem = s.qmem := rfl
@[simp] theorem State.putCtx_grids (s : State) (n : Nat) (c : Ctx) : (s.putCtx n c).grids = s.grids := rfl
@[simp] theorem State.putCtx_susplim (s : State) (n : Nat) (c : Ctx) : (s.putCtx n c).susplim = s.susplim := rfl
@[simp] theorem State.putCtx_teams (s : State) (n : Nat) (c : Ctx) : (s.putCtx n c).teams = s.teams := rfl
@[simp] theorem State.putCtx_ops (s : State) (n : Nat) (c : Ctx) : (s.putCtx n c).ops = s.ops := rfl
@[simp] theorem State.putCtx_clusters (s : State) (n : Nat) (c : Ctx) : (s.putCtx n c).clusters = s.clusters := rfl
@[simp] theorem State.putCtx_cores (s : State) (n : Nat) (c : Ctx) : (s.putCtx n c).cores = s.cores := rfl
@[simp] theorem State.putCtx_vcs (s : State) (n : Nat) (c : Ctx) : (s.putCtx n c).vcs = s.vcs := rfl
@[simp] theorem State.putCtx_homes (s : State) (n : Nat) (c : Ctx) : (s.putCtx n c).homes = s.homes := rfl
@[simp] theorem State.putCtx_shareCtx (s : State) (n : Nat) (c : Ctx) : (s.putCtx n c).shareCtx = s.shareCtx := rfl
@[simp] theorem State.putCtx_slret (s : State) (n : Nat) (c : Ctx) : (s.putCtx n c).slret = s.slret := rfl
@[simp] theorem State.putCtx_sliceRet (s : State) (n : Nat) (c : Ctx) : (s.putCtx n c).sliceRet = s.sliceRet := rfl
@[simp] theorem State.putCtx_sliceUse (s : State) (n : Nat) (c : Ctx) : (s.putCtx n c).sliceUse = s.sliceUse := rfl
@[simp] theorem State.putCtx_ceslice (s : State) (n : Nat) (c : Ctx) : (s.putCtx n c).ceslice = s.ceslice := rfl
@[simp] theorem State.putCtx_wobs (s : State) (n : Nat) (c : Ctx) : (s.putCtx n c).wobs = s.wobs := rfl
@[simp] theorem State.putCtx_monitors (s : State) (n : Nat) (c : Ctx) : (s.putCtx n c).monitors = s.monitors := rfl
@[simp] theorem State.putCtx_copies (s : State) (n : Nat) (c : Ctx) : (s.putCtx n c).copies = s.copies := rfl
@[simp] theorem State.putCtx_fabric (s : State) (n : Nat) (c : Ctx) : (s.putCtx n c).fabric = s.fabric := rfl
@[simp] theorem State.putCtx_ccwd (s : State) (n : Nat) (c : Ctx) : (s.putCtx n c).ccwd = s.ccwd := rfl
@[simp] theorem State.putCtx_links (s : State) (n : Nat) (c : Ctx) : (s.putCtx n c).links = s.links := rfl
@[simp] theorem State.putCtx_drawer (s : State) (n : Nat) (c : Ctx) : (s.putCtx n c).drawer = s.drawer := rfl
@[simp] theorem State.putCtx_images (s : State) (n : Nat) (c : Ctx) : (s.putCtx n c).images = s.images := rfl

/-! ## putLink -/

@[simp] theorem State.putLink_now (s : State) (g : Nat) (l : Link) : (s.putLink g l).now = s.now := rfl
@[simp] theorem State.putLink_agenda (s : State) (g : Nat) (l : Link) : (s.putLink g l).agenda = s.agenda := rfl
@[simp] theorem State.putLink_subject (s : State) (g : Nat) (l : Link) : (s.putLink g l).subject = s.subject := rfl
@[simp] theorem State.putLink_cur (s : State) (g : Nat) (l : Link) : (s.putLink g l).cur = s.cur := rfl
@[simp] theorem State.putLink_freeCtr (s : State) (g : Nat) (l : Link) : (s.putLink g l).freeCtr = s.freeCtr := rfl
@[simp] theorem State.putLink_opCtr (s : State) (g : Nat) (l : Link) : (s.putLink g l).opCtr = s.opCtr := rfl
@[simp] theorem State.putLink_teamCtr (s : State) (g : Nat) (l : Link) : (s.putLink g l).teamCtr = s.teamCtr := rfl
@[simp] theorem State.putLink_mgmt (s : State) (g : Nat) (l : Link) : (s.putLink g l).mgmt = s.mgmt := rfl
@[simp] theorem State.putLink_inject (s : State) (g : Nat) (l : Link) : (s.putLink g l).inject = s.inject := rfl
@[simp] theorem State.putLink_ctxs (s : State) (g : Nat) (l : Link) : (s.putLink g l).ctxs = s.ctxs := rfl
@[simp] theorem State.putLink_queues (s : State) (g : Nat) (l : Link) : (s.putLink g l).queues = s.queues := rfl
@[simp] theorem State.putLink_qmem (s : State) (g : Nat) (l : Link) : (s.putLink g l).qmem = s.qmem := rfl
@[simp] theorem State.putLink_grids (s : State) (g : Nat) (l : Link) : (s.putLink g l).grids = s.grids := rfl
@[simp] theorem State.putLink_susplim (s : State) (g : Nat) (l : Link) : (s.putLink g l).susplim = s.susplim := rfl
@[simp] theorem State.putLink_teams (s : State) (g : Nat) (l : Link) : (s.putLink g l).teams = s.teams := rfl
@[simp] theorem State.putLink_ops (s : State) (g : Nat) (l : Link) : (s.putLink g l).ops = s.ops := rfl
@[simp] theorem State.putLink_clusters (s : State) (g : Nat) (l : Link) : (s.putLink g l).clusters = s.clusters := rfl
@[simp] theorem State.putLink_cores (s : State) (g : Nat) (l : Link) : (s.putLink g l).cores = s.cores := rfl
@[simp] theorem State.putLink_vcs (s : State) (g : Nat) (l : Link) : (s.putLink g l).vcs = s.vcs := rfl
@[simp] theorem State.putLink_homes (s : State) (g : Nat) (l : Link) : (s.putLink g l).homes = s.homes := rfl
@[simp] theorem State.putLink_shareCtx (s : State) (g : Nat) (l : Link) : (s.putLink g l).shareCtx = s.shareCtx := rfl
@[simp] theorem State.putLink_slret (s : State) (g : Nat) (l : Link) : (s.putLink g l).slret = s.slret := rfl
@[simp] theorem State.putLink_sliceRet (s : State) (g : Nat) (l : Link) : (s.putLink g l).sliceRet = s.sliceRet := rfl
@[simp] theorem State.putLink_sliceUse (s : State) (g : Nat) (l : Link) : (s.putLink g l).sliceUse = s.sliceUse := rfl
@[simp] theorem State.putLink_ceslice (s : State) (g : Nat) (l : Link) : (s.putLink g l).ceslice = s.ceslice := rfl
@[simp] theorem State.putLink_wobs (s : State) (g : Nat) (l : Link) : (s.putLink g l).wobs = s.wobs := rfl
@[simp] theorem State.putLink_monitors (s : State) (g : Nat) (l : Link) : (s.putLink g l).monitors = s.monitors := rfl
@[simp] theorem State.putLink_copies (s : State) (g : Nat) (l : Link) : (s.putLink g l).copies = s.copies := rfl
@[simp] theorem State.putLink_fabric (s : State) (g : Nat) (l : Link) : (s.putLink g l).fabric = s.fabric := rfl
@[simp] theorem State.putLink_ccwd (s : State) (g : Nat) (l : Link) : (s.putLink g l).ccwd = s.ccwd := rfl
@[simp] theorem State.putLink_drawer (s : State) (g : Nat) (l : Link) : (s.putLink g l).drawer = s.drawer := rfl
@[simp] theorem State.putLink_images (s : State) (g : Nat) (l : Link) : (s.putLink g l).images = s.images := rfl

/-! ## putTeam -/

@[simp] theorem State.putTeam_now (s : State) (i : Nat) (t : Team) : (s.putTeam i t).now = s.now := rfl
@[simp] theorem State.putTeam_agenda (s : State) (i : Nat) (t : Team) : (s.putTeam i t).agenda = s.agenda := rfl
@[simp] theorem State.putTeam_subject (s : State) (i : Nat) (t : Team) : (s.putTeam i t).subject = s.subject := rfl
@[simp] theorem State.putTeam_cur (s : State) (i : Nat) (t : Team) : (s.putTeam i t).cur = s.cur := rfl
@[simp] theorem State.putTeam_freeCtr (s : State) (i : Nat) (t : Team) : (s.putTeam i t).freeCtr = s.freeCtr := rfl
@[simp] theorem State.putTeam_opCtr (s : State) (i : Nat) (t : Team) : (s.putTeam i t).opCtr = s.opCtr := rfl
@[simp] theorem State.putTeam_teamCtr (s : State) (i : Nat) (t : Team) : (s.putTeam i t).teamCtr = s.teamCtr := rfl
@[simp] theorem State.putTeam_mgmt (s : State) (i : Nat) (t : Team) : (s.putTeam i t).mgmt = s.mgmt := rfl
@[simp] theorem State.putTeam_inject (s : State) (i : Nat) (t : Team) : (s.putTeam i t).inject = s.inject := rfl
@[simp] theorem State.putTeam_ctxs (s : State) (i : Nat) (t : Team) : (s.putTeam i t).ctxs = s.ctxs := rfl
@[simp] theorem State.putTeam_queues (s : State) (i : Nat) (t : Team) : (s.putTeam i t).queues = s.queues := rfl
@[simp] theorem State.putTeam_qmem (s : State) (i : Nat) (t : Team) : (s.putTeam i t).qmem = s.qmem := rfl
@[simp] theorem State.putTeam_grids (s : State) (i : Nat) (t : Team) : (s.putTeam i t).grids = s.grids := rfl
@[simp] theorem State.putTeam_susplim (s : State) (i : Nat) (t : Team) : (s.putTeam i t).susplim = s.susplim := rfl
@[simp] theorem State.putTeam_ops (s : State) (i : Nat) (t : Team) : (s.putTeam i t).ops = s.ops := rfl
@[simp] theorem State.putTeam_clusters (s : State) (i : Nat) (t : Team) : (s.putTeam i t).clusters = s.clusters := rfl
@[simp] theorem State.putTeam_cores (s : State) (i : Nat) (t : Team) : (s.putTeam i t).cores = s.cores := rfl
@[simp] theorem State.putTeam_vcs (s : State) (i : Nat) (t : Team) : (s.putTeam i t).vcs = s.vcs := rfl
@[simp] theorem State.putTeam_homes (s : State) (i : Nat) (t : Team) : (s.putTeam i t).homes = s.homes := rfl
@[simp] theorem State.putTeam_shareCtx (s : State) (i : Nat) (t : Team) : (s.putTeam i t).shareCtx = s.shareCtx := rfl
@[simp] theorem State.putTeam_slret (s : State) (i : Nat) (t : Team) : (s.putTeam i t).slret = s.slret := rfl
@[simp] theorem State.putTeam_sliceRet (s : State) (i : Nat) (t : Team) : (s.putTeam i t).sliceRet = s.sliceRet := rfl
@[simp] theorem State.putTeam_sliceUse (s : State) (i : Nat) (t : Team) : (s.putTeam i t).sliceUse = s.sliceUse := rfl
@[simp] theorem State.putTeam_ceslice (s : State) (i : Nat) (t : Team) : (s.putTeam i t).ceslice = s.ceslice := rfl
@[simp] theorem State.putTeam_wobs (s : State) (i : Nat) (t : Team) : (s.putTeam i t).wobs = s.wobs := rfl
@[simp] theorem State.putTeam_monitors (s : State) (i : Nat) (t : Team) : (s.putTeam i t).monitors = s.monitors := rfl
@[simp] theorem State.putTeam_copies (s : State) (i : Nat) (t : Team) : (s.putTeam i t).copies = s.copies := rfl
@[simp] theorem State.putTeam_fabric (s : State) (i : Nat) (t : Team) : (s.putTeam i t).fabric = s.fabric := rfl
@[simp] theorem State.putTeam_ccwd (s : State) (i : Nat) (t : Team) : (s.putTeam i t).ccwd = s.ccwd := rfl
@[simp] theorem State.putTeam_links (s : State) (i : Nat) (t : Team) : (s.putTeam i t).links = s.links := rfl
@[simp] theorem State.putTeam_drawer (s : State) (i : Nat) (t : Team) : (s.putTeam i t).drawer = s.drawer := rfl
@[simp] theorem State.putTeam_images (s : State) (i : Nat) (t : Team) : (s.putTeam i t).images = s.images := rfl

/-! ## putOp -/

@[simp] theorem State.putOp_now (s : State) (o : Op) : (s.putOp o).now = s.now := rfl
@[simp] theorem State.putOp_agenda (s : State) (o : Op) : (s.putOp o).agenda = s.agenda := rfl
@[simp] theorem State.putOp_subject (s : State) (o : Op) : (s.putOp o).subject = s.subject := rfl
@[simp] theorem State.putOp_cur (s : State) (o : Op) : (s.putOp o).cur = s.cur := rfl
@[simp] theorem State.putOp_freeCtr (s : State) (o : Op) : (s.putOp o).freeCtr = s.freeCtr := rfl
@[simp] theorem State.putOp_opCtr (s : State) (o : Op) : (s.putOp o).opCtr = s.opCtr := rfl
@[simp] theorem State.putOp_teamCtr (s : State) (o : Op) : (s.putOp o).teamCtr = s.teamCtr := rfl
@[simp] theorem State.putOp_mgmt (s : State) (o : Op) : (s.putOp o).mgmt = s.mgmt := rfl
@[simp] theorem State.putOp_inject (s : State) (o : Op) : (s.putOp o).inject = s.inject := rfl
@[simp] theorem State.putOp_ctxs (s : State) (o : Op) : (s.putOp o).ctxs = s.ctxs := rfl
@[simp] theorem State.putOp_queues (s : State) (o : Op) : (s.putOp o).queues = s.queues := rfl
@[simp] theorem State.putOp_qmem (s : State) (o : Op) : (s.putOp o).qmem = s.qmem := rfl
@[simp] theorem State.putOp_grids (s : State) (o : Op) : (s.putOp o).grids = s.grids := rfl
@[simp] theorem State.putOp_susplim (s : State) (o : Op) : (s.putOp o).susplim = s.susplim := rfl
@[simp] theorem State.putOp_teams (s : State) (o : Op) : (s.putOp o).teams = s.teams := rfl
@[simp] theorem State.putOp_clusters (s : State) (o : Op) : (s.putOp o).clusters = s.clusters := rfl
@[simp] theorem State.putOp_cores (s : State) (o : Op) : (s.putOp o).cores = s.cores := rfl
@[simp] theorem State.putOp_vcs (s : State) (o : Op) : (s.putOp o).vcs = s.vcs := rfl
@[simp] theorem State.putOp_homes (s : State) (o : Op) : (s.putOp o).homes = s.homes := rfl
@[simp] theorem State.putOp_shareCtx (s : State) (o : Op) : (s.putOp o).shareCtx = s.shareCtx := rfl
@[simp] theorem State.putOp_slret (s : State) (o : Op) : (s.putOp o).slret = s.slret := rfl
@[simp] theorem State.putOp_sliceRet (s : State) (o : Op) : (s.putOp o).sliceRet = s.sliceRet := rfl
@[simp] theorem State.putOp_sliceUse (s : State) (o : Op) : (s.putOp o).sliceUse = s.sliceUse := rfl
@[simp] theorem State.putOp_ceslice (s : State) (o : Op) : (s.putOp o).ceslice = s.ceslice := rfl
@[simp] theorem State.putOp_wobs (s : State) (o : Op) : (s.putOp o).wobs = s.wobs := rfl
@[simp] theorem State.putOp_monitors (s : State) (o : Op) : (s.putOp o).monitors = s.monitors := rfl
@[simp] theorem State.putOp_copies (s : State) (o : Op) : (s.putOp o).copies = s.copies := rfl
@[simp] theorem State.putOp_fabric (s : State) (o : Op) : (s.putOp o).fabric = s.fabric := rfl
@[simp] theorem State.putOp_ccwd (s : State) (o : Op) : (s.putOp o).ccwd = s.ccwd := rfl
@[simp] theorem State.putOp_links (s : State) (o : Op) : (s.putOp o).links = s.links := rfl
@[simp] theorem State.putOp_drawer (s : State) (o : Op) : (s.putOp o).drawer = s.drawer := rfl
@[simp] theorem State.putOp_images (s : State) (o : Op) : (s.putOp o).images = s.images := rfl

/-! ## putQueue -/

@[simp] theorem State.putQueue_now (s : State) (q : Nat) (e : Queue) : (s.putQueue q e).now = s.now := rfl
@[simp] theorem State.putQueue_agenda (s : State) (q : Nat) (e : Queue) : (s.putQueue q e).agenda = s.agenda := rfl
@[simp] theorem State.putQueue_subject (s : State) (q : Nat) (e : Queue) : (s.putQueue q e).subject = s.subject := rfl
@[simp] theorem State.putQueue_cur (s : State) (q : Nat) (e : Queue) : (s.putQueue q e).cur = s.cur := rfl
@[simp] theorem State.putQueue_freeCtr (s : State) (q : Nat) (e : Queue) : (s.putQueue q e).freeCtr = s.freeCtr := rfl
@[simp] theorem State.putQueue_opCtr (s : State) (q : Nat) (e : Queue) : (s.putQueue q e).opCtr = s.opCtr := rfl
@[simp] theorem State.putQueue_teamCtr (s : State) (q : Nat) (e : Queue) : (s.putQueue q e).teamCtr = s.teamCtr := rfl
@[simp] theorem State.putQueue_mgmt (s : State) (q : Nat) (e : Queue) : (s.putQueue q e).mgmt = s.mgmt := rfl
@[simp] theorem State.putQueue_inject (s : State) (q : Nat) (e : Queue) : (s.putQueue q e).inject = s.inject := rfl
@[simp] theorem State.putQueue_ctxs (s : State) (q : Nat) (e : Queue) : (s.putQueue q e).ctxs = s.ctxs := rfl
@[simp] theorem State.putQueue_qmem (s : State) (q : Nat) (e : Queue) : (s.putQueue q e).qmem = s.qmem := rfl
@[simp] theorem State.putQueue_grids (s : State) (q : Nat) (e : Queue) : (s.putQueue q e).grids = s.grids := rfl
@[simp] theorem State.putQueue_susplim (s : State) (q : Nat) (e : Queue) : (s.putQueue q e).susplim = s.susplim := rfl
@[simp] theorem State.putQueue_teams (s : State) (q : Nat) (e : Queue) : (s.putQueue q e).teams = s.teams := rfl
@[simp] theorem State.putQueue_ops (s : State) (q : Nat) (e : Queue) : (s.putQueue q e).ops = s.ops := rfl
@[simp] theorem State.putQueue_clusters (s : State) (q : Nat) (e : Queue) : (s.putQueue q e).clusters = s.clusters := rfl
@[simp] theorem State.putQueue_cores (s : State) (q : Nat) (e : Queue) : (s.putQueue q e).cores = s.cores := rfl
@[simp] theorem State.putQueue_vcs (s : State) (q : Nat) (e : Queue) : (s.putQueue q e).vcs = s.vcs := rfl
@[simp] theorem State.putQueue_homes (s : State) (q : Nat) (e : Queue) : (s.putQueue q e).homes = s.homes := rfl
@[simp] theorem State.putQueue_shareCtx (s : State) (q : Nat) (e : Queue) : (s.putQueue q e).shareCtx = s.shareCtx := rfl
@[simp] theorem State.putQueue_slret (s : State) (q : Nat) (e : Queue) : (s.putQueue q e).slret = s.slret := rfl
@[simp] theorem State.putQueue_sliceRet (s : State) (q : Nat) (e : Queue) : (s.putQueue q e).sliceRet = s.sliceRet := rfl
@[simp] theorem State.putQueue_sliceUse (s : State) (q : Nat) (e : Queue) : (s.putQueue q e).sliceUse = s.sliceUse := rfl
@[simp] theorem State.putQueue_ceslice (s : State) (q : Nat) (e : Queue) : (s.putQueue q e).ceslice = s.ceslice := rfl
@[simp] theorem State.putQueue_wobs (s : State) (q : Nat) (e : Queue) : (s.putQueue q e).wobs = s.wobs := rfl
@[simp] theorem State.putQueue_monitors (s : State) (q : Nat) (e : Queue) : (s.putQueue q e).monitors = s.monitors := rfl
@[simp] theorem State.putQueue_copies (s : State) (q : Nat) (e : Queue) : (s.putQueue q e).copies = s.copies := rfl
@[simp] theorem State.putQueue_fabric (s : State) (q : Nat) (e : Queue) : (s.putQueue q e).fabric = s.fabric := rfl
@[simp] theorem State.putQueue_ccwd (s : State) (q : Nat) (e : Queue) : (s.putQueue q e).ccwd = s.ccwd := rfl
@[simp] theorem State.putQueue_links (s : State) (q : Nat) (e : Queue) : (s.putQueue q e).links = s.links := rfl
@[simp] theorem State.putQueue_drawer (s : State) (q : Nat) (e : Queue) : (s.putQueue q e).drawer = s.drawer := rfl
@[simp] theorem State.putQueue_images (s : State) (q : Nat) (e : Queue) : (s.putQueue q e).images = s.images := rfl

/-! ## putCopy -/

@[simp] theorem State.putCopy_now (s : State) (k : Copy) : (s.putCopy k).now = s.now := rfl
@[simp] theorem State.putCopy_agenda (s : State) (k : Copy) : (s.putCopy k).agenda = s.agenda := rfl
@[simp] theorem State.putCopy_subject (s : State) (k : Copy) : (s.putCopy k).subject = s.subject := rfl
@[simp] theorem State.putCopy_cur (s : State) (k : Copy) : (s.putCopy k).cur = s.cur := rfl
@[simp] theorem State.putCopy_freeCtr (s : State) (k : Copy) : (s.putCopy k).freeCtr = s.freeCtr := rfl
@[simp] theorem State.putCopy_opCtr (s : State) (k : Copy) : (s.putCopy k).opCtr = s.opCtr := rfl
@[simp] theorem State.putCopy_teamCtr (s : State) (k : Copy) : (s.putCopy k).teamCtr = s.teamCtr := rfl
@[simp] theorem State.putCopy_mgmt (s : State) (k : Copy) : (s.putCopy k).mgmt = s.mgmt := rfl
@[simp] theorem State.putCopy_inject (s : State) (k : Copy) : (s.putCopy k).inject = s.inject := rfl
@[simp] theorem State.putCopy_ctxs (s : State) (k : Copy) : (s.putCopy k).ctxs = s.ctxs := rfl
@[simp] theorem State.putCopy_queues (s : State) (k : Copy) : (s.putCopy k).queues = s.queues := rfl
@[simp] theorem State.putCopy_qmem (s : State) (k : Copy) : (s.putCopy k).qmem = s.qmem := rfl
@[simp] theorem State.putCopy_grids (s : State) (k : Copy) : (s.putCopy k).grids = s.grids := rfl
@[simp] theorem State.putCopy_susplim (s : State) (k : Copy) : (s.putCopy k).susplim = s.susplim := rfl
@[simp] theorem State.putCopy_teams (s : State) (k : Copy) : (s.putCopy k).teams = s.teams := rfl
@[simp] theorem State.putCopy_ops (s : State) (k : Copy) : (s.putCopy k).ops = s.ops := rfl
@[simp] theorem State.putCopy_clusters (s : State) (k : Copy) : (s.putCopy k).clusters = s.clusters := rfl
@[simp] theorem State.putCopy_cores (s : State) (k : Copy) : (s.putCopy k).cores = s.cores := rfl
@[simp] theorem State.putCopy_vcs (s : State) (k : Copy) : (s.putCopy k).vcs = s.vcs := rfl
@[simp] theorem State.putCopy_homes (s : State) (k : Copy) : (s.putCopy k).homes = s.homes := rfl
@[simp] theorem State.putCopy_shareCtx (s : State) (k : Copy) : (s.putCopy k).shareCtx = s.shareCtx := rfl
@[simp] theorem State.putCopy_slret (s : State) (k : Copy) : (s.putCopy k).slret = s.slret := rfl
@[simp] theorem State.putCopy_sliceRet (s : State) (k : Copy) : (s.putCopy k).sliceRet = s.sliceRet := rfl
@[simp] theorem State.putCopy_sliceUse (s : State) (k : Copy) : (s.putCopy k).sliceUse = s.sliceUse := rfl
@[simp] theorem State.putCopy_ceslice (s : State) (k : Copy) : (s.putCopy k).ceslice = s.ceslice := rfl
@[simp] theorem State.putCopy_wobs (s : State) (k : Copy) : (s.putCopy k).wobs = s.wobs := rfl
@[simp] theorem State.putCopy_monitors (s : State) (k : Copy) : (s.putCopy k).monitors = s.monitors := rfl
@[simp] theorem State.putCopy_fabric (s : State) (k : Copy) : (s.putCopy k).fabric = s.fabric := rfl
@[simp] theorem State.putCopy_ccwd (s : State) (k : Copy) : (s.putCopy k).ccwd = s.ccwd := rfl
@[simp] theorem State.putCopy_links (s : State) (k : Copy) : (s.putCopy k).links = s.links := rfl
@[simp] theorem State.putCopy_drawer (s : State) (k : Copy) : (s.putCopy k).drawer = s.drawer := rfl
@[simp] theorem State.putCopy_images (s : State) (k : Copy) : (s.putCopy k).images = s.images := rfl

/-! ## putConn -/

@[simp] theorem State.putConn_now (s : State) (c : Connection) : (s.putConn c).now = s.now := rfl
@[simp] theorem State.putConn_agenda (s : State) (c : Connection) : (s.putConn c).agenda = s.agenda := rfl
@[simp] theorem State.putConn_subject (s : State) (c : Connection) : (s.putConn c).subject = s.subject := rfl
@[simp] theorem State.putConn_cur (s : State) (c : Connection) : (s.putConn c).cur = s.cur := rfl
@[simp] theorem State.putConn_freeCtr (s : State) (c : Connection) : (s.putConn c).freeCtr = s.freeCtr := rfl
@[simp] theorem State.putConn_opCtr (s : State) (c : Connection) : (s.putConn c).opCtr = s.opCtr := rfl
@[simp] theorem State.putConn_teamCtr (s : State) (c : Connection) : (s.putConn c).teamCtr = s.teamCtr := rfl
@[simp] theorem State.putConn_mgmt (s : State) (c : Connection) : (s.putConn c).mgmt = s.mgmt := rfl
@[simp] theorem State.putConn_inject (s : State) (c : Connection) : (s.putConn c).inject = s.inject := rfl
@[simp] theorem State.putConn_ctxs (s : State) (c : Connection) : (s.putConn c).ctxs = s.ctxs := rfl
@[simp] theorem State.putConn_queues (s : State) (c : Connection) : (s.putConn c).queues = s.queues := rfl
@[simp] theorem State.putConn_qmem (s : State) (c : Connection) : (s.putConn c).qmem = s.qmem := rfl
@[simp] theorem State.putConn_grids (s : State) (c : Connection) : (s.putConn c).grids = s.grids := rfl
@[simp] theorem State.putConn_susplim (s : State) (c : Connection) : (s.putConn c).susplim = s.susplim := rfl
@[simp] theorem State.putConn_teams (s : State) (c : Connection) : (s.putConn c).teams = s.teams := rfl
@[simp] theorem State.putConn_ops (s : State) (c : Connection) : (s.putConn c).ops = s.ops := rfl
@[simp] theorem State.putConn_clusters (s : State) (c : Connection) : (s.putConn c).clusters = s.clusters := rfl
@[simp] theorem State.putConn_cores (s : State) (c : Connection) : (s.putConn c).cores = s.cores := rfl
@[simp] theorem State.putConn_vcs (s : State) (c : Connection) : (s.putConn c).vcs = s.vcs := rfl
@[simp] theorem State.putConn_homes (s : State) (c : Connection) : (s.putConn c).homes = s.homes := rfl
@[simp] theorem State.putConn_shareCtx (s : State) (c : Connection) : (s.putConn c).shareCtx = s.shareCtx := rfl
@[simp] theorem State.putConn_slret (s : State) (c : Connection) : (s.putConn c).slret = s.slret := rfl
@[simp] theorem State.putConn_sliceRet (s : State) (c : Connection) : (s.putConn c).sliceRet = s.sliceRet := rfl
@[simp] theorem State.putConn_sliceUse (s : State) (c : Connection) : (s.putConn c).sliceUse = s.sliceUse := rfl
@[simp] theorem State.putConn_ceslice (s : State) (c : Connection) : (s.putConn c).ceslice = s.ceslice := rfl
@[simp] theorem State.putConn_wobs (s : State) (c : Connection) : (s.putConn c).wobs = s.wobs := rfl
@[simp] theorem State.putConn_monitors (s : State) (c : Connection) : (s.putConn c).monitors = s.monitors := rfl
@[simp] theorem State.putConn_copies (s : State) (c : Connection) : (s.putConn c).copies = s.copies := rfl
@[simp] theorem State.putConn_ccwd (s : State) (c : Connection) : (s.putConn c).ccwd = s.ccwd := rfl
@[simp] theorem State.putConn_links (s : State) (c : Connection) : (s.putConn c).links = s.links := rfl
@[simp] theorem State.putConn_drawer (s : State) (c : Connection) : (s.putConn c).drawer = s.drawer := rfl
@[simp] theorem State.putConn_images (s : State) (c : Connection) : (s.putConn c).images = s.images := rfl

/-! ## onTeam -/

@[simp] theorem State.onTeam_now (s : State) (t : Nat) (f : Team → Team) : (s.onTeam t f).now = s.now := rfl
@[simp] theorem State.onTeam_agenda (s : State) (t : Nat) (f : Team → Team) : (s.onTeam t f).agenda = s.agenda := rfl
@[simp] theorem State.onTeam_subject (s : State) (t : Nat) (f : Team → Team) : (s.onTeam t f).subject = s.subject := rfl
@[simp] theorem State.onTeam_cur (s : State) (t : Nat) (f : Team → Team) : (s.onTeam t f).cur = s.cur := rfl
@[simp] theorem State.onTeam_freeCtr (s : State) (t : Nat) (f : Team → Team) : (s.onTeam t f).freeCtr = s.freeCtr := rfl
@[simp] theorem State.onTeam_opCtr (s : State) (t : Nat) (f : Team → Team) : (s.onTeam t f).opCtr = s.opCtr := rfl
@[simp] theorem State.onTeam_teamCtr (s : State) (t : Nat) (f : Team → Team) : (s.onTeam t f).teamCtr = s.teamCtr := rfl
@[simp] theorem State.onTeam_mgmt (s : State) (t : Nat) (f : Team → Team) : (s.onTeam t f).mgmt = s.mgmt := rfl
@[simp] theorem State.onTeam_inject (s : State) (t : Nat) (f : Team → Team) : (s.onTeam t f).inject = s.inject := rfl
@[simp] theorem State.onTeam_ctxs (s : State) (t : Nat) (f : Team → Team) : (s.onTeam t f).ctxs = s.ctxs := rfl
@[simp] theorem State.onTeam_queues (s : State) (t : Nat) (f : Team → Team) : (s.onTeam t f).queues = s.queues := rfl
@[simp] theorem State.onTeam_qmem (s : State) (t : Nat) (f : Team → Team) : (s.onTeam t f).qmem = s.qmem := rfl
@[simp] theorem State.onTeam_grids (s : State) (t : Nat) (f : Team → Team) : (s.onTeam t f).grids = s.grids := rfl
@[simp] theorem State.onTeam_susplim (s : State) (t : Nat) (f : Team → Team) : (s.onTeam t f).susplim = s.susplim := rfl
@[simp] theorem State.onTeam_ops (s : State) (t : Nat) (f : Team → Team) : (s.onTeam t f).ops = s.ops := rfl
@[simp] theorem State.onTeam_clusters (s : State) (t : Nat) (f : Team → Team) : (s.onTeam t f).clusters = s.clusters := rfl
@[simp] theorem State.onTeam_cores (s : State) (t : Nat) (f : Team → Team) : (s.onTeam t f).cores = s.cores := rfl
@[simp] theorem State.onTeam_vcs (s : State) (t : Nat) (f : Team → Team) : (s.onTeam t f).vcs = s.vcs := rfl
@[simp] theorem State.onTeam_homes (s : State) (t : Nat) (f : Team → Team) : (s.onTeam t f).homes = s.homes := rfl
@[simp] theorem State.onTeam_shareCtx (s : State) (t : Nat) (f : Team → Team) : (s.onTeam t f).shareCtx = s.shareCtx := rfl
@[simp] theorem State.onTeam_slret (s : State) (t : Nat) (f : Team → Team) : (s.onTeam t f).slret = s.slret := rfl
@[simp] theorem State.onTeam_sliceRet (s : State) (t : Nat) (f : Team → Team) : (s.onTeam t f).sliceRet = s.sliceRet := rfl
@[simp] theorem State.onTeam_sliceUse (s : State) (t : Nat) (f : Team → Team) : (s.onTeam t f).sliceUse = s.sliceUse := rfl
@[simp] theorem State.onTeam_ceslice (s : State) (t : Nat) (f : Team → Team) : (s.onTeam t f).ceslice = s.ceslice := rfl
@[simp] theorem State.onTeam_wobs (s : State) (t : Nat) (f : Team → Team) : (s.onTeam t f).wobs = s.wobs := rfl
@[simp] theorem State.onTeam_monitors (s : State) (t : Nat) (f : Team → Team) : (s.onTeam t f).monitors = s.monitors := rfl
@[simp] theorem State.onTeam_copies (s : State) (t : Nat) (f : Team → Team) : (s.onTeam t f).copies = s.copies := rfl
@[simp] theorem State.onTeam_fabric (s : State) (t : Nat) (f : Team → Team) : (s.onTeam t f).fabric = s.fabric := rfl
@[simp] theorem State.onTeam_ccwd (s : State) (t : Nat) (f : Team → Team) : (s.onTeam t f).ccwd = s.ccwd := rfl
@[simp] theorem State.onTeam_links (s : State) (t : Nat) (f : Team → Team) : (s.onTeam t f).links = s.links := rfl
@[simp] theorem State.onTeam_drawer (s : State) (t : Nat) (f : Team → Team) : (s.onTeam t f).drawer = s.drawer := rfl
@[simp] theorem State.onTeam_images (s : State) (t : Nat) (f : Team → Team) : (s.onTeam t f).images = s.images := rfl

/-! ## onOp -/

@[simp] theorem State.onOp_now (s : State) (i : Nat) (f : Op → Op) : (s.onOp i f).now = s.now := rfl
@[simp] theorem State.onOp_agenda (s : State) (i : Nat) (f : Op → Op) : (s.onOp i f).agenda = s.agenda := rfl
@[simp] theorem State.onOp_subject (s : State) (i : Nat) (f : Op → Op) : (s.onOp i f).subject = s.subject := rfl
@[simp] theorem State.onOp_cur (s : State) (i : Nat) (f : Op → Op) : (s.onOp i f).cur = s.cur := rfl
@[simp] theorem State.onOp_freeCtr (s : State) (i : Nat) (f : Op → Op) : (s.onOp i f).freeCtr = s.freeCtr := rfl
@[simp] theorem State.onOp_opCtr (s : State) (i : Nat) (f : Op → Op) : (s.onOp i f).opCtr = s.opCtr := rfl
@[simp] theorem State.onOp_teamCtr (s : State) (i : Nat) (f : Op → Op) : (s.onOp i f).teamCtr = s.teamCtr := rfl
@[simp] theorem State.onOp_mgmt (s : State) (i : Nat) (f : Op → Op) : (s.onOp i f).mgmt = s.mgmt := rfl
@[simp] theorem State.onOp_inject (s : State) (i : Nat) (f : Op → Op) : (s.onOp i f).inject = s.inject := rfl
@[simp] theorem State.onOp_ctxs (s : State) (i : Nat) (f : Op → Op) : (s.onOp i f).ctxs = s.ctxs := rfl
@[simp] theorem State.onOp_queues (s : State) (i : Nat) (f : Op → Op) : (s.onOp i f).queues = s.queues := rfl
@[simp] theorem State.onOp_qmem (s : State) (i : Nat) (f : Op → Op) : (s.onOp i f).qmem = s.qmem := rfl
@[simp] theorem State.onOp_grids (s : State) (i : Nat) (f : Op → Op) : (s.onOp i f).grids = s.grids := rfl
@[simp] theorem State.onOp_susplim (s : State) (i : Nat) (f : Op → Op) : (s.onOp i f).susplim = s.susplim := rfl
@[simp] theorem State.onOp_teams (s : State) (i : Nat) (f : Op → Op) : (s.onOp i f).teams = s.teams := rfl
@[simp] theorem State.onOp_clusters (s : State) (i : Nat) (f : Op → Op) : (s.onOp i f).clusters = s.clusters := rfl
@[simp] theorem State.onOp_cores (s : State) (i : Nat) (f : Op → Op) : (s.onOp i f).cores = s.cores := rfl
@[simp] theorem State.onOp_vcs (s : State) (i : Nat) (f : Op → Op) : (s.onOp i f).vcs = s.vcs := rfl
@[simp] theorem State.onOp_homes (s : State) (i : Nat) (f : Op → Op) : (s.onOp i f).homes = s.homes := rfl
@[simp] theorem State.onOp_shareCtx (s : State) (i : Nat) (f : Op → Op) : (s.onOp i f).shareCtx = s.shareCtx := rfl
@[simp] theorem State.onOp_slret (s : State) (i : Nat) (f : Op → Op) : (s.onOp i f).slret = s.slret := rfl
@[simp] theorem State.onOp_sliceRet (s : State) (i : Nat) (f : Op → Op) : (s.onOp i f).sliceRet = s.sliceRet := rfl
@[simp] theorem State.onOp_sliceUse (s : State) (i : Nat) (f : Op → Op) : (s.onOp i f).sliceUse = s.sliceUse := rfl
@[simp] theorem State.onOp_ceslice (s : State) (i : Nat) (f : Op → Op) : (s.onOp i f).ceslice = s.ceslice := rfl
@[simp] theorem State.onOp_wobs (s : State) (i : Nat) (f : Op → Op) : (s.onOp i f).wobs = s.wobs := rfl
@[simp] theorem State.onOp_monitors (s : State) (i : Nat) (f : Op → Op) : (s.onOp i f).monitors = s.monitors := rfl
@[simp] theorem State.onOp_copies (s : State) (i : Nat) (f : Op → Op) : (s.onOp i f).copies = s.copies := rfl
@[simp] theorem State.onOp_fabric (s : State) (i : Nat) (f : Op → Op) : (s.onOp i f).fabric = s.fabric := rfl
@[simp] theorem State.onOp_ccwd (s : State) (i : Nat) (f : Op → Op) : (s.onOp i f).ccwd = s.ccwd := rfl
@[simp] theorem State.onOp_links (s : State) (i : Nat) (f : Op → Op) : (s.onOp i f).links = s.links := rfl
@[simp] theorem State.onOp_drawer (s : State) (i : Nat) (f : Op → Op) : (s.onOp i f).drawer = s.drawer := rfl
@[simp] theorem State.onOp_images (s : State) (i : Nat) (f : Op → Op) : (s.onOp i f).images = s.images := rfl

/-! ## setBody -/

@[simp] theorem State.setBody_now (s : State) (i : Nat) (b : OpBody) : (s.setBody i b).now = s.now := rfl
@[simp] theorem State.setBody_agenda (s : State) (i : Nat) (b : OpBody) : (s.setBody i b).agenda = s.agenda := rfl
@[simp] theorem State.setBody_subject (s : State) (i : Nat) (b : OpBody) : (s.setBody i b).subject = s.subject := rfl
@[simp] theorem State.setBody_cur (s : State) (i : Nat) (b : OpBody) : (s.setBody i b).cur = s.cur := rfl
@[simp] theorem State.setBody_freeCtr (s : State) (i : Nat) (b : OpBody) : (s.setBody i b).freeCtr = s.freeCtr := rfl
@[simp] theorem State.setBody_opCtr (s : State) (i : Nat) (b : OpBody) : (s.setBody i b).opCtr = s.opCtr := rfl
@[simp] theorem State.setBody_teamCtr (s : State) (i : Nat) (b : OpBody) : (s.setBody i b).teamCtr = s.teamCtr := rfl
@[simp] theorem State.setBody_mgmt (s : State) (i : Nat) (b : OpBody) : (s.setBody i b).mgmt = s.mgmt := rfl
@[simp] theorem State.setBody_inject (s : State) (i : Nat) (b : OpBody) : (s.setBody i b).inject = s.inject := rfl
@[simp] theorem State.setBody_ctxs (s : State) (i : Nat) (b : OpBody) : (s.setBody i b).ctxs = s.ctxs := rfl
@[simp] theorem State.setBody_queues (s : State) (i : Nat) (b : OpBody) : (s.setBody i b).queues = s.queues := rfl
@[simp] theorem State.setBody_qmem (s : State) (i : Nat) (b : OpBody) : (s.setBody i b).qmem = s.qmem := rfl
@[simp] theorem State.setBody_grids (s : State) (i : Nat) (b : OpBody) : (s.setBody i b).grids = s.grids := rfl
@[simp] theorem State.setBody_susplim (s : State) (i : Nat) (b : OpBody) : (s.setBody i b).susplim = s.susplim := rfl
@[simp] theorem State.setBody_teams (s : State) (i : Nat) (b : OpBody) : (s.setBody i b).teams = s.teams := rfl
@[simp] theorem State.setBody_clusters (s : State) (i : Nat) (b : OpBody) : (s.setBody i b).clusters = s.clusters := rfl
@[simp] theorem State.setBody_cores (s : State) (i : Nat) (b : OpBody) : (s.setBody i b).cores = s.cores := rfl
@[simp] theorem State.setBody_vcs (s : State) (i : Nat) (b : OpBody) : (s.setBody i b).vcs = s.vcs := rfl
@[simp] theorem State.setBody_homes (s : State) (i : Nat) (b : OpBody) : (s.setBody i b).homes = s.homes := rfl
@[simp] theorem State.setBody_shareCtx (s : State) (i : Nat) (b : OpBody) : (s.setBody i b).shareCtx = s.shareCtx := rfl
@[simp] theorem State.setBody_slret (s : State) (i : Nat) (b : OpBody) : (s.setBody i b).slret = s.slret := rfl
@[simp] theorem State.setBody_sliceRet (s : State) (i : Nat) (b : OpBody) : (s.setBody i b).sliceRet = s.sliceRet := rfl
@[simp] theorem State.setBody_sliceUse (s : State) (i : Nat) (b : OpBody) : (s.setBody i b).sliceUse = s.sliceUse := rfl
@[simp] theorem State.setBody_ceslice (s : State) (i : Nat) (b : OpBody) : (s.setBody i b).ceslice = s.ceslice := rfl
@[simp] theorem State.setBody_wobs (s : State) (i : Nat) (b : OpBody) : (s.setBody i b).wobs = s.wobs := rfl
@[simp] theorem State.setBody_monitors (s : State) (i : Nat) (b : OpBody) : (s.setBody i b).monitors = s.monitors := rfl
@[simp] theorem State.setBody_copies (s : State) (i : Nat) (b : OpBody) : (s.setBody i b).copies = s.copies := rfl
@[simp] theorem State.setBody_fabric (s : State) (i : Nat) (b : OpBody) : (s.setBody i b).fabric = s.fabric := rfl
@[simp] theorem State.setBody_ccwd (s : State) (i : Nat) (b : OpBody) : (s.setBody i b).ccwd = s.ccwd := rfl
@[simp] theorem State.setBody_links (s : State) (i : Nat) (b : OpBody) : (s.setBody i b).links = s.links := rfl
@[simp] theorem State.setBody_drawer (s : State) (i : Nat) (b : OpBody) : (s.setBody i b).drawer = s.drawer := rfl
@[simp] theorem State.setBody_images (s : State) (i : Nat) (b : OpBody) : (s.setBody i b).images = s.images := rfl

/-! ## onBank -/

@[simp] theorem State.onBank_now (s : State) (p b : Nat) (f : Bank → Bank) : (s.onBank p b f).now = s.now := rfl
@[simp] theorem State.onBank_agenda (s : State) (p b : Nat) (f : Bank → Bank) : (s.onBank p b f).agenda = s.agenda := rfl
@[simp] theorem State.onBank_subject (s : State) (p b : Nat) (f : Bank → Bank) : (s.onBank p b f).subject = s.subject := rfl
@[simp] theorem State.onBank_cur (s : State) (p b : Nat) (f : Bank → Bank) : (s.onBank p b f).cur = s.cur := rfl
@[simp] theorem State.onBank_freeCtr (s : State) (p b : Nat) (f : Bank → Bank) : (s.onBank p b f).freeCtr = s.freeCtr := rfl
@[simp] theorem State.onBank_opCtr (s : State) (p b : Nat) (f : Bank → Bank) : (s.onBank p b f).opCtr = s.opCtr := rfl
@[simp] theorem State.onBank_teamCtr (s : State) (p b : Nat) (f : Bank → Bank) : (s.onBank p b f).teamCtr = s.teamCtr := rfl
@[simp] theorem State.onBank_mgmt (s : State) (p b : Nat) (f : Bank → Bank) : (s.onBank p b f).mgmt = s.mgmt := rfl
@[simp] theorem State.onBank_inject (s : State) (p b : Nat) (f : Bank → Bank) : (s.onBank p b f).inject = s.inject := rfl
@[simp] theorem State.onBank_ctxs (s : State) (p b : Nat) (f : Bank → Bank) : (s.onBank p b f).ctxs = s.ctxs := rfl
@[simp] theorem State.onBank_queues (s : State) (p b : Nat) (f : Bank → Bank) : (s.onBank p b f).queues = s.queues := rfl
@[simp] theorem State.onBank_qmem (s : State) (p b : Nat) (f : Bank → Bank) : (s.onBank p b f).qmem = s.qmem := rfl
@[simp] theorem State.onBank_grids (s : State) (p b : Nat) (f : Bank → Bank) : (s.onBank p b f).grids = s.grids := rfl
@[simp] theorem State.onBank_susplim (s : State) (p b : Nat) (f : Bank → Bank) : (s.onBank p b f).susplim = s.susplim := rfl
@[simp] theorem State.onBank_teams (s : State) (p b : Nat) (f : Bank → Bank) : (s.onBank p b f).teams = s.teams := rfl
@[simp] theorem State.onBank_ops (s : State) (p b : Nat) (f : Bank → Bank) : (s.onBank p b f).ops = s.ops := rfl
@[simp] theorem State.onBank_cores (s : State) (p b : Nat) (f : Bank → Bank) : (s.onBank p b f).cores = s.cores := rfl
@[simp] theorem State.onBank_vcs (s : State) (p b : Nat) (f : Bank → Bank) : (s.onBank p b f).vcs = s.vcs := rfl
@[simp] theorem State.onBank_homes (s : State) (p b : Nat) (f : Bank → Bank) : (s.onBank p b f).homes = s.homes := rfl
@[simp] theorem State.onBank_shareCtx (s : State) (p b : Nat) (f : Bank → Bank) : (s.onBank p b f).shareCtx = s.shareCtx := rfl
@[simp] theorem State.onBank_slret (s : State) (p b : Nat) (f : Bank → Bank) : (s.onBank p b f).slret = s.slret := rfl
@[simp] theorem State.onBank_sliceRet (s : State) (p b : Nat) (f : Bank → Bank) : (s.onBank p b f).sliceRet = s.sliceRet := rfl
@[simp] theorem State.onBank_sliceUse (s : State) (p b : Nat) (f : Bank → Bank) : (s.onBank p b f).sliceUse = s.sliceUse := rfl
@[simp] theorem State.onBank_ceslice (s : State) (p b : Nat) (f : Bank → Bank) : (s.onBank p b f).ceslice = s.ceslice := rfl
@[simp] theorem State.onBank_wobs (s : State) (p b : Nat) (f : Bank → Bank) : (s.onBank p b f).wobs = s.wobs := rfl
@[simp] theorem State.onBank_monitors (s : State) (p b : Nat) (f : Bank → Bank) : (s.onBank p b f).monitors = s.monitors := rfl
@[simp] theorem State.onBank_copies (s : State) (p b : Nat) (f : Bank → Bank) : (s.onBank p b f).copies = s.copies := rfl
@[simp] theorem State.onBank_fabric (s : State) (p b : Nat) (f : Bank → Bank) : (s.onBank p b f).fabric = s.fabric := rfl
@[simp] theorem State.onBank_ccwd (s : State) (p b : Nat) (f : Bank → Bank) : (s.onBank p b f).ccwd = s.ccwd := rfl
@[simp] theorem State.onBank_links (s : State) (p b : Nat) (f : Bank → Bank) : (s.onBank p b f).links = s.links := rfl
@[simp] theorem State.onBank_drawer (s : State) (p b : Nat) (f : Bank → Bank) : (s.onBank p b f).drawer = s.drawer := rfl
@[simp] theorem State.onBank_images (s : State) (p b : Nat) (f : Bank → Bank) : (s.onBank p b f).images = s.images := rfl

/-! ## hiddenOp -/

@[simp] theorem State.hiddenOp_now (s : State) (t : Nat) (b : OpBody) : (s.hiddenOp t b).now = s.now := rfl
@[simp] theorem State.hiddenOp_agenda (s : State) (t : Nat) (b : OpBody) : (s.hiddenOp t b).agenda = s.agenda := rfl
@[simp] theorem State.hiddenOp_subject (s : State) (t : Nat) (b : OpBody) : (s.hiddenOp t b).subject = s.subject := rfl
@[simp] theorem State.hiddenOp_cur (s : State) (t : Nat) (b : OpBody) : (s.hiddenOp t b).cur = s.cur := rfl
@[simp] theorem State.hiddenOp_freeCtr (s : State) (t : Nat) (b : OpBody) : (s.hiddenOp t b).freeCtr = s.freeCtr := rfl
@[simp] theorem State.hiddenOp_teamCtr (s : State) (t : Nat) (b : OpBody) : (s.hiddenOp t b).teamCtr = s.teamCtr := rfl
@[simp] theorem State.hiddenOp_mgmt (s : State) (t : Nat) (b : OpBody) : (s.hiddenOp t b).mgmt = s.mgmt := rfl
@[simp] theorem State.hiddenOp_inject (s : State) (t : Nat) (b : OpBody) : (s.hiddenOp t b).inject = s.inject := rfl
@[simp] theorem State.hiddenOp_ctxs (s : State) (t : Nat) (b : OpBody) : (s.hiddenOp t b).ctxs = s.ctxs := rfl
@[simp] theorem State.hiddenOp_queues (s : State) (t : Nat) (b : OpBody) : (s.hiddenOp t b).queues = s.queues := rfl
@[simp] theorem State.hiddenOp_qmem (s : State) (t : Nat) (b : OpBody) : (s.hiddenOp t b).qmem = s.qmem := rfl
@[simp] theorem State.hiddenOp_grids (s : State) (t : Nat) (b : OpBody) : (s.hiddenOp t b).grids = s.grids := rfl
@[simp] theorem State.hiddenOp_susplim (s : State) (t : Nat) (b : OpBody) : (s.hiddenOp t b).susplim = s.susplim := rfl
@[simp] theorem State.hiddenOp_teams (s : State) (t : Nat) (b : OpBody) : (s.hiddenOp t b).teams = s.teams := rfl
@[simp] theorem State.hiddenOp_clusters (s : State) (t : Nat) (b : OpBody) : (s.hiddenOp t b).clusters = s.clusters := rfl
@[simp] theorem State.hiddenOp_cores (s : State) (t : Nat) (b : OpBody) : (s.hiddenOp t b).cores = s.cores := rfl
@[simp] theorem State.hiddenOp_vcs (s : State) (t : Nat) (b : OpBody) : (s.hiddenOp t b).vcs = s.vcs := rfl
@[simp] theorem State.hiddenOp_homes (s : State) (t : Nat) (b : OpBody) : (s.hiddenOp t b).homes = s.homes := rfl
@[simp] theorem State.hiddenOp_shareCtx (s : State) (t : Nat) (b : OpBody) : (s.hiddenOp t b).shareCtx = s.shareCtx := rfl
@[simp] theorem State.hiddenOp_slret (s : State) (t : Nat) (b : OpBody) : (s.hiddenOp t b).slret = s.slret := rfl
@[simp] theorem State.hiddenOp_sliceRet (s : State) (t : Nat) (b : OpBody) : (s.hiddenOp t b).sliceRet = s.sliceRet := rfl
@[simp] theorem State.hiddenOp_sliceUse (s : State) (t : Nat) (b : OpBody) : (s.hiddenOp t b).sliceUse = s.sliceUse := rfl
@[simp] theorem State.hiddenOp_ceslice (s : State) (t : Nat) (b : OpBody) : (s.hiddenOp t b).ceslice = s.ceslice := rfl
@[simp] theorem State.hiddenOp_wobs (s : State) (t : Nat) (b : OpBody) : (s.hiddenOp t b).wobs = s.wobs := rfl
@[simp] theorem State.hiddenOp_monitors (s : State) (t : Nat) (b : OpBody) : (s.hiddenOp t b).monitors = s.monitors := rfl
@[simp] theorem State.hiddenOp_copies (s : State) (t : Nat) (b : OpBody) : (s.hiddenOp t b).copies = s.copies := rfl
@[simp] theorem State.hiddenOp_fabric (s : State) (t : Nat) (b : OpBody) : (s.hiddenOp t b).fabric = s.fabric := rfl
@[simp] theorem State.hiddenOp_ccwd (s : State) (t : Nat) (b : OpBody) : (s.hiddenOp t b).ccwd = s.ccwd := rfl
@[simp] theorem State.hiddenOp_links (s : State) (t : Nat) (b : OpBody) : (s.hiddenOp t b).links = s.links := rfl
@[simp] theorem State.hiddenOp_drawer (s : State) (t : Nat) (b : OpBody) : (s.hiddenOp t b).drawer = s.drawer := rfl
@[simp] theorem State.hiddenOp_images (s : State) (t : Nat) (b : OpBody) : (s.hiddenOp t b).images = s.images := rfl

/-! ## groupOp -/

@[simp] theorem State.groupOp_now (s : State) (t g : Nat) (b : OpBody) : (s.groupOp t g b).now = s.now := rfl
@[simp] theorem State.groupOp_agenda (s : State) (t g : Nat) (b : OpBody) : (s.groupOp t g b).agenda = s.agenda := rfl
@[simp] theorem State.groupOp_subject (s : State) (t g : Nat) (b : OpBody) : (s.groupOp t g b).subject = s.subject := rfl
@[simp] theorem State.groupOp_cur (s : State) (t g : Nat) (b : OpBody) : (s.groupOp t g b).cur = s.cur := rfl
@[simp] theorem State.groupOp_freeCtr (s : State) (t g : Nat) (b : OpBody) : (s.groupOp t g b).freeCtr = s.freeCtr := rfl
@[simp] theorem State.groupOp_teamCtr (s : State) (t g : Nat) (b : OpBody) : (s.groupOp t g b).teamCtr = s.teamCtr := rfl
@[simp] theorem State.groupOp_mgmt (s : State) (t g : Nat) (b : OpBody) : (s.groupOp t g b).mgmt = s.mgmt := rfl
@[simp] theorem State.groupOp_inject (s : State) (t g : Nat) (b : OpBody) : (s.groupOp t g b).inject = s.inject := rfl
@[simp] theorem State.groupOp_ctxs (s : State) (t g : Nat) (b : OpBody) : (s.groupOp t g b).ctxs = s.ctxs := rfl
@[simp] theorem State.groupOp_queues (s : State) (t g : Nat) (b : OpBody) : (s.groupOp t g b).queues = s.queues := rfl
@[simp] theorem State.groupOp_qmem (s : State) (t g : Nat) (b : OpBody) : (s.groupOp t g b).qmem = s.qmem := rfl
@[simp] theorem State.groupOp_grids (s : State) (t g : Nat) (b : OpBody) : (s.groupOp t g b).grids = s.grids := rfl
@[simp] theorem State.groupOp_susplim (s : State) (t g : Nat) (b : OpBody) : (s.groupOp t g b).susplim = s.susplim := rfl
@[simp] theorem State.groupOp_teams (s : State) (t g : Nat) (b : OpBody) : (s.groupOp t g b).teams = s.teams := rfl
@[simp] theorem State.groupOp_clusters (s : State) (t g : Nat) (b : OpBody) : (s.groupOp t g b).clusters = s.clusters := rfl
@[simp] theorem State.groupOp_cores (s : State) (t g : Nat) (b : OpBody) : (s.groupOp t g b).cores = s.cores := rfl
@[simp] theorem State.groupOp_vcs (s : State) (t g : Nat) (b : OpBody) : (s.groupOp t g b).vcs = s.vcs := rfl
@[simp] theorem State.groupOp_homes (s : State) (t g : Nat) (b : OpBody) : (s.groupOp t g b).homes = s.homes := rfl
@[simp] theorem State.groupOp_shareCtx (s : State) (t g : Nat) (b : OpBody) : (s.groupOp t g b).shareCtx = s.shareCtx := rfl
@[simp] theorem State.groupOp_slret (s : State) (t g : Nat) (b : OpBody) : (s.groupOp t g b).slret = s.slret := rfl
@[simp] theorem State.groupOp_sliceRet (s : State) (t g : Nat) (b : OpBody) : (s.groupOp t g b).sliceRet = s.sliceRet := rfl
@[simp] theorem State.groupOp_sliceUse (s : State) (t g : Nat) (b : OpBody) : (s.groupOp t g b).sliceUse = s.sliceUse := rfl
@[simp] theorem State.groupOp_ceslice (s : State) (t g : Nat) (b : OpBody) : (s.groupOp t g b).ceslice = s.ceslice := rfl
@[simp] theorem State.groupOp_wobs (s : State) (t g : Nat) (b : OpBody) : (s.groupOp t g b).wobs = s.wobs := rfl
@[simp] theorem State.groupOp_monitors (s : State) (t g : Nat) (b : OpBody) : (s.groupOp t g b).monitors = s.monitors := rfl
@[simp] theorem State.groupOp_copies (s : State) (t g : Nat) (b : OpBody) : (s.groupOp t g b).copies = s.copies := rfl
@[simp] theorem State.groupOp_fabric (s : State) (t g : Nat) (b : OpBody) : (s.groupOp t g b).fabric = s.fabric := rfl
@[simp] theorem State.groupOp_ccwd (s : State) (t g : Nat) (b : OpBody) : (s.groupOp t g b).ccwd = s.ccwd := rfl
@[simp] theorem State.groupOp_links (s : State) (t g : Nat) (b : OpBody) : (s.groupOp t g b).links = s.links := rfl
@[simp] theorem State.groupOp_drawer (s : State) (t g : Nat) (b : OpBody) : (s.groupOp t g b).drawer = s.drawer := rfl
@[simp] theorem State.groupOp_images (s : State) (t g : Nat) (b : OpBody) : (s.groupOp t g b).images = s.images := rfl

/-! ## onGroup and what is built on it -/

@[simp] theorem State.onGroup_now (s : State) (t g : Nat) (f : Group → Group) : (s.onGroup t g f).now = s.now := by
  unfold State.onGroup; split <;> rfl
@[simp] theorem State.onCur_now (s : State) (c : Cur) (f : Group → Group) : (s.onCur c f).now = s.now := State.onGroup_now ..
@[simp] theorem State.onRun_now (s : State) (c : Cur) (f : Run → Run) : (s.onRun c f).now = s.now := State.onCur_now ..
@[simp] theorem State.setWait_now (s : State) (c : Cur) (w : Wait) : (s.setWait c w).now = s.now := State.onCur_now ..
@[simp] theorem State.branchTo_now (s : State) (c : Cur) (a : DWord) : (s.branchTo c a).now = s.now := State.onCur_now ..
@[simp] theorem State.onGroup_agenda (s : State) (t g : Nat) (f : Group → Group) : (s.onGroup t g f).agenda = s.agenda := by
  unfold State.onGroup; split <;> rfl
@[simp] theorem State.onCur_agenda (s : State) (c : Cur) (f : Group → Group) : (s.onCur c f).agenda = s.agenda := State.onGroup_agenda ..
@[simp] theorem State.onRun_agenda (s : State) (c : Cur) (f : Run → Run) : (s.onRun c f).agenda = s.agenda := State.onCur_agenda ..
@[simp] theorem State.setWait_agenda (s : State) (c : Cur) (w : Wait) : (s.setWait c w).agenda = s.agenda := State.onCur_agenda ..
@[simp] theorem State.branchTo_agenda (s : State) (c : Cur) (a : DWord) : (s.branchTo c a).agenda = s.agenda := State.onCur_agenda ..
@[simp] theorem State.onGroup_subject (s : State) (t g : Nat) (f : Group → Group) : (s.onGroup t g f).subject = s.subject := by
  unfold State.onGroup; split <;> rfl
@[simp] theorem State.onCur_subject (s : State) (c : Cur) (f : Group → Group) : (s.onCur c f).subject = s.subject := State.onGroup_subject ..
@[simp] theorem State.onRun_subject (s : State) (c : Cur) (f : Run → Run) : (s.onRun c f).subject = s.subject := State.onCur_subject ..
@[simp] theorem State.setWait_subject (s : State) (c : Cur) (w : Wait) : (s.setWait c w).subject = s.subject := State.onCur_subject ..
@[simp] theorem State.branchTo_subject (s : State) (c : Cur) (a : DWord) : (s.branchTo c a).subject = s.subject := State.onCur_subject ..
@[simp] theorem State.onGroup_cur (s : State) (t g : Nat) (f : Group → Group) : (s.onGroup t g f).cur = s.cur := by
  unfold State.onGroup; split <;> rfl
@[simp] theorem State.onCur_cur (s : State) (c : Cur) (f : Group → Group) : (s.onCur c f).cur = s.cur := State.onGroup_cur ..
@[simp] theorem State.onRun_cur (s : State) (c : Cur) (f : Run → Run) : (s.onRun c f).cur = s.cur := State.onCur_cur ..
@[simp] theorem State.setWait_cur (s : State) (c : Cur) (w : Wait) : (s.setWait c w).cur = s.cur := State.onCur_cur ..
@[simp] theorem State.branchTo_cur (s : State) (c : Cur) (a : DWord) : (s.branchTo c a).cur = s.cur := State.onCur_cur ..
@[simp] theorem State.onGroup_freeCtr (s : State) (t g : Nat) (f : Group → Group) : (s.onGroup t g f).freeCtr = s.freeCtr := by
  unfold State.onGroup; split <;> rfl
@[simp] theorem State.onCur_freeCtr (s : State) (c : Cur) (f : Group → Group) : (s.onCur c f).freeCtr = s.freeCtr := State.onGroup_freeCtr ..
@[simp] theorem State.onRun_freeCtr (s : State) (c : Cur) (f : Run → Run) : (s.onRun c f).freeCtr = s.freeCtr := State.onCur_freeCtr ..
@[simp] theorem State.setWait_freeCtr (s : State) (c : Cur) (w : Wait) : (s.setWait c w).freeCtr = s.freeCtr := State.onCur_freeCtr ..
@[simp] theorem State.branchTo_freeCtr (s : State) (c : Cur) (a : DWord) : (s.branchTo c a).freeCtr = s.freeCtr := State.onCur_freeCtr ..
@[simp] theorem State.onGroup_opCtr (s : State) (t g : Nat) (f : Group → Group) : (s.onGroup t g f).opCtr = s.opCtr := by
  unfold State.onGroup; split <;> rfl
@[simp] theorem State.onCur_opCtr (s : State) (c : Cur) (f : Group → Group) : (s.onCur c f).opCtr = s.opCtr := State.onGroup_opCtr ..
@[simp] theorem State.onRun_opCtr (s : State) (c : Cur) (f : Run → Run) : (s.onRun c f).opCtr = s.opCtr := State.onCur_opCtr ..
@[simp] theorem State.setWait_opCtr (s : State) (c : Cur) (w : Wait) : (s.setWait c w).opCtr = s.opCtr := State.onCur_opCtr ..
@[simp] theorem State.branchTo_opCtr (s : State) (c : Cur) (a : DWord) : (s.branchTo c a).opCtr = s.opCtr := State.onCur_opCtr ..
@[simp] theorem State.onGroup_teamCtr (s : State) (t g : Nat) (f : Group → Group) : (s.onGroup t g f).teamCtr = s.teamCtr := by
  unfold State.onGroup; split <;> rfl
@[simp] theorem State.onCur_teamCtr (s : State) (c : Cur) (f : Group → Group) : (s.onCur c f).teamCtr = s.teamCtr := State.onGroup_teamCtr ..
@[simp] theorem State.onRun_teamCtr (s : State) (c : Cur) (f : Run → Run) : (s.onRun c f).teamCtr = s.teamCtr := State.onCur_teamCtr ..
@[simp] theorem State.setWait_teamCtr (s : State) (c : Cur) (w : Wait) : (s.setWait c w).teamCtr = s.teamCtr := State.onCur_teamCtr ..
@[simp] theorem State.branchTo_teamCtr (s : State) (c : Cur) (a : DWord) : (s.branchTo c a).teamCtr = s.teamCtr := State.onCur_teamCtr ..
@[simp] theorem State.onGroup_mgmt (s : State) (t g : Nat) (f : Group → Group) : (s.onGroup t g f).mgmt = s.mgmt := by
  unfold State.onGroup; split <;> rfl
@[simp] theorem State.onCur_mgmt (s : State) (c : Cur) (f : Group → Group) : (s.onCur c f).mgmt = s.mgmt := State.onGroup_mgmt ..
@[simp] theorem State.onRun_mgmt (s : State) (c : Cur) (f : Run → Run) : (s.onRun c f).mgmt = s.mgmt := State.onCur_mgmt ..
@[simp] theorem State.setWait_mgmt (s : State) (c : Cur) (w : Wait) : (s.setWait c w).mgmt = s.mgmt := State.onCur_mgmt ..
@[simp] theorem State.branchTo_mgmt (s : State) (c : Cur) (a : DWord) : (s.branchTo c a).mgmt = s.mgmt := State.onCur_mgmt ..
@[simp] theorem State.onGroup_inject (s : State) (t g : Nat) (f : Group → Group) : (s.onGroup t g f).inject = s.inject := by
  unfold State.onGroup; split <;> rfl
@[simp] theorem State.onCur_inject (s : State) (c : Cur) (f : Group → Group) : (s.onCur c f).inject = s.inject := State.onGroup_inject ..
@[simp] theorem State.onRun_inject (s : State) (c : Cur) (f : Run → Run) : (s.onRun c f).inject = s.inject := State.onCur_inject ..
@[simp] theorem State.setWait_inject (s : State) (c : Cur) (w : Wait) : (s.setWait c w).inject = s.inject := State.onCur_inject ..
@[simp] theorem State.branchTo_inject (s : State) (c : Cur) (a : DWord) : (s.branchTo c a).inject = s.inject := State.onCur_inject ..
@[simp] theorem State.onGroup_ctxs (s : State) (t g : Nat) (f : Group → Group) : (s.onGroup t g f).ctxs = s.ctxs := by
  unfold State.onGroup; split <;> rfl
@[simp] theorem State.onCur_ctxs (s : State) (c : Cur) (f : Group → Group) : (s.onCur c f).ctxs = s.ctxs := State.onGroup_ctxs ..
@[simp] theorem State.onRun_ctxs (s : State) (c : Cur) (f : Run → Run) : (s.onRun c f).ctxs = s.ctxs := State.onCur_ctxs ..
@[simp] theorem State.setWait_ctxs (s : State) (c : Cur) (w : Wait) : (s.setWait c w).ctxs = s.ctxs := State.onCur_ctxs ..
@[simp] theorem State.branchTo_ctxs (s : State) (c : Cur) (a : DWord) : (s.branchTo c a).ctxs = s.ctxs := State.onCur_ctxs ..
@[simp] theorem State.onGroup_queues (s : State) (t g : Nat) (f : Group → Group) : (s.onGroup t g f).queues = s.queues := by
  unfold State.onGroup; split <;> rfl
@[simp] theorem State.onCur_queues (s : State) (c : Cur) (f : Group → Group) : (s.onCur c f).queues = s.queues := State.onGroup_queues ..
@[simp] theorem State.onRun_queues (s : State) (c : Cur) (f : Run → Run) : (s.onRun c f).queues = s.queues := State.onCur_queues ..
@[simp] theorem State.setWait_queues (s : State) (c : Cur) (w : Wait) : (s.setWait c w).queues = s.queues := State.onCur_queues ..
@[simp] theorem State.branchTo_queues (s : State) (c : Cur) (a : DWord) : (s.branchTo c a).queues = s.queues := State.onCur_queues ..
@[simp] theorem State.onGroup_qmem (s : State) (t g : Nat) (f : Group → Group) : (s.onGroup t g f).qmem = s.qmem := by
  unfold State.onGroup; split <;> rfl
@[simp] theorem State.onCur_qmem (s : State) (c : Cur) (f : Group → Group) : (s.onCur c f).qmem = s.qmem := State.onGroup_qmem ..
@[simp] theorem State.onRun_qmem (s : State) (c : Cur) (f : Run → Run) : (s.onRun c f).qmem = s.qmem := State.onCur_qmem ..
@[simp] theorem State.setWait_qmem (s : State) (c : Cur) (w : Wait) : (s.setWait c w).qmem = s.qmem := State.onCur_qmem ..
@[simp] theorem State.branchTo_qmem (s : State) (c : Cur) (a : DWord) : (s.branchTo c a).qmem = s.qmem := State.onCur_qmem ..
@[simp] theorem State.onGroup_grids (s : State) (t g : Nat) (f : Group → Group) : (s.onGroup t g f).grids = s.grids := by
  unfold State.onGroup; split <;> rfl
@[simp] theorem State.onCur_grids (s : State) (c : Cur) (f : Group → Group) : (s.onCur c f).grids = s.grids := State.onGroup_grids ..
@[simp] theorem State.onRun_grids (s : State) (c : Cur) (f : Run → Run) : (s.onRun c f).grids = s.grids := State.onCur_grids ..
@[simp] theorem State.setWait_grids (s : State) (c : Cur) (w : Wait) : (s.setWait c w).grids = s.grids := State.onCur_grids ..
@[simp] theorem State.branchTo_grids (s : State) (c : Cur) (a : DWord) : (s.branchTo c a).grids = s.grids := State.onCur_grids ..
@[simp] theorem State.onGroup_susplim (s : State) (t g : Nat) (f : Group → Group) : (s.onGroup t g f).susplim = s.susplim := by
  unfold State.onGroup; split <;> rfl
@[simp] theorem State.onCur_susplim (s : State) (c : Cur) (f : Group → Group) : (s.onCur c f).susplim = s.susplim := State.onGroup_susplim ..
@[simp] theorem State.onRun_susplim (s : State) (c : Cur) (f : Run → Run) : (s.onRun c f).susplim = s.susplim := State.onCur_susplim ..
@[simp] theorem State.setWait_susplim (s : State) (c : Cur) (w : Wait) : (s.setWait c w).susplim = s.susplim := State.onCur_susplim ..
@[simp] theorem State.branchTo_susplim (s : State) (c : Cur) (a : DWord) : (s.branchTo c a).susplim = s.susplim := State.onCur_susplim ..
@[simp] theorem State.onGroup_ops (s : State) (t g : Nat) (f : Group → Group) : (s.onGroup t g f).ops = s.ops := by
  unfold State.onGroup; split <;> rfl
@[simp] theorem State.onCur_ops (s : State) (c : Cur) (f : Group → Group) : (s.onCur c f).ops = s.ops := State.onGroup_ops ..
@[simp] theorem State.onRun_ops (s : State) (c : Cur) (f : Run → Run) : (s.onRun c f).ops = s.ops := State.onCur_ops ..
@[simp] theorem State.setWait_ops (s : State) (c : Cur) (w : Wait) : (s.setWait c w).ops = s.ops := State.onCur_ops ..
@[simp] theorem State.branchTo_ops (s : State) (c : Cur) (a : DWord) : (s.branchTo c a).ops = s.ops := State.onCur_ops ..
@[simp] theorem State.onGroup_clusters (s : State) (t g : Nat) (f : Group → Group) : (s.onGroup t g f).clusters = s.clusters := by
  unfold State.onGroup; split <;> rfl
@[simp] theorem State.onCur_clusters (s : State) (c : Cur) (f : Group → Group) : (s.onCur c f).clusters = s.clusters := State.onGroup_clusters ..
@[simp] theorem State.onRun_clusters (s : State) (c : Cur) (f : Run → Run) : (s.onRun c f).clusters = s.clusters := State.onCur_clusters ..
@[simp] theorem State.setWait_clusters (s : State) (c : Cur) (w : Wait) : (s.setWait c w).clusters = s.clusters := State.onCur_clusters ..
@[simp] theorem State.branchTo_clusters (s : State) (c : Cur) (a : DWord) : (s.branchTo c a).clusters = s.clusters := State.onCur_clusters ..
@[simp] theorem State.onGroup_cores (s : State) (t g : Nat) (f : Group → Group) : (s.onGroup t g f).cores = s.cores := by
  unfold State.onGroup; split <;> rfl
@[simp] theorem State.onCur_cores (s : State) (c : Cur) (f : Group → Group) : (s.onCur c f).cores = s.cores := State.onGroup_cores ..
@[simp] theorem State.onRun_cores (s : State) (c : Cur) (f : Run → Run) : (s.onRun c f).cores = s.cores := State.onCur_cores ..
@[simp] theorem State.setWait_cores (s : State) (c : Cur) (w : Wait) : (s.setWait c w).cores = s.cores := State.onCur_cores ..
@[simp] theorem State.branchTo_cores (s : State) (c : Cur) (a : DWord) : (s.branchTo c a).cores = s.cores := State.onCur_cores ..
@[simp] theorem State.onGroup_vcs (s : State) (t g : Nat) (f : Group → Group) : (s.onGroup t g f).vcs = s.vcs := by
  unfold State.onGroup; split <;> rfl
@[simp] theorem State.onCur_vcs (s : State) (c : Cur) (f : Group → Group) : (s.onCur c f).vcs = s.vcs := State.onGroup_vcs ..
@[simp] theorem State.onRun_vcs (s : State) (c : Cur) (f : Run → Run) : (s.onRun c f).vcs = s.vcs := State.onCur_vcs ..
@[simp] theorem State.setWait_vcs (s : State) (c : Cur) (w : Wait) : (s.setWait c w).vcs = s.vcs := State.onCur_vcs ..
@[simp] theorem State.branchTo_vcs (s : State) (c : Cur) (a : DWord) : (s.branchTo c a).vcs = s.vcs := State.onCur_vcs ..
@[simp] theorem State.onGroup_homes (s : State) (t g : Nat) (f : Group → Group) : (s.onGroup t g f).homes = s.homes := by
  unfold State.onGroup; split <;> rfl
@[simp] theorem State.onCur_homes (s : State) (c : Cur) (f : Group → Group) : (s.onCur c f).homes = s.homes := State.onGroup_homes ..
@[simp] theorem State.onRun_homes (s : State) (c : Cur) (f : Run → Run) : (s.onRun c f).homes = s.homes := State.onCur_homes ..
@[simp] theorem State.setWait_homes (s : State) (c : Cur) (w : Wait) : (s.setWait c w).homes = s.homes := State.onCur_homes ..
@[simp] theorem State.branchTo_homes (s : State) (c : Cur) (a : DWord) : (s.branchTo c a).homes = s.homes := State.onCur_homes ..
@[simp] theorem State.onGroup_shareCtx (s : State) (t g : Nat) (f : Group → Group) : (s.onGroup t g f).shareCtx = s.shareCtx := by
  unfold State.onGroup; split <;> rfl
@[simp] theorem State.onCur_shareCtx (s : State) (c : Cur) (f : Group → Group) : (s.onCur c f).shareCtx = s.shareCtx := State.onGroup_shareCtx ..
@[simp] theorem State.onRun_shareCtx (s : State) (c : Cur) (f : Run → Run) : (s.onRun c f).shareCtx = s.shareCtx := State.onCur_shareCtx ..
@[simp] theorem State.setWait_shareCtx (s : State) (c : Cur) (w : Wait) : (s.setWait c w).shareCtx = s.shareCtx := State.onCur_shareCtx ..
@[simp] theorem State.branchTo_shareCtx (s : State) (c : Cur) (a : DWord) : (s.branchTo c a).shareCtx = s.shareCtx := State.onCur_shareCtx ..
@[simp] theorem State.onGroup_slret (s : State) (t g : Nat) (f : Group → Group) : (s.onGroup t g f).slret = s.slret := by
  unfold State.onGroup; split <;> rfl
@[simp] theorem State.onCur_slret (s : State) (c : Cur) (f : Group → Group) : (s.onCur c f).slret = s.slret := State.onGroup_slret ..
@[simp] theorem State.onRun_slret (s : State) (c : Cur) (f : Run → Run) : (s.onRun c f).slret = s.slret := State.onCur_slret ..
@[simp] theorem State.setWait_slret (s : State) (c : Cur) (w : Wait) : (s.setWait c w).slret = s.slret := State.onCur_slret ..
@[simp] theorem State.branchTo_slret (s : State) (c : Cur) (a : DWord) : (s.branchTo c a).slret = s.slret := State.onCur_slret ..
@[simp] theorem State.onGroup_sliceRet (s : State) (t g : Nat) (f : Group → Group) : (s.onGroup t g f).sliceRet = s.sliceRet := by
  unfold State.onGroup; split <;> rfl
@[simp] theorem State.onCur_sliceRet (s : State) (c : Cur) (f : Group → Group) : (s.onCur c f).sliceRet = s.sliceRet := State.onGroup_sliceRet ..
@[simp] theorem State.onRun_sliceRet (s : State) (c : Cur) (f : Run → Run) : (s.onRun c f).sliceRet = s.sliceRet := State.onCur_sliceRet ..
@[simp] theorem State.setWait_sliceRet (s : State) (c : Cur) (w : Wait) : (s.setWait c w).sliceRet = s.sliceRet := State.onCur_sliceRet ..
@[simp] theorem State.branchTo_sliceRet (s : State) (c : Cur) (a : DWord) : (s.branchTo c a).sliceRet = s.sliceRet := State.onCur_sliceRet ..
@[simp] theorem State.onGroup_sliceUse (s : State) (t g : Nat) (f : Group → Group) : (s.onGroup t g f).sliceUse = s.sliceUse := by
  unfold State.onGroup; split <;> rfl
@[simp] theorem State.onCur_sliceUse (s : State) (c : Cur) (f : Group → Group) : (s.onCur c f).sliceUse = s.sliceUse := State.onGroup_sliceUse ..
@[simp] theorem State.onRun_sliceUse (s : State) (c : Cur) (f : Run → Run) : (s.onRun c f).sliceUse = s.sliceUse := State.onCur_sliceUse ..
@[simp] theorem State.setWait_sliceUse (s : State) (c : Cur) (w : Wait) : (s.setWait c w).sliceUse = s.sliceUse := State.onCur_sliceUse ..
@[simp] theorem State.branchTo_sliceUse (s : State) (c : Cur) (a : DWord) : (s.branchTo c a).sliceUse = s.sliceUse := State.onCur_sliceUse ..
@[simp] theorem State.onGroup_ceslice (s : State) (t g : Nat) (f : Group → Group) : (s.onGroup t g f).ceslice = s.ceslice := by
  unfold State.onGroup; split <;> rfl
@[simp] theorem State.onCur_ceslice (s : State) (c : Cur) (f : Group → Group) : (s.onCur c f).ceslice = s.ceslice := State.onGroup_ceslice ..
@[simp] theorem State.onRun_ceslice (s : State) (c : Cur) (f : Run → Run) : (s.onRun c f).ceslice = s.ceslice := State.onCur_ceslice ..
@[simp] theorem State.setWait_ceslice (s : State) (c : Cur) (w : Wait) : (s.setWait c w).ceslice = s.ceslice := State.onCur_ceslice ..
@[simp] theorem State.branchTo_ceslice (s : State) (c : Cur) (a : DWord) : (s.branchTo c a).ceslice = s.ceslice := State.onCur_ceslice ..
@[simp] theorem State.onGroup_wobs (s : State) (t g : Nat) (f : Group → Group) : (s.onGroup t g f).wobs = s.wobs := by
  unfold State.onGroup; split <;> rfl
@[simp] theorem State.onCur_wobs (s : State) (c : Cur) (f : Group → Group) : (s.onCur c f).wobs = s.wobs := State.onGroup_wobs ..
@[simp] theorem State.onRun_wobs (s : State) (c : Cur) (f : Run → Run) : (s.onRun c f).wobs = s.wobs := State.onCur_wobs ..
@[simp] theorem State.setWait_wobs (s : State) (c : Cur) (w : Wait) : (s.setWait c w).wobs = s.wobs := State.onCur_wobs ..
@[simp] theorem State.branchTo_wobs (s : State) (c : Cur) (a : DWord) : (s.branchTo c a).wobs = s.wobs := State.onCur_wobs ..
@[simp] theorem State.onGroup_monitors (s : State) (t g : Nat) (f : Group → Group) : (s.onGroup t g f).monitors = s.monitors := by
  unfold State.onGroup; split <;> rfl
@[simp] theorem State.onCur_monitors (s : State) (c : Cur) (f : Group → Group) : (s.onCur c f).monitors = s.monitors := State.onGroup_monitors ..
@[simp] theorem State.onRun_monitors (s : State) (c : Cur) (f : Run → Run) : (s.onRun c f).monitors = s.monitors := State.onCur_monitors ..
@[simp] theorem State.setWait_monitors (s : State) (c : Cur) (w : Wait) : (s.setWait c w).monitors = s.monitors := State.onCur_monitors ..
@[simp] theorem State.branchTo_monitors (s : State) (c : Cur) (a : DWord) : (s.branchTo c a).monitors = s.monitors := State.onCur_monitors ..
@[simp] theorem State.onGroup_copies (s : State) (t g : Nat) (f : Group → Group) : (s.onGroup t g f).copies = s.copies := by
  unfold State.onGroup; split <;> rfl
@[simp] theorem State.onCur_copies (s : State) (c : Cur) (f : Group → Group) : (s.onCur c f).copies = s.copies := State.onGroup_copies ..
@[simp] theorem State.onRun_copies (s : State) (c : Cur) (f : Run → Run) : (s.onRun c f).copies = s.copies := State.onCur_copies ..
@[simp] theorem State.setWait_copies (s : State) (c : Cur) (w : Wait) : (s.setWait c w).copies = s.copies := State.onCur_copies ..
@[simp] theorem State.branchTo_copies (s : State) (c : Cur) (a : DWord) : (s.branchTo c a).copies = s.copies := State.onCur_copies ..
@[simp] theorem State.onGroup_fabric (s : State) (t g : Nat) (f : Group → Group) : (s.onGroup t g f).fabric = s.fabric := by
  unfold State.onGroup; split <;> rfl
@[simp] theorem State.onCur_fabric (s : State) (c : Cur) (f : Group → Group) : (s.onCur c f).fabric = s.fabric := State.onGroup_fabric ..
@[simp] theorem State.onRun_fabric (s : State) (c : Cur) (f : Run → Run) : (s.onRun c f).fabric = s.fabric := State.onCur_fabric ..
@[simp] theorem State.setWait_fabric (s : State) (c : Cur) (w : Wait) : (s.setWait c w).fabric = s.fabric := State.onCur_fabric ..
@[simp] theorem State.branchTo_fabric (s : State) (c : Cur) (a : DWord) : (s.branchTo c a).fabric = s.fabric := State.onCur_fabric ..
@[simp] theorem State.onGroup_ccwd (s : State) (t g : Nat) (f : Group → Group) : (s.onGroup t g f).ccwd = s.ccwd := by
  unfold State.onGroup; split <;> rfl
@[simp] theorem State.onCur_ccwd (s : State) (c : Cur) (f : Group → Group) : (s.onCur c f).ccwd = s.ccwd := State.onGroup_ccwd ..
@[simp] theorem State.onRun_ccwd (s : State) (c : Cur) (f : Run → Run) : (s.onRun c f).ccwd = s.ccwd := State.onCur_ccwd ..
@[simp] theorem State.setWait_ccwd (s : State) (c : Cur) (w : Wait) : (s.setWait c w).ccwd = s.ccwd := State.onCur_ccwd ..
@[simp] theorem State.branchTo_ccwd (s : State) (c : Cur) (a : DWord) : (s.branchTo c a).ccwd = s.ccwd := State.onCur_ccwd ..
@[simp] theorem State.onGroup_links (s : State) (t g : Nat) (f : Group → Group) : (s.onGroup t g f).links = s.links := by
  unfold State.onGroup; split <;> rfl
@[simp] theorem State.onCur_links (s : State) (c : Cur) (f : Group → Group) : (s.onCur c f).links = s.links := State.onGroup_links ..
@[simp] theorem State.onRun_links (s : State) (c : Cur) (f : Run → Run) : (s.onRun c f).links = s.links := State.onCur_links ..
@[simp] theorem State.setWait_links (s : State) (c : Cur) (w : Wait) : (s.setWait c w).links = s.links := State.onCur_links ..
@[simp] theorem State.branchTo_links (s : State) (c : Cur) (a : DWord) : (s.branchTo c a).links = s.links := State.onCur_links ..
@[simp] theorem State.onGroup_drawer (s : State) (t g : Nat) (f : Group → Group) : (s.onGroup t g f).drawer = s.drawer := by
  unfold State.onGroup; split <;> rfl
@[simp] theorem State.onCur_drawer (s : State) (c : Cur) (f : Group → Group) : (s.onCur c f).drawer = s.drawer := State.onGroup_drawer ..
@[simp] theorem State.onRun_drawer (s : State) (c : Cur) (f : Run → Run) : (s.onRun c f).drawer = s.drawer := State.onCur_drawer ..
@[simp] theorem State.setWait_drawer (s : State) (c : Cur) (w : Wait) : (s.setWait c w).drawer = s.drawer := State.onCur_drawer ..
@[simp] theorem State.branchTo_drawer (s : State) (c : Cur) (a : DWord) : (s.branchTo c a).drawer = s.drawer := State.onCur_drawer ..
@[simp] theorem State.onGroup_images (s : State) (t g : Nat) (f : Group → Group) : (s.onGroup t g f).images = s.images := by
  unfold State.onGroup; split <;> rfl
@[simp] theorem State.onCur_images (s : State) (c : Cur) (f : Group → Group) : (s.onCur c f).images = s.images := State.onGroup_images ..
@[simp] theorem State.onRun_images (s : State) (c : Cur) (f : Run → Run) : (s.onRun c f).images = s.images := State.onCur_images ..
@[simp] theorem State.setWait_images (s : State) (c : Cur) (w : Wait) : (s.setWait c w).images = s.images := State.onCur_images ..
@[simp] theorem State.branchTo_images (s : State) (c : Cur) (a : DWord) : (s.branchTo c a).images = s.images := State.onCur_images ..

/-! ## newOp, longOp, completeOp -/

@[simp] theorem State.newOp_now (s : State) (c : Cur) (x : Option Nat) (b : OpBody) : (s.newOp c x b).2.now = s.now := by
  cases x <;> simp [State.newOp]
@[simp] theorem State.longOp_now (s : State) (c : Cur) (r : Run) (x : Bool) (b : OpBody) : (s.longOp c r x b).2.now = s.now :=
  State.newOp_now ..
@[simp] theorem State.newOp_agenda (s : State) (c : Cur) (x : Option Nat) (b : OpBody) : (s.newOp c x b).2.agenda = s.agenda := by
  cases x <;> simp [State.newOp]
@[simp] theorem State.longOp_agenda (s : State) (c : Cur) (r : Run) (x : Bool) (b : OpBody) : (s.longOp c r x b).2.agenda = s.agenda :=
  State.newOp_agenda ..
@[simp] theorem State.newOp_subject (s : State) (c : Cur) (x : Option Nat) (b : OpBody) : (s.newOp c x b).2.subject = s.subject := by
  cases x <;> simp [State.newOp]
@[simp] theorem State.longOp_subject (s : State) (c : Cur) (r : Run) (x : Bool) (b : OpBody) : (s.longOp c r x b).2.subject = s.subject :=
  State.newOp_subject ..
@[simp] theorem State.newOp_cur (s : State) (c : Cur) (x : Option Nat) (b : OpBody) : (s.newOp c x b).2.cur = s.cur := by
  cases x <;> simp [State.newOp]
@[simp] theorem State.longOp_cur (s : State) (c : Cur) (r : Run) (x : Bool) (b : OpBody) : (s.longOp c r x b).2.cur = s.cur :=
  State.newOp_cur ..
@[simp] theorem State.newOp_freeCtr (s : State) (c : Cur) (x : Option Nat) (b : OpBody) : (s.newOp c x b).2.freeCtr = s.freeCtr := by
  cases x <;> simp [State.newOp]
@[simp] theorem State.longOp_freeCtr (s : State) (c : Cur) (r : Run) (x : Bool) (b : OpBody) : (s.longOp c r x b).2.freeCtr = s.freeCtr :=
  State.newOp_freeCtr ..
@[simp] theorem State.newOp_teamCtr (s : State) (c : Cur) (x : Option Nat) (b : OpBody) : (s.newOp c x b).2.teamCtr = s.teamCtr := by
  cases x <;> simp [State.newOp]
@[simp] theorem State.longOp_teamCtr (s : State) (c : Cur) (r : Run) (x : Bool) (b : OpBody) : (s.longOp c r x b).2.teamCtr = s.teamCtr :=
  State.newOp_teamCtr ..
@[simp] theorem State.newOp_mgmt (s : State) (c : Cur) (x : Option Nat) (b : OpBody) : (s.newOp c x b).2.mgmt = s.mgmt := by
  cases x <;> simp [State.newOp]
@[simp] theorem State.longOp_mgmt (s : State) (c : Cur) (r : Run) (x : Bool) (b : OpBody) : (s.longOp c r x b).2.mgmt = s.mgmt :=
  State.newOp_mgmt ..
@[simp] theorem State.newOp_inject (s : State) (c : Cur) (x : Option Nat) (b : OpBody) : (s.newOp c x b).2.inject = s.inject := by
  cases x <;> simp [State.newOp]
@[simp] theorem State.longOp_inject (s : State) (c : Cur) (r : Run) (x : Bool) (b : OpBody) : (s.longOp c r x b).2.inject = s.inject :=
  State.newOp_inject ..
@[simp] theorem State.newOp_ctxs (s : State) (c : Cur) (x : Option Nat) (b : OpBody) : (s.newOp c x b).2.ctxs = s.ctxs := by
  cases x <;> simp [State.newOp]
@[simp] theorem State.longOp_ctxs (s : State) (c : Cur) (r : Run) (x : Bool) (b : OpBody) : (s.longOp c r x b).2.ctxs = s.ctxs :=
  State.newOp_ctxs ..
@[simp] theorem State.newOp_queues (s : State) (c : Cur) (x : Option Nat) (b : OpBody) : (s.newOp c x b).2.queues = s.queues := by
  cases x <;> simp [State.newOp]
@[simp] theorem State.longOp_queues (s : State) (c : Cur) (r : Run) (x : Bool) (b : OpBody) : (s.longOp c r x b).2.queues = s.queues :=
  State.newOp_queues ..
@[simp] theorem State.newOp_qmem (s : State) (c : Cur) (x : Option Nat) (b : OpBody) : (s.newOp c x b).2.qmem = s.qmem := by
  cases x <;> simp [State.newOp]
@[simp] theorem State.longOp_qmem (s : State) (c : Cur) (r : Run) (x : Bool) (b : OpBody) : (s.longOp c r x b).2.qmem = s.qmem :=
  State.newOp_qmem ..
@[simp] theorem State.newOp_grids (s : State) (c : Cur) (x : Option Nat) (b : OpBody) : (s.newOp c x b).2.grids = s.grids := by
  cases x <;> simp [State.newOp]
@[simp] theorem State.longOp_grids (s : State) (c : Cur) (r : Run) (x : Bool) (b : OpBody) : (s.longOp c r x b).2.grids = s.grids :=
  State.newOp_grids ..
@[simp] theorem State.newOp_susplim (s : State) (c : Cur) (x : Option Nat) (b : OpBody) : (s.newOp c x b).2.susplim = s.susplim := by
  cases x <;> simp [State.newOp]
@[simp] theorem State.longOp_susplim (s : State) (c : Cur) (r : Run) (x : Bool) (b : OpBody) : (s.longOp c r x b).2.susplim = s.susplim :=
  State.newOp_susplim ..
@[simp] theorem State.newOp_clusters (s : State) (c : Cur) (x : Option Nat) (b : OpBody) : (s.newOp c x b).2.clusters = s.clusters := by
  cases x <;> simp [State.newOp]
@[simp] theorem State.longOp_clusters (s : State) (c : Cur) (r : Run) (x : Bool) (b : OpBody) : (s.longOp c r x b).2.clusters = s.clusters :=
  State.newOp_clusters ..
@[simp] theorem State.newOp_cores (s : State) (c : Cur) (x : Option Nat) (b : OpBody) : (s.newOp c x b).2.cores = s.cores := by
  cases x <;> simp [State.newOp]
@[simp] theorem State.longOp_cores (s : State) (c : Cur) (r : Run) (x : Bool) (b : OpBody) : (s.longOp c r x b).2.cores = s.cores :=
  State.newOp_cores ..
@[simp] theorem State.newOp_vcs (s : State) (c : Cur) (x : Option Nat) (b : OpBody) : (s.newOp c x b).2.vcs = s.vcs := by
  cases x <;> simp [State.newOp]
@[simp] theorem State.longOp_vcs (s : State) (c : Cur) (r : Run) (x : Bool) (b : OpBody) : (s.longOp c r x b).2.vcs = s.vcs :=
  State.newOp_vcs ..
@[simp] theorem State.newOp_homes (s : State) (c : Cur) (x : Option Nat) (b : OpBody) : (s.newOp c x b).2.homes = s.homes := by
  cases x <;> simp [State.newOp]
@[simp] theorem State.longOp_homes (s : State) (c : Cur) (r : Run) (x : Bool) (b : OpBody) : (s.longOp c r x b).2.homes = s.homes :=
  State.newOp_homes ..
@[simp] theorem State.newOp_shareCtx (s : State) (c : Cur) (x : Option Nat) (b : OpBody) : (s.newOp c x b).2.shareCtx = s.shareCtx := by
  cases x <;> simp [State.newOp]
@[simp] theorem State.longOp_shareCtx (s : State) (c : Cur) (r : Run) (x : Bool) (b : OpBody) : (s.longOp c r x b).2.shareCtx = s.shareCtx :=
  State.newOp_shareCtx ..
@[simp] theorem State.newOp_slret (s : State) (c : Cur) (x : Option Nat) (b : OpBody) : (s.newOp c x b).2.slret = s.slret := by
  cases x <;> simp [State.newOp]
@[simp] theorem State.longOp_slret (s : State) (c : Cur) (r : Run) (x : Bool) (b : OpBody) : (s.longOp c r x b).2.slret = s.slret :=
  State.newOp_slret ..
@[simp] theorem State.newOp_sliceRet (s : State) (c : Cur) (x : Option Nat) (b : OpBody) : (s.newOp c x b).2.sliceRet = s.sliceRet := by
  cases x <;> simp [State.newOp]
@[simp] theorem State.longOp_sliceRet (s : State) (c : Cur) (r : Run) (x : Bool) (b : OpBody) : (s.longOp c r x b).2.sliceRet = s.sliceRet :=
  State.newOp_sliceRet ..
@[simp] theorem State.newOp_sliceUse (s : State) (c : Cur) (x : Option Nat) (b : OpBody) : (s.newOp c x b).2.sliceUse = s.sliceUse := by
  cases x <;> simp [State.newOp]
@[simp] theorem State.longOp_sliceUse (s : State) (c : Cur) (r : Run) (x : Bool) (b : OpBody) : (s.longOp c r x b).2.sliceUse = s.sliceUse :=
  State.newOp_sliceUse ..
@[simp] theorem State.newOp_ceslice (s : State) (c : Cur) (x : Option Nat) (b : OpBody) : (s.newOp c x b).2.ceslice = s.ceslice := by
  cases x <;> simp [State.newOp]
@[simp] theorem State.longOp_ceslice (s : State) (c : Cur) (r : Run) (x : Bool) (b : OpBody) : (s.longOp c r x b).2.ceslice = s.ceslice :=
  State.newOp_ceslice ..
@[simp] theorem State.newOp_wobs (s : State) (c : Cur) (x : Option Nat) (b : OpBody) : (s.newOp c x b).2.wobs = s.wobs := by
  cases x <;> simp [State.newOp]
@[simp] theorem State.longOp_wobs (s : State) (c : Cur) (r : Run) (x : Bool) (b : OpBody) : (s.longOp c r x b).2.wobs = s.wobs :=
  State.newOp_wobs ..
@[simp] theorem State.newOp_monitors (s : State) (c : Cur) (x : Option Nat) (b : OpBody) : (s.newOp c x b).2.monitors = s.monitors := by
  cases x <;> simp [State.newOp]
@[simp] theorem State.longOp_monitors (s : State) (c : Cur) (r : Run) (x : Bool) (b : OpBody) : (s.longOp c r x b).2.monitors = s.monitors :=
  State.newOp_monitors ..
@[simp] theorem State.newOp_copies (s : State) (c : Cur) (x : Option Nat) (b : OpBody) : (s.newOp c x b).2.copies = s.copies := by
  cases x <;> simp [State.newOp]
@[simp] theorem State.longOp_copies (s : State) (c : Cur) (r : Run) (x : Bool) (b : OpBody) : (s.longOp c r x b).2.copies = s.copies :=
  State.newOp_copies ..
@[simp] theorem State.newOp_fabric (s : State) (c : Cur) (x : Option Nat) (b : OpBody) : (s.newOp c x b).2.fabric = s.fabric := by
  cases x <;> simp [State.newOp]
@[simp] theorem State.longOp_fabric (s : State) (c : Cur) (r : Run) (x : Bool) (b : OpBody) : (s.longOp c r x b).2.fabric = s.fabric :=
  State.newOp_fabric ..
@[simp] theorem State.newOp_ccwd (s : State) (c : Cur) (x : Option Nat) (b : OpBody) : (s.newOp c x b).2.ccwd = s.ccwd := by
  cases x <;> simp [State.newOp]
@[simp] theorem State.longOp_ccwd (s : State) (c : Cur) (r : Run) (x : Bool) (b : OpBody) : (s.longOp c r x b).2.ccwd = s.ccwd :=
  State.newOp_ccwd ..
@[simp] theorem State.newOp_links (s : State) (c : Cur) (x : Option Nat) (b : OpBody) : (s.newOp c x b).2.links = s.links := by
  cases x <;> simp [State.newOp]
@[simp] theorem State.longOp_links (s : State) (c : Cur) (r : Run) (x : Bool) (b : OpBody) : (s.longOp c r x b).2.links = s.links :=
  State.newOp_links ..
@[simp] theorem State.newOp_drawer (s : State) (c : Cur) (x : Option Nat) (b : OpBody) : (s.newOp c x b).2.drawer = s.drawer := by
  cases x <;> simp [State.newOp]
@[simp] theorem State.longOp_drawer (s : State) (c : Cur) (r : Run) (x : Bool) (b : OpBody) : (s.longOp c r x b).2.drawer = s.drawer :=
  State.newOp_drawer ..
@[simp] theorem State.newOp_images (s : State) (c : Cur) (x : Option Nat) (b : OpBody) : (s.newOp c x b).2.images = s.images := by
  cases x <;> simp [State.newOp]
@[simp] theorem State.longOp_images (s : State) (c : Cur) (r : Run) (x : Bool) (b : OpBody) : (s.longOp c r x b).2.images = s.images :=
  State.newOp_images ..
@[simp] theorem State.completeOp_now (s : State) (i : Nat) : (s.completeOp i).now = s.now := by
  unfold State.completeOp; split
  · rfl
  · split <;> simp
@[simp] theorem State.completeOp_agenda (s : State) (i : Nat) : (s.completeOp i).agenda = s.agenda := by
  unfold State.completeOp; split
  · rfl
  · split <;> simp
@[simp] theorem State.completeOp_subject (s : State) (i : Nat) : (s.completeOp i).subject = s.subject := by
  unfold State.completeOp; split
  · rfl
  · split <;> simp
@[simp] theorem State.completeOp_cur (s : State) (i : Nat) : (s.completeOp i).cur = s.cur := by
  unfold State.completeOp; split
  · rfl
  · split <;> simp
@[simp] theorem State.completeOp_freeCtr (s : State) (i : Nat) : (s.completeOp i).freeCtr = s.freeCtr := by
  unfold State.completeOp; split
  · rfl
  · split <;> simp
@[simp] theorem State.completeOp_opCtr (s : State) (i : Nat) : (s.completeOp i).opCtr = s.opCtr := by
  unfold State.completeOp; split
  · rfl
  · split <;> simp
@[simp] theorem State.completeOp_teamCtr (s : State) (i : Nat) : (s.completeOp i).teamCtr = s.teamCtr := by
  unfold State.completeOp; split
  · rfl
  · split <;> simp
@[simp] theorem State.completeOp_mgmt (s : State) (i : Nat) : (s.completeOp i).mgmt = s.mgmt := by
  unfold State.completeOp; split
  · rfl
  · split <;> simp
@[simp] theorem State.completeOp_inject (s : State) (i : Nat) : (s.completeOp i).inject = s.inject := by
  unfold State.completeOp; split
  · rfl
  · split <;> simp
@[simp] theorem State.completeOp_ctxs (s : State) (i : Nat) : (s.completeOp i).ctxs = s.ctxs := by
  unfold State.completeOp; split
  · rfl
  · split <;> simp
@[simp] theorem State.completeOp_queues (s : State) (i : Nat) : (s.completeOp i).queues = s.queues := by
  unfold State.completeOp; split
  · rfl
  · split <;> simp
@[simp] theorem State.completeOp_qmem (s : State) (i : Nat) : (s.completeOp i).qmem = s.qmem := by
  unfold State.completeOp; split
  · rfl
  · split <;> simp
@[simp] theorem State.completeOp_grids (s : State) (i : Nat) : (s.completeOp i).grids = s.grids := by
  unfold State.completeOp; split
  · rfl
  · split <;> simp
@[simp] theorem State.completeOp_susplim (s : State) (i : Nat) : (s.completeOp i).susplim = s.susplim := by
  unfold State.completeOp; split
  · rfl
  · split <;> simp
@[simp] theorem State.completeOp_clusters (s : State) (i : Nat) : (s.completeOp i).clusters = s.clusters := by
  unfold State.completeOp; split
  · rfl
  · split <;> simp
@[simp] theorem State.completeOp_cores (s : State) (i : Nat) : (s.completeOp i).cores = s.cores := by
  unfold State.completeOp; split
  · rfl
  · split <;> simp
@[simp] theorem State.completeOp_vcs (s : State) (i : Nat) : (s.completeOp i).vcs = s.vcs := by
  unfold State.completeOp; split
  · rfl
  · split <;> simp
@[simp] theorem State.completeOp_homes (s : State) (i : Nat) : (s.completeOp i).homes = s.homes := by
  unfold State.completeOp; split
  · rfl
  · split <;> simp
@[simp] theorem State.completeOp_shareCtx (s : State) (i : Nat) : (s.completeOp i).shareCtx = s.shareCtx := by
  unfold State.completeOp; split
  · rfl
  · split <;> simp
@[simp] theorem State.completeOp_slret (s : State) (i : Nat) : (s.completeOp i).slret = s.slret := by
  unfold State.completeOp; split
  · rfl
  · split <;> simp
@[simp] theorem State.completeOp_sliceRet (s : State) (i : Nat) : (s.completeOp i).sliceRet = s.sliceRet := by
  unfold State.completeOp; split
  · rfl
  · split <;> simp
@[simp] theorem State.completeOp_sliceUse (s : State) (i : Nat) : (s.completeOp i).sliceUse = s.sliceUse := by
  unfold State.completeOp; split
  · rfl
  · split <;> simp
@[simp] theorem State.completeOp_ceslice (s : State) (i : Nat) : (s.completeOp i).ceslice = s.ceslice := by
  unfold State.completeOp; split
  · rfl
  · split <;> simp
@[simp] theorem State.completeOp_wobs (s : State) (i : Nat) : (s.completeOp i).wobs = s.wobs := by
  unfold State.completeOp; split
  · rfl
  · split <;> simp
@[simp] theorem State.completeOp_monitors (s : State) (i : Nat) : (s.completeOp i).monitors = s.monitors := by
  unfold State.completeOp; split
  · rfl
  · split <;> simp
@[simp] theorem State.completeOp_copies (s : State) (i : Nat) : (s.completeOp i).copies = s.copies := by
  unfold State.completeOp; split
  · rfl
  · split <;> simp
@[simp] theorem State.completeOp_fabric (s : State) (i : Nat) : (s.completeOp i).fabric = s.fabric := by
  unfold State.completeOp; split
  · rfl
  · split <;> simp
@[simp] theorem State.completeOp_ccwd (s : State) (i : Nat) : (s.completeOp i).ccwd = s.ccwd := by
  unfold State.completeOp; split
  · rfl
  · split <;> simp
@[simp] theorem State.completeOp_links (s : State) (i : Nat) : (s.completeOp i).links = s.links := by
  unfold State.completeOp; split
  · rfl
  · split <;> simp
@[simp] theorem State.completeOp_drawer (s : State) (i : Nat) : (s.completeOp i).drawer = s.drawer := by
  unfold State.completeOp; split
  · rfl
  · split <;> simp
@[simp] theorem State.completeOp_images (s : State) (i : Nat) : (s.completeOp i).images = s.images := by
  unfold State.completeOp; split
  · rfl
  · split <;> simp

/-! ## A component after its own update -/

@[simp] theorem State.cluster_putCluster (s : State) (n : Nat) (c : Cluster) : (s.putCluster n c).cluster n = c := by
  simp [State.cluster, State.putCluster]

theorem State.cluster_putCluster_ne (s : State) {n m : Nat} (c : Cluster) (h : m ≠ n) : (s.putCluster n c).cluster m = s.cluster m := by
  simp [State.cluster, State.putCluster, h]

@[simp] theorem State.core_putCore (s : State) (n : Nat) (c : Core) : (s.putCore n c).core n = c := by
  simp [State.core, State.putCore]

theorem State.core_putCore_ne (s : State) {n m : Nat} (c : Core) (h : m ≠ n) : (s.putCore n c).core m = s.core m := by
  simp [State.core, State.putCore, h]

@[simp] theorem State.ctx_putCtx (s : State) (n : Nat) (c : Ctx) : (s.putCtx n c).ctx n = c := by
  simp [State.ctx, State.putCtx]

theorem State.ctx_putCtx_ne (s : State) {n m : Nat} (c : Ctx) (h : m ≠ n) : (s.putCtx n c).ctx m = s.ctx m := by
  simp [State.ctx, State.putCtx, h]

@[simp] theorem State.link_putLink (s : State) (n : Nat) (l : Link) : (s.putLink n l).link n = l := by
  simp [State.link, State.putLink]

theorem State.link_putLink_ne (s : State) {n m : Nat} (l : Link) (h : m ≠ n) : (s.putLink n l).link m = s.link m := by
  simp [State.link, State.putLink, h]

@[simp] theorem State.queue_putQueue (s : State) (q : Nat) (e : Queue) : (s.putQueue q e).queue q = e := by
  simp [State.queue, State.putQueue]

theorem State.queue_putQueue_ne (s : State) {q r : Nat} (e : Queue) (h : r ≠ q) : (s.putQueue q e).queue r = s.queue r := by
  simp [State.queue, State.putQueue, h]

/-- A team after a change to one of its groups. -/
theorem State.find_onGroup (s : State) (t g : Nat) (f : Group → Group) :
    (s.onGroup t g f).teams.find t =
      (s.teams.find t).map (fun x => { x with groups := x.groups.map (fun y => if y.id = g then f y else y) }) := by
  unfold State.onGroup
  split <;> simp_all [State.putTeam]

/-- Another team is untouched by a change to a group. -/
theorem State.find_onGroup_ne (s : State) {t u : Nat} (g : Nat) (f : Group → Group) (h : u ≠ t) :
    (s.onGroup t g f).teams.find u = s.teams.find u := by
  unfold State.onGroup
  split <;> simp [State.putTeam, h]

theorem find_map_id (l : List Group) (g : Nat) (f : Group → Group) (hf : ∀ x, x.id = g → (f x).id = g) :
    (l.map (fun y => if y.id = g then f y else y)).find? (fun x => x.id == g) = (l.find? (fun x => x.id == g)).map f := by
  induction l with
  | nil => rfl
  | cons x r ih =>
    by_cases h : x.id = g
    · simp [List.find?, h, hf x h]
    · have hb : (x.id == g) = false := by simpa using h
      simp [List.find?, h, hb, ih]

/-- The group after a change that keeps its number. -/
theorem State.group_onGroup (s : State) (t g : Nat) (f : Group → Group) (hf : ∀ x, x.id = g → (f x).id = g) :
    (s.onGroup t g f).group? t g = (s.group? t g).map f := by
  simp only [State.group?, State.find_onGroup]
  cases s.teams.find t with
  | none => rfl
  | some x => exact find_map_id x.groups g f hf

end Sys2Proof.Machine
end

