-- ==== Sys2Proof/Laws/Issue.lean ====
section
/-! SUPPORT. What the shared frames of issue and of the module's own steps can do: one lemma per way in which a word ends. -/

namespace Sys2Proof.Machine

variable {s x y : State} {c : Cur} {g : Group} {k : Gang} {run : Run} {u : Uses}
variable {uses : Cur → Group → Run → Uses} {own : Cur → Group → Run → State → Eff}

/-- A word whose gang is in a run always answers a next state. -/
theorem issueD_next (h : Issuing s c g k run) : ∃ t, issueD uses own s = .next t := by
  simp only [issueD, h.issuer, h.ofGroup, h.ofGang, h.inRun]
  repeat' split
  all_goals exact ⟨_, rfl⟩

/-- A word that passes its checks has its own effect. -/
theorem issueD_own (h : MayIssue (uses c g run) s c g k run) :
    issueD uses own s = .next (settle s c true (keep (uses c g run) c g s (own c g run s))) := by
  simp only [issueD, h.issuer, h.ofGroup, h.ofGang, h.inRun, h.fresh, h.noOp, h.checks, h.agree, h.room]
  simp

/-- A word that its gang waits at has its own effect. -/
theorem issueD_wakes (h : Resumes s c g k run) :
    issueD uses own s = .next (settle s c true (keep (uses c g run) c g s (own c g run s))) := by
  simp only [issueD, h.issuer, h.ofGroup, h.ofGang, h.inRun]
  rw [if_pos h.waits]

theorem keep_ok (hk : keepWrites u c g x = some y) : keep u c g s (.ok x) = .ok y := by simp [keep, hk]
theorem keep_jump (hk : keepWrites u c g x = some y) : keep u c g s (.jump x) = .jump y := by simp [keep, hk]

theorem issueD_ok (h : MayIssue (uses c g run) s c g k run) (ho : own c g run s = .ok x)
    (hk : keepWrites (uses c g run) c g x = some y) : issueD uses own s = .next (settle s c true (.ok y)) := by
  rw [issueD_own h, ho, keep_ok hk]

theorem issueD_jump (h : MayIssue (uses c g run) s c g k run) (ho : own c g run s = .jump x)
    (hk : keepWrites (uses c g run) c g x = some y) : issueD uses own s = .next (settle s c true (.jump y)) := by
  rw [issueD_own h, ho, keep_jump hk]

theorem issueD_stay (h : MayIssue (uses c g run) s c g k run) (ho : own c g run s = .stay x) :
    issueD uses own s = .next (settle s c true (.stay x)) := by
  rw [issueD_own h, ho]; rfl

theorem issueD_wakes_ok (h : Resumes s c g k run) (ho : own c g run s = .ok x)
    (hk : keepWrites (uses c g run) c g x = some y) : issueD uses own s = .next (settle s c true (.ok y)) := by
  rw [issueD_wakes h, ho, keep_ok hk]

theorem issueD_wakes_jump (h : Resumes s c g k run) (ho : own c g run s = .jump x)
    (hk : keepWrites (uses c g run) c g x = some y) : issueD uses own s = .next (settle s c true (.jump y)) := by
  rw [issueD_wakes h, ho, keep_jump hk]

/-- A word that fails a check takes the fault of the first check that it fails (R76). -/
theorem issueD_check (h : Issuing s c g k run) (hw : k.wait = .none) (ho : run.op = none) {f : FaultInfo}
    (hf : checkWord (uses c g run) c g run = some f) : issueD uses own s = .next (settle s c true (.fault f s)) := by
  simp only [issueD, h.issuer, h.ofGroup, h.ofGang, h.inRun, hw, ho, hf]
  simp

/-- Without an issuer nothing issues. -/
theorem issueD_none (h : s.cur = none) : issueD uses own s = .fault .noIssuer := by simp [issueD, h]

/-- A step without a word always answers a next state. -/
theorem onEvent_next (f : Subject → State → State) (s : State) : ∃ t, onEvent f s = .next t := ⟨_, rfl⟩

/-! ## How a word ends -/

@[simp] theorem settle_cur (s0 : State) (c : Cur) (b : Bool) (e : Eff) : (settle s0 c b e).cur = none := rfl

theorem settle_ok (s0 : State) (c : Cur) (b : Bool) (y : State) : settle s0 c b (.ok y) = wordOver c s0 false y := rfl
theorem settle_hint (s0 : State) (c : Cur) (b : Bool) (y : State) : settle s0 c b (.hint y) = wordOver c s0 true y := rfl
theorem settle_stay (s0 : State) (c : Cur) (b : Bool) (y : State) : settle s0 c b (.stay y) = wordStays c s0 y := rfl
theorem settle_free (s0 : State) (c : Cur) (b : Bool) (y : State) : settle s0 c b (.free y) = { y with cur := none } := rfl

/-- Without an open level nothing is saved: what a word wrote is marked in its run only. -/
theorem keepWrites_no_level (h : ∀ t, x.teams.find c.team = some t → t.levels = []) : ∃ y, keepWrites u c g x = some y := by
  unfold keepWrites
  simp only
  have hs : ∀ (t : Team) (l : List Nat), t.levels = [] →
      l.foldl (fun (a : Option Team) r => a.bind (fun t => t.saveS g r)) (some t) = some t := by
    intro t l ht
    induction l with
    | nil => rfl
    | cons r l ih => simp [Team.saveS, ht]; simpa [Team.saveS, ht] using ih
  have hv : ∀ (t : Team) (l : List (Nat × Nat)), t.levels = [] →
      l.foldl (fun (a : Option Team) x => a.bind (fun t => t.saveV g x.1 x.2)) (some t) = some t := by
    intro t l ht
    induction l with
    | nil => rfl
    | cons r l ih => simp [Team.saveV, ht]; simpa [Team.saveV, ht] using ih
  split
  · exact ⟨_, rfl⟩
  · rename_i t ht
    have hl : t.levels = [] := by
      simp only [State.onRun, State.onCur, State.find_onGroup] at ht
      cases hx : x.teams.find c.team with
      | none => simp [hx] at ht
      | some t' =>
        simp only [hx, Option.map_some, Option.some.injEq] at ht
        subst ht
        exact h t' hx
    simp [Team.saveAll, hs t _ hl, hv t _ hl]

/-! ## Claims -/

/-- The outcome of a word's own effect that a claim describes. -/
def Claim.outcome (x : Claim) (c : Cur) (g : Group) (run : Run) (s : State) : Eff :=
  match x.ending with
  | .done => .ok (x.effect c g run s)
  | .hint => .hint (x.effect c g run s)
  | .jump => .jump (x.effect c g run s)
  | .waits => .stay (x.effect c g run s)
  | .free => .free (x.effect c g run s)
  | .fault f => .fault (f c g run s) (x.effect c g run s)

/-- A claim holds of a word whose own effect has the outcome that the claim describes wherever the claim applies. -/
theorem Claim.holds_of {i : Instr} {x : Claim} (own : Cur → Group → Run → State → Eff)
    (he : ∀ s, exec i s = issueD x.uses own s)
    (ho : ∀ s c g k run, x.Applies s c g k run → own c g run s = x.outcome c g run s) : x.Holds i := by
  intro s c g k run ha
  have hk : exec i s = .next (settle s c true (keep (x.uses c g run) c g s (x.outcome c g run s))) := by
    rw [he, ← ho s c g k run ha]
    have h := ha.starts
    split at h
    · exact issueD_wakes h
    · exact issueD_own h
  have hg : s.curGroup? c = some g := by
    have h := ha.starts
    split at h
    · exact h.ofGroup
    · exact h.ofGroup
  simp only [Claim.outcome] at hk
  cases hx : x.ending with
  | done => intro y hy; rw [hk, hx, keep_ok hy]; rfl
  | hint => rw [hk, hx]; rfl
  | jump => intro y hy hr; rw [hk, hx, keep_jump hy]; simp [settle, hg, hr, runOver]
  | waits => rw [hk, hx]; rfl
  | free => rw [hk, hx]; rfl
  | fault f => intro y hy; rw [hk, hx]; simp [keep, hy, settle, wordFaults]

/-- The issuing group's team is there. -/
theorem team_of_group {s : State} {c : Cur} {g : Group} (h : s.curGroup? c = some g) : ∃ t, s.teams.find c.team = some t := by
  cases ht : s.teams.find c.team with
  | some t => exact ⟨t, rfl⟩
  | none => simp [State.curGroup?, State.group?, ht] at h

/-- A claim's issuing group is the one that its effect is given. -/
theorem Claim.Applies.ofGroup {x : Claim} (h : x.Applies s c g k run) : s.curGroup? c = some g := by
  have h := h.starts
  split at h
  · exact h.ofGroup
  · exact h.ofGroup

/-- A step without a word does what its claim says when the two effects agree where the claim is due. -/
theorem Event.holds_of {i : Instr} {x : Event} (f : Subject → State → State) (he : ∀ s, exec i s = onEvent f s)
    (ho : ∀ e s, x.due e s = true → f e s = x.effect e s) : x.Holds i := by
  intro s h
  rw [he, onEvent, ho _ _ h]

/-- A word that stands at a run's start or end. -/
theorem stands_of {i : Instr} {p : Cur → Group → Gang → State → Bool} {x : Cur → Group → Gang → State → State}
    (own : Cur → Group → Option Run → State → Eff) (he : ∀ s, exec i s = issueFree own s)
    (ho : ∀ s c g k, p c g k s = true → own c g k.run s = .free (x c g k s)) : Stands i p x := by
  intro s c g k h1 h2 h3 hp
  rw [he, issueFree]
  simp only [h1, h2, h3, ho s c g k hp]
  rfl

end Sys2Proof.Machine
end

