-- ==== Sys2Proof/Tests/States.lean ====
section
/-! SUPPORT. States for the tests: a word about to issue after reset, small changes to such a state, and what it means that a
state meets the hypotheses of a claim. -/

namespace Sys2Proof.Tests

open Sys2Proof Sys2Proof.Machine

/-! ## Meeting a claim's hypotheses -/

/-- Who issues in a state. -/
def issuerOf (s : State) : Option (Cur × Group × Gang × Run) :=
  s.cur.bind (fun c => (s.curGroup? c).bind (fun g => (g.gang? c.gang).bind (fun k => k.run.map (fun r => (c, g, k, r)))))

/-- The state meets every hypothesis of the claim. -/
def meets (x : Claim) (s : State) : Bool :=
  match issuerOf s with
  | none => false
  | some (c, g, k, run) =>
    let u := x.uses c g run
    (if x.woken then k.wait != .none || run.op.isSome else
      k.wait == .none && run.op == none && checkWord u c g run == none && g.pairDiff run u (lanesOf c.lanes) == none &&
        flagFull u g run == false) &&
    x.cond c g run s &&
    (match x.ending with
     | .hint => true
     | .waits => true
     | .free => true
     | .jump => (keepWrites u c g (x.effect c g run s)).isSome && g.rangeRoom c.gang
     | .done => (keepWrites u c g (x.effect c g run s)).isSome
     | .fault _ => (keepWrites u c g (x.effect c g run s)).isSome)

theorem issuerOf_issuing {s : State} {c : Cur} {g : Group} {k : Gang} {r : Run} (h : issuerOf s = some (c, g, k, r)) :
    Issuing s c g k r := by
  simp only [issuerOf, Option.bind_eq_some_iff, Option.map_eq_some_iff, Prod.mk.injEq] at h
  obtain ⟨c', hc, g', hg, k', hk, r', hr, rfl, rfl, rfl, rfl⟩ := h
  exact ⟨hc, hg, hk, hr⟩

/-- What a state that meets a claim gives: the claim applies, and what the word writes can be kept where the claim asks it. -/
theorem meets_applies {x : Claim} {s : State} (h : meets x s = true) :
    ∃ c g k run, x.Applies s c g k run ∧
      (x.ending = .done → ∃ y, keepWrites (x.uses c g run) c g (x.effect c g run s) = some y) ∧
      (x.ending = .jump → (∃ y, keepWrites (x.uses c g run) c g (x.effect c g run s) = some y) ∧ g.rangeRoom c.gang = true) ∧
      (∀ f, x.ending = .fault f → ∃ y, keepWrites (x.uses c g run) c g (x.effect c g run s) = some y) := by
  unfold meets at h
  split at h
  · simp at h
  · rename_i c g k run hi
    simp only [Bool.and_eq_true] at h
    obtain ⟨⟨hs, hm⟩, he⟩ := h
    refine ⟨c, g, k, run, ⟨?_, hm⟩, ?_, ?_, ?_⟩
    · split
      · rename_i hw
        simp only [hw, if_true, Bool.or_eq_true, bne_iff_ne, ne_eq] at hs
        exact ⟨issuerOf_issuing hi, hs⟩
      · rename_i hw
        simp only [hw, Bool.false_eq_true, if_false, Bool.and_eq_true, beq_iff_eq] at hs
        exact ⟨issuerOf_issuing hi, hs.1.1.1.1, hs.1.1.1.2, hs.1.1.2, hs.1.2, hs.2⟩
    · intro hd; simp only [hd, Option.isSome_iff_exists] at he; exact he
    · intro hd; simp only [hd, Bool.and_eq_true, Option.isSome_iff_exists] at he; exact he
    · intro f hd; simp only [hd, Option.isSome_iff_exists] at he; exact he

/-- Each claim, named by its place in its word's list, is met by the state beside it. -/
def allMet (w : List (List Claim × Nat × State)) : Bool :=
  w.all (fun p => p.1[p.2.1]?.any (fun x => meets x p.2.2))

/-- Each claim about a step without a word is due in one of the states, with its subject. -/
def allDue (w : List (List Event × List (State × Subject))) : Bool :=
  w.all (fun p => p.1.all (fun x => p.2.any (fun y => x.due y.2 { y.1 with subject := y.2 })))

/-- Each claim, named by its place in its list, is due in the state beside it, with its subject. -/
def eachDue (w : List (List Event × Nat × State × Subject)) : Bool :=
  w.all (fun p => p.1[p.2.1]?.any (fun x => x.due p.2.2.2 { p.2.2.1 with subject := p.2.2.2 }))

/-! ## A word about to issue -/

/-- A word that issues as the first one after reset. -/
def base (i : Instr) : State :=
  match nextMove (State.reset.withFetchWord 32 (encodeWord i)) with
  | .run _ s => s
  | _ => State.reset

/-- The word's state with changes. -/
def after (fs : List (State → State)) (i : Instr) : State := fs.foldl (fun s f => f s) (base i)

def onG (f : Group → Group) (s : State) : State := match s.cur with | some c => s.onCur c f | none => s
def onT (f : Team → Team) (s : State) : State := match s.cur with | some c => s.onTeam c.team f | none => s
def onR (f : Run → Run) (s : State) : State := match s.cur with | some c => s.onRun c f | none => s

/-- Every uniform register at a value. -/
def sAll (v : Word) : State → State := onG (fun g => g.files (fun r => { r with s := (List.range 48).map (fun i => (i, v)) }))
/-- Some uniform registers at values. -/
def regs (l : List (Nat × Nat)) : State → State :=
  onG (fun g => g.files (fun r => l.foldl (fun r x => r.setS x.1 (BitVec.ofNat 32 x.2)) r))
/-- The uniform registers hold a list of values over and over, from the given register on. -/
def cyc (off : Nat) (ws : List Nat) : State → State :=
  onG (fun g => g.files (fun r => { r with s := (List.range 64).map (fun i =>
    (i, BitVec.ofNat 32 (ws.getD ((i + ws.length * 64 - off) % ws.length) 0))) }))
def immIs (v : Word) : State → State := onR (fun r => { r with imm := some v })
/-- Only lane 5 is active. -/
def oneLane (s : State) : State := { s with cur := s.cur.map (fun c => { c with lanes := 0x20 }) }
def waitIs (w : Wait) (s : State) : State := match s.cur with | some c => s.setWait c w | none => s
def atBarrier : State → State := waitIs .barrier
/-- The word has been waiting for an operation. -/
def waitOp : State → State := onR (fun r => { r with op := some 77 })
def retAll (a : Nat) (n : Nat) : State → State :=
  onG (fun g => { g with slices := g.slices.map (fun sl => { sl with a := { sl.a with ret := List.replicate n (BitVec.ofNat 64 a) } }) })
def retMixed : State → State :=
  onG (fun g => { g with slices := g.slices.zipIdx.map (fun (sl : Slice × Nat) =>
    { sl.1 with a := { sl.1.a with ret := [BitVec.ofNat 64 (0x40 * (sl.2 % 2 + 1))] } }) })
def inTrap : State → State := onG (fun g => { g with shadow := some (g.toShadow 0 0 g.unfinished) })
def aLevel : Level :=
  { ens := 0x10000, term := 0x10100, exit := 0x10200, test := 0x10080, start := 0x10000, first := 0, routine := 0, limit := 1000,
    count := 0, retry := 0, arrived := [0], testing := [], verdicts := [], snaps := [], barps := [], entries := [], log := [],
    cursor := [], conv := none, convva := 0, joiners := [], joined := false, formed := false, posted := false, reported := none }
def inLevel : State → State := onT (fun t => { t with levels := [aLevel] })
/-- The issuing word stands at the level's TERM. -/
def atTerm (f : Level → Level) (s : State) : State :=
  match s.cur with | some c => onT (fun t => { t with levels := [f { aLevel with term := c.addr, ens := c.addr }] }) s | none => s

/-! ## Teams, banks, memory around it -/

def slots8 : List SlotState := (List.range 16).map (fun i => if i < 8 then .attached i else .detached)
/-- The team becomes a user team on core 0 that holds every token. -/
def userT : State → State := onT (fun t =>
  { t with command := false, core := 0, slots := slots8, tokens := [some 0, some 0, some 0, some 0],
           phases := List.replicate 4 [false, true, false, true], desc := { t.desc with matCount := 1, gx := 4, rcsize := 4 } })
def tokOther : State → State := onT (fun t => { t with tokens := [some 3, some 3, none, none] })
def noMat : State → State := onT (fun t => { t with desc := { t.desc with matCount := 0 } })
def slotsAll (x : SlotState) : State → State := onT (fun t => { t with slots := List.replicate 16 x })
def mine (b : Nat) : Bank := { Bank.reset with st := .attached 0 b, mem := [(0, 7)] }
def ring0 (t : Nat) : Ring := { team := t, ctx := 0, base := 0, size := 256, head := 0, tail := 128, sync := none, producer := none }
def banks0 (s : State) : State :=
  s.putCluster 0 { Cluster.reset with banks := (List.range 8).map (fun b => (b, mine b)),
                                      rings := [(0, ring0 0), (1, { ring0 0 with tail := 0 }), (2, ring0 9)] }
def banksFull (s : State) : State :=
  s.putCluster 0 { Cluster.reset with banks := (List.range 64).map (fun b => (b, { mine b with mem := [] })),
                                      rings := (List.range 64).map (fun i => (i, ring0 0)) }
/-- Banks of the command core's team. -/
def commandBanks (s : State) : State :=
  (onT (fun t => { t with slots := slots8 }) s).putCluster 224
    { Cluster.reset with banks := (List.range 8).map (fun b => (b, { mine b with mem := [] })) }
/-- Memory is mapped: VC 0, page tables in the drawer, contexts 0 and 1. -/
def mapped (s : State) : State :=
  { s with vcs := [(0, probeVc)], drawer := Drawer.write s.drawer (probeCells [0x18000000]),
           ctxs := [(0, { Ctx.reset with v := true, ptroot := 0x1000, splcount := 100000, peercount := 5 }),
                    (1, { Ctx.reset with v := true, ptroot := 0x1000 })] }
def cellsM (cs : List Host.Cell) (s : State) : State := { s with drawer := Drawer.write s.drawer cs }
def record0 (s : State) : State := { s with homes := [(homeKey 0 0x100000, { Sector.invalid with st := .clean, bytes := [(0, 2)] })] }
/-- Another team, a copy of the issuing one. -/
def otherT (id h : Nat) (f : Team → Team) (s : State) : State :=
  match s.teams.find 0 with
  | some t => { s with teams := s.teams.put id (f { t with id := id, handle := BitVec.ofNat 32 h, command := false, core := 8 }) }
  | none => s
/-- Teams 1 (running), 3 (suspended), 4 and 5 (evicted). -/
def others (s : State) : State :=
  otherT 5 9 (fun t => { t with phase := .evicted, groups := t.groups.map (fun g => { g with core := 8, vregs := 8 }),
                                saved := some { first := 0, tiles := [], banks := [], bad := [] }, slots := List.replicate 16 .detached })
    (otherT 4 8 (fun t => { t with phase := .evicted }) (otherT 3 4 (fun t => { t with suspended := true }) (otherT 1 1 id s)))
def opIs (id team : Nat) (b : OpBody) (s : State) : State :=
  s.putOp { id := id, team := team, group := 0, gang := 0, iaddr := 0, lanes := 0, flag := none, level := 0, body := b }
def queuesM (n : Nat) (s : State) : State :=
  { s with queues := (List.range 10).map (fun i => (i,
      { v := true, dev := true, stopped := false, prio := 0, ctx := 0, diemask := 1, logsize := 6, base := 0, errcode := 0,
        head := 0, tail := 0, counter := n, started := [] })) }
def links (f : Link → Link) (s : State) : State :=
  (List.range 8).foldl (fun s i => s.putLink i (f { (s.link i) with st := .live })) s
def batches (b : Batch) : State → State := onG (fun g => (List.range 16).foldl (fun g i => g.setBatch i b) g)
/-- A store of the issuing group, on its way. -/
def aStore (i : Nat) : Block :=
  { id := i, op := i, team := 0, group := 0, kind := .store, space := .global, lane := 0, ctx := 0, vc := 0, lclass := 0,
    device := false, bank := 0, cells := [(256 * i, 1)], cmp := 0, mods := ⟨0, 0, .global, 0, 0, 0⟩, level := 0, iaddr := 0, gang := 0,
    lanes := 0, va := 0, psize := 65536, born := 0 }
def stores (n : Nat) : State → State := onG (fun g => { g with fifo := (List.range n).map (fun i => aStore (i + 1)) })
/-- The copy queue is full. -/
def copiesFull (s : State) : State :=
  { s with copies := (List.range 512).map (fun i => (i + 100,
      { id := i + 100, team := 0, group := 0, ctx := 0, cluster := 224, fn := 0, iaddr := 0, words := [], cpol := 0, batch := none,
        phase := .queued, todo := [], posted := false, banks := [], code := 0, sub := 0, raised := false, level := 0, result := 0,
        since := 0, parts := [] })) }
/-- A descriptor of a copy function, in the registers (R356, R361). -/
def copyD (fn : Nat) : State → State := cyc 0
  (if fn = 1 then [0x100000, 0, 0x200000, 0, 0, 64, 2, 128, 128, 0, 0, 0, 0, 0, 0, 0]
   else if fn = 2 ∨ fn = 3 then [0x100000, 0, 0x200000, 0, 0, 0, 4, 0, 0, 0x300000, 0, 0, 0, 0, 0, 0]
   else if fn = 4 then [7, 0, 0x200000, 0, 0, 64, 0, 0, 0, 0, 0, 0, 0, 0, 0, 0]
   else if fn = 10 then [1, 0, 0x200000, 0, 0, 0, 0, 0, 0, 0, 0, 0, 0, 0, 0, 0]
   else [0x100000, 0, 0x200000, 0, 0, 64, 0, 0, 0, 0, 0, 0, 0, 0, 0, 0])
def tagged (t : Nat) : State → State :=
  onG (fun g => { g with tags := (List.range 512).map (fun i => (i, t)) })
/-- The same, with register 4 of another tag. -/
def taggedBut4 (t u : Nat) : State → State :=
  onG (fun g => { g with tags := (List.range 512).map (fun i => (i, if i / 16 = 4 then u else t)) })
/-- Half of the slices belong to a second gang. -/
def twoGangs : State → State := onG (fun g =>
  { g with slices := g.slices.zipIdx.map (fun (sl : Slice × Nat) => if sl.2 < 8 then sl.1 else { sl.1 with a := { sl.1.a with gang := 1 } }),
           gangs := g.gangs ++ [Gang.new 1 0] })
/-- The run's last word behind the issuing one. -/
def lastNext : State → State := onR (fun r => { r with words := [r.words.getD 0 0, 0x08000000] })
/-- A cache descriptor record (R293). -/
def cdr (op : Nat) : List Byte :=
  [0, 0, 0, 0, 0, BitVec.ofNat 8 op] ++ List.replicate 10 0 ++ bytesLE 4 (64 + 2 ^ 17) ++ List.replicate 44 0
def aWindow : Window := { valid := true, gen := 0, ctx := 0, base := 0, length := 1, fowner := 0, perm := 0, revoked := none, accepted := [] }
def rowsAre (v : Nat) (rows : Nat) : State → State := onG (fun g => { g with vregs := v, rows := List.range rows })

def wobLive (s : State) : State :=
  { s with wobs := [(0, { live := true, gen := 0, ctx := 0, va := 0, len := 0x10000, count := 1 })] }
def barpDue : State → State := onT (fun t => { t with barps := List.replicate 16 { gen := 0, expected := some 1, arrived := [5], closed := [] } })
/-- The team has a second group. -/
def twoGroups : State → State := onT (fun t => { t with groups := t.groups ++ t.groups.map (fun g => { g with id := 1 }), desc := { t.desc with threads := 2 * t.desc.width } })
/-- Every slice runs two paths, the second at its rejoin and one call deeper. -/
def deepMeeting : State → State := onG (fun g => { g with slices := g.slices.map (fun sl =>
  { sl with dual := true, b := { sl.a with st := .atRejoin, ret := [0x40], mask := 1 } }) })
def givesFull (s : State) : State := s.putCluster 0 { (s.cluster 0) with gives := List.replicate 16 ⟨0, 3, 3, 0, 0, 77, false⟩ }
def windowsFull (s : State) : State := { s with fabric := { s.fabric with windows := (List.range 1024).map (fun i => (i, aWindow)) } }
def team3 : State → State := otherT 3 4 (fun t => { t with ctx := 1, core := 0 })
def aFrame : Recon := { owner := false, rj := 0, ft := 0, m := 0, n := 0, ran := false }
/-- Stacks six deep, and predicates that divide the lanes. -/
def nested : State → State := onG (fun g =>
  { g with rf := { g.rf with q := (List.range 128).map (fun l => (64 + l, l % 2 == 1)) },
           slices := g.slices.map (fun sl => { sl with dual := true, stack := List.replicate 6 aFrame }) })

end Sys2Proof.Tests
end

