-- ==== Sys2Proof/Tests/EventStates.lean ====
section
/-! SUPPORT. States and subjects for the steps without a word: one small user team on core 0, and what the engines, the slices,
the links and management hold around it. -/

namespace Sys2Proof.Tests

open Sys2Proof Sys2Proof.Machine

/-- a user team of one group on core 0 -/
def ug : Group := { probeGroup [0x18000000, 0x08000000] 1 true with core := 0 }
def ut : Team :=
  { probeTeam ug with
    command := false
    core := 0
    slots := (List.range 16).map (fun i => if i < 8 then .attached i else .detached)
    phases := List.replicate 4 [false, true, false, true]
    tokens := [some 0, some 0, some 0, some 0]
    desc := { probeDesc with gx := 1, matCount := 1, rcsize := 4 } }
def bk (b : Nat) : Bank := { Bank.reset with st := .attached 0 b }
def cl0 : Cluster := { Cluster.reset with banks := (List.range 8).map (fun b => (b, bk b)) }
def ctxA : Ctx := { Ctx.reset with v := true, ptroot := 0x1000, fqbase := 0x200000 }
/-- a state with the user team, its banks, page tables and VC 0; time 100,000,000 clocks -/
def e0 : State :=
  { State.reset with
    agenda := []
    now := 25 * 100000000
    teams := [(0, ut)]
    clusters := [(0, cl0)]
    vcs := [(0, probeVc)]
    ctxs := [(0, ctxA)]
    opCtr := 50
    drawer := Drawer.write State.reset.drawer (probeCells []) }
def op (b : OpBody) : Op := { id := 5, team := 0, group := 0, gang := 0, iaddr := 0x10004, lanes := 1, flag := some 0, level := 0, body := b }
def withOp (b : OpBody) (s : State := e0) : State := (s.onGroup 0 0 (fun g => g.flagInc 0)).putOp (op b)
def acc (_sp : Space) (pa : Nat) (st : LaneState) : LaneAcc := { lane := 0, va := BitVec.ofNat 64 pa, pa := pa, vc := 0, lclass := 0, sealed := false, reg := 4, st := st, data := [], cmp := 0, psize := 65536 }
def memop (k : MemKind) (sp : Space) (pa : Nat) (st : LaneState := .ready) (m : Mods := ⟨0,0,sp,0,0,0⟩) : OpBody :=
  .mem { kind := k, space := sp, mods := m, bytes := 4, tag := 0, regs := 1, accs := [acc sp pa st], posted := false, lead := none, loose := false }
def blk (k : BlockKind) (sp : Space) (a : Nat) (n : Nat := 4) : Block :=
  { id := 7, op := 7, team := 0, group := 0, kind := k, space := sp, lane := 0, ctx := 0, vc := 0, lclass := 0, device := false, bank := 0,
    cells := cellsAt a (List.replicate n 9), cmp := 0, mods := ⟨0,0,sp,0,0,0⟩, level := 0, iaddr := 0, gang := 0, lanes := 1, va := BitVec.ofNat 64 a, psize := 65536,
    born := 0 }
def withFifo (bs : List Block) (s : State := e0) : State := s.onGroup 0 0 (fun g => { g with fifo := bs })
def withMp (bs : List Block) (s : State := e0) : State := s.putCore 0 { s.core 0 with merge := bs }
def home (pa : Nat) (st : SectorState) (s : State := e0) : State := { s with homes := s.homes.put (homeKey 0 pa) { Sector.invalid with st := st, bytes := [(0, 2)] } }
def ab (a b : Nat) (c : Nat := 0) : Subject := { a := a, b := b, c := c }
abbrev EW := State × Subject
def line1 : L1Line := { vc := 0, line := 0x100000 / 256, sealed := false, filled := 100000000, prio := 1, used := 0, sectors := [(0, [(0, 5)])], bad := [] }
def liveLinks (f : Link → Link := id) (s : State := e0) : State := (List.range 8).foldl (fun s i => s.putLink i (f { s.link i with st := .live })) s
def onUt (f : Team → Team) (s : State := e0) : State := s.onTeam 0 f
def onUg (f : Group → Group) (s : State := e0) : State := s.onGroup 0 0 f
def fillReads : List LinkRead := [{ cls := 0, block := 0x1000, mask := 1, who := .fill (0x1000 * 4), due := 0, bytes := [], poison := [], left := 0 }]

def giveS (landed : Bool) : State := (onUt (fun t => { t with slots := t.slots.set 3 (.opening 5) }) (withOp (.bopen 3 4 0 0 none (some 9)))).putCluster 0
  { cl0 with gives := [⟨0,0,0,20,0,9,landed⟩], banks := cl0.banks ++ [(20, { Bank.reset with st := .transit })] }
def withRing (r : Ring) (s : State) : State := s.putCluster 0 { s.cluster 0 with rings := [(0, r)] }
def rg : Ring := { team := 0, ctx := 0, base := 0x40, size := 256, head := 0, tail := 0, sync := none, producer := none }
def cpW (a b n : Nat) : List Word := [BitVec.ofNat 32 a, 0, BitVec.ofNat 32 b, 0, 0, BitVec.ofNat 32 n] ++ List.replicate 10 0
def cp (fn : Nat) (ph : CopyPhase) (todo : List (Nat × Nat)) : Copy :=
  { id := 6, team := 0, group := 0, ctx := 0, cluster := 0, fn := fn, iaddr := 0x10004, words := cpW 0x100000 0x200000 64, cpol := 0, batch := none, phase := ph, todo := todo,
    posted := false, banks := [], code := 0, sub := 0, raised := false, level := 0, result := 0, since := 0, parts := [] }
def withCopy (k : Copy) (s : State := e0) : State := s.putCopy k
def pk (ty : Nat) : Packet := { ver := 1, type := ty, owner := 3, sender := 4, seq := 1, raddr := 0, len := 0, info := 0, opid := 6, data := [], tag := 0, macsecOk := true }
def pkS (ty : Nat) : List EW := [(e0, { packet := some (pk ty) }), (e0, { packet := some (pk 9) }), (e0, {})]
def fr (a : FrameAddr) : EW := (e0, { frame := some { addr := a, length := 100, macsecOk := true, body := [] } })
def q0 : Queue := { Queue.reset with v := true, ctx := 0, logsize := 4, base := 0, diemask := 1 }
def withQ (q : Queue) (s : State := e0) : State := s.putQueue 1 q
def dw (a : Nat) (bs : List Nat) : Subject := { bytes := cellsAt a (bs.map (BitVec.ofNat 8)) }
/-- A claim about a write of bytes to device space, in a state. -/
def onWrite (f : Nat → List Byte → List Event) (i : Nat) (s : State) (a : Nat) (bs : List Nat) : List Event × Nat × State × Subject :=
  (f a (bs.map (BitVec.ofNat 8)), i, s, dw a bs)
def ctx1 (x : Ctx) : State := { e0 with ctxs := [(0, ctxA), (1, x)] }
/-- The injection port names a team and a group. -/
def port (handle group : Nat) : State := { e0 with inject := { e0.inject with handle := BitVec.ofNat 32 handle, group := group } }
/-- A queue's entry: V of a queue of context 0 with 16 records. -/
def define : List Nat := [1, 0x10, 0, 0, 4] ++ List.replicate 27 0

def rec64 (kind arg0 arg1 arg2 : Nat) (st : Nat := 0) : List Byte := bytesLE 8 kind ++ bytesLE 8 arg0 ++ bytesLE 8 arg1 ++ bytesLE 8 arg2 ++ bytesLE 8 st ++ List.replicate 24 0
def withRec (bs : List Byte) (tail : Nat := 1) (s : State := e0) : State :=
  { s with queues := [(1, { q0 with tail := BitVec.ofNat 32 tail })], qmem := Memory.writeAll [] (cellsAt 64 bs) }
/-- bytes at an address, at their homes -/
def withMem (a : Nat) (bs : List Byte) (s : State := e0) : State :=
  { s with homes := (List.range ((bs.length + 63) / 64)).foldl (fun (h : Map Sector) k => h.put (homeKey 0 (a + 64 * k))
      { Sector.invalid with st := .clean, bytes := (((bs.drop (64 * k)).take 64).zipIdx.map (fun x => (x.2, x.1))).filter (fun x => x.2 != 0) }) s.homes }
def desc0 (vregs : Nat := 32) (threads : Nat := 64) : List Byte := bytesLE 8 0x10000 ++ bytesLE 8 0 ++ bytesLE 4 1 ++ bytesLE 4 1 ++ bytesLE 4 1 ++ [64, BitVec.ofNat 8 vregs] ++ bytesLE 2 threads ++ bytesLE 2 32 ++ List.replicate 0x1E 0 ++ bytesLE 4 0xFFFFFFF ++ List.replicate (256 - 0x44) 0
/-- a .tvf of one kernel of one word and its name -/
def tvf0 : List Byte :=
  [0x54, 0x56, 0x46, 0x31] ++ bytesLE 2 1 ++ bytesLE 2 0 ++ bytesLE 4 128 ++ bytesLE 4 1 ++ bytesLE 8 128 ++ bytesLE 8 4 ++ bytesLE 8 132 ++ bytesLE 8 0 ++ bytesLE 8 136 ++ bytesLE 8 0 ++ List.replicate 32 0 ++ bytesLE 4 0 ++ List.replicate 28 0 ++
  bytesLE 4 0x50200000 ++ bytesLE 4 0 ++ bytesLE 8 200 ++ bytesLE 4 0 ++ bytesLE 4 1 ++ [64, 32] ++ bytesLE 2 64 ++ bytesLE 2 32 ++ List.replicate 10 0 ++ List.replicate 32 0 ++ [0x6B, 0]
def imgHash (b : List Byte) : List Byte := b.take 0x40 ++ shake256 (b.take 0x40 ++ List.replicate 32 0 ++ b.drop 0x60) ++ b.drop 0x60
def common (k : Nat) : List EW := [(withRec (rec64 (k + 0x400) 0 0 0), ab 1 0), (withRec (rec64 k 0 0 0 0x3F800000000), ab 1 0), (withRec (rec64 k 0 0 0) 0, ab 1 0)]
def newT : Team := newTeam (Desc.fromBytes desc0) 2 0 0 0 1 0 .only none
def twinS (l t : Team → Team) : State := { e0 with teams := [(0, l { ut with copy := .leading, twin := some 1 }), (1, t { ut with id := 1, copy := .trailing, twin := some 0, started := true })] }
def ev (words : List Nat) (b : Option Block := none) (c : Option Nat := none) : CmpEvent :=
  { group := 0, index := 0, kind := 0, iaddr := 0, lanes := 1, words := words, faddr := 0, block := b, copy := c, since := 0 }
def barT : Team → Team := fun t => { t with groups := t.groups.map (fun g => { g with gangs := g.gangs.map (fun (k : Gang) => { k with wait := .barp 1 0 1 }) }) }
def waitU (w : Wait) (s : State := e0) : State := s.onGroup 0 0 (fun g => { g with gangs := g.gangs.map (fun (k : Gang) => { k with wait := w }) })
/-- The partial barriers expect one group; some generations are complete. -/
def barps (closed : List (Nat × List Nat)) (s : State) : State := onUt (fun t => { t with barps := List.replicate 16 ⟨0, some 1, [], closed⟩ }) s
def deadG (g : Group) : Group := { g with slices := g.slices.map (fun sl => { sl with a := { sl.a with mask := 0, st := .finished } }), gangs := [] }
def rcd : Record := { code := 0x17, kind := 0, inrun := false, replay := false, sysmode := false, double := false, group := 0, num := 0, iaddr := 0, lanes := 0, faddr := 0 }
def img : SignedImage := { bytes := [1], version := 1, signature := [], cluster := 0 }

def F0 : Nat := e0.slot / 4096
def tb (q r : Map Nat) : Tables := ⟨q, r⟩
/-- a live link group of the current superframe -/
def lk (t : Tables) (f : Link → Link := id) : Link := f { Link.reset with st := .live, active := t, frame := F0, reqSlot := 4096 * F0, repSlot := 4096 * F0 }
def wl (l : Link) : State := { e0 with links := [(0, l)] }
def rd (left : Nat) (due : Nat := 0) : LinkRead := { cls := 0, block := 0x1000, mask := 3, who := .fill (0x1000 * 4), due := due, bytes := [], poison := [], left := left }
def wr (n : Nat) (done : Option Nat := none) : LinkWrite := { cls := 0, cells := cellsAt 0x100000 (List.replicate 64 7), vc := some 0, poison := false, left := n, due := 0, done := done, waiter := none, begun := false }
def zc (x : Option Nat) : ZeroCmd := { block := 3, op := 5, due := 0, sentAt := x }
def im0 : SignedImage := { bytes := [1], version := 1, signature := [], cluster := 0 }
def bi : BootInput := { firmware := im0, previous := some im0, pairPackage := [1], pairDrawer := [1], trained := [0, 1], marigold := im0, entry := 0x10000, ptRoot := 0x1000, splBase := 0, splCount := 0, fqBase := 0x2000, fqLog := 4, placed := [(0x10000, [1, 2])] }
def sub (f : Subject → Subject) : Subject := f {}
def st0 (x : ErrorSite) : Subject := sub (fun u => { u with site := some x })
def missOp (s : State := e0) (st : LaneState := .miss) : State := withOp (memop .load .drawer 0x100000 st) s
def pkc (c : Nat) (s : State := e0) : State := { s with mgmt := { s.mgmt with packages := [{ im0 with cluster := c }] } }
def doorC (d : Door) (s : State) : State := { s with teams := [], clusters := [(0, { Cluster.reset with door := d })] }
/-- A product of panels that are one panel each. -/
def prod (st : Bool) (ls : Map (List Byte)) : OpBody :=
  .matrix 1 0 [0x100000, 0, 0, 0, 0, 0, 0, 0] [0x200000, 0, 0, 0, 0, 0, 0, 0] false [] none st ls none
/-- A product that skips every row and whose columns lie in pages of their own. -/
def apart : OpBody := .matrix 2 0 [0, 0, 0, 0, 0, 0, 0, 0] [0, 0, 0x40000000, 0, 0, 0, 0, 0] false [] none false [] none
/-- Pages of 1 GiB for those columns. -/
def bigPages : State :=
  { e0 with homes := (List.range 16).map (fun k => (homeKey 0 (0x3000 + 64 * k), { Sector.invalid with st := .clean, bytes := (List.range 8).map (fun i => (8 * i, 0x73)) })) }

end Sys2Proof.Tests
end

