-- ==== Sys2Proof/Tests/Events.lean ====
section
/-! SUPPORT. For every claim about a step without a word a state and a subject for which it is due. -/

-- One theorem at a time: the checks run in the kernel, and many at once need more threads than a build may have.
set_option Elab.async false

namespace Sys2Proof.Tests

open Sys2Proof Sys2Proof.Machine

theorem test_LoadsBindTheirBytes_due : allDue [
  (loadReplyClaims, [(withOp (memop .probe .global 0x100000), ab 5 0), (withOp (memop .load .tile 0x40), ab 5 0), (withOp (memop .load .scratch 0x40), ab 5 0),
   (withFifo [{ blk .store .global 0x100000 with id := 3 }] (withOp (memop .load .global 0x100000)), ab 5 0),
   ({ withOp (memop .load .global 0x100000) with cores := [(0, { Core.reset with l1 := [line1] })] }, ab 5 0),
   (home 0x100000 .clean (withOp (memop .load .global 0x100000 .ready ⟨1,3,.global,0,0,0⟩)), ab 5 0)])] = true := by decide +kernel

theorem test_BlocksMergeAndArePerformed_due : allDue [
  (storeBlockMergeClaims, [(withFifo [blk .store .global 0x100000], ab 0 0), (withFifo [{ blk (.atomic 0 false) .global 0x100000 with mods := ⟨0,0,.global,0,2,0⟩ }], ab 0 0),
   (withFifo [{ blk .store .global 0x100000 with id := 9, op := 9 }] (withOp (memop .load .global 0x100000)), ab 0 0)]),
  (storeAcknowledgeClaims, [(withMp [blk .store .scratch 0x40], ab 0 7), (withMp [blk .store .tile 0x40], ab 0 7), (home 0x100000 .clean (withMp [blk .store .global 0x100000]), ab 0 7),
   (home 0x100000 .clean (withMp [blk .store .global 0x10003C 8]), ab 0 7), (home 0x100000 .clean (withMp [blk (.atomic 0 false) .global 0x100000] (withOp (memop (.atom 0) .global 0x100000))), ab 0 7),
   (withMp [{ blk .store .global 0x10000000000 with device := true }], ab 0 7)]),
  (commutativeFlushClaims, [(e0, ab 0 0)])] = true := by decide +kernel

theorem test_OperationsComplete_due : allDue [
  (longLatencyCompletionClaims, ([(withOp .done, ab 5 0), (withOp (.ret 3 [1]), ab 5 0), (withOp (.at 5), ab 5 0), (withOp (.at 200000000), ab 5 0), (withOp (memop .load .global 64), ab 5 0),
   (withOp (memop .load .global 64 .bound), ab 5 0), (withOp (.fence 2 0), ab 5 0), (withOp (.fence 1 0), ab 5 0), (withOp (.ringack 0 1), ab 5 0), (withOp (.mcfg 0 1), ab 5 0), (withOp (.mzero 0), ab 5 0),
   (withOp (.stagearv 0 0), ab 5 0), (withOp .done (onUt (fun t => { t with fail := some ⟨1, 2, 0x17, 0, false⟩, levels := [aLevel] })), ab 5 0),
   (withOp .done (onUt (fun t => { t with copy := .trailing, twin := some 1 })), ab 5 0)]) ++ ([(withOp .done (onUt (fun t => { t with cmp := { t.cmp with held := [ev [1] none (some 5)] } })), ab 5 0)]))] = true := by decide +kernel

theorem test_SlicesAndWalksGoOn_due : allDue [
  (translationWalkClaims, [(onUg (fun g => { g with lastPage := [(0, ⟨0, 0x100000, 65536, 0x73⟩)] }) (withOp (memop .load .global 0x100000 .walk)), ab 5 0),
   (onUg (fun g => { g with lastPage := [(0, ⟨0, 0x100000, 65536, 0x73⟩)] }) (withOp (memop .probe .global 0x100000 .walk)), ab 5 0),
   (withOp (memop .load .global 0x100000 .walk), ab 5 0), (e0, ab 5 0)]),
  (pageMonitorWakeClaims, [(e0, ab 0 0)]),
  (walkRetryTimerClaims, [(e0, ab 0 0)]),
  (sectorFillReturnClaims, [(home 0x100000 (.pending 0) (liveLinks (fun l => { l with sent := fillReads })), ab 0 0x4000), (liveLinks (fun l => { l with sent := fillReads }), ab 0 0x4000), (e0, ab 0 0x4000)]),
  (lineHandoverClaims, [(e0, ab 0 0)]),
  (shareClearingDoneClaims, [({ e0 with vcs := [(0, { probeVc with clearing := [3] })] }, ab 0 3), (e0, ab 0 3)]),
  (sliceRetentionEntryClaims, [({ e0 with slret := [(0, 0x00010001)] }, ab 0 1), ({ e0 with sliceRet := [(1, .entering 0)] }, ab 0 1), ({ e0 with sliceRet := [(1, .entering 99999999)] }, ab 0 1)]),
  (sliceRetentionExitDoneClaims, [({ e0 with sliceRet := [(1, .leaving 0)] }, ab 0 1), (e0, ab 0 1)]),
  (cmlrReservationTimeoutClaims, [(e0, ab 0 0)])] = true := by decide +kernel

theorem test_BanksAndRingsGoOn_due : allDue [
  (bankZeroingDoneClaims, [(e0.onBank 0 3 (fun x => { x with st := .zeroing 0 (some 0) }), ab 0 3), (e0, ab 0 3)]),
  (bankRetentionEntryClaims, [(e0, ab 0 3), (e0.onBank 0 3 (fun x => { x with ret := .entering 0 }), ab 0 3), (e0.onBank 0 3 (fun x => { x with ret := .entering 99999999 }), ab 0 3)]),
  (bankRetentionExitDoneClaims, [(e0.onBank 0 3 (fun x => { x with ret := .leaving 0 }), ab 0 3), (e0, ab 0 3)]),
  (giveLandClaims, [(giveS true, ab 5 0), (((withOp (.bgive 2 2 0 0 (some 6))).putOp { op (.bopen 3 4 0 0 none none) with id := 6 }), ab 5 0)]),
  (ringMessageDeliveryClaims, [(withRing rg (withOp (.send 0 0 64 (some (List.replicate 64 7)) none)), ab 5 0)]),
  (sendRefusalClaims, [(withRing { rg with ctx := 1 } (withOp (.send 0 0 64 none none)), ab 5 0), (withRing rg (withOp (.send 0 0 64 none none)), ab 5 0)])] = true := by decide +kernel

theorem test_CopiesMoveAndFinish_due : allDue [
  (copyTransferClaims, [(withCopy (cp 0 .queued [(0,64)]), ab 6 0), (withCopy (cp 0 .active [(0,64)]), ab 6 0), (withCopy (cp 8 .active [(0,64)]), ab 6 0), (withCopy (cp 0 .active []), ab 6 0)]),
  (syncWordRaiseClaims, [(withCopy { cp 0 .active [] with words := (cpW 0x100000 0x200000 64).set 4 0x80000 }, ab 6 0), (withCopy (cp 0 .active []), ab 6 0)]),
  (copyFinishClaims, [(withCopy (cp 0 .active []), ab 6 0), (withCopy (cp 0 .active [(0,64)]), ab 6 0)]),
  (remoteOperationTimeoutClaims, [(withCopy (cp 8 .remote [(0,64)]), ab 6 0), (withCopy (cp 0 .active [(0,64)]), ab 6 0)])] = true := by decide +kernel

theorem test_FabricPacketsAreAnswered_due : allDue [
  (gftPutClaims, pkS 1),
  (gftGetRequestClaims, pkS 2),
  (gftAtomicRequestClaims, pkS 4),
  (gftGetReplyClaims, pkS 3),
  (gftAtomicReplyClaims, pkS 5),
  (gftAcknowledgementClaims, pkS 6),
  (gftRefusalClaims, pkS 7),
  (gftRetransmitClaims, [({ e0 with fabric := { e0.fabric with conns := [{ Connection.fresh 0 4 with unacked := [(pk 1, 0, 0)] }] } }, ab 0 4 1), (e0, ab 0 4 1)]),
  (keyEpochInstallClaims, [(e0, { a := 1, b := 2, c := 1, raw := List.replicate 32 1 }), (e0, {})]),
  (managementFrameClaims, [fr .management, fr .host, fr .other])] = true := by decide +kernel

theorem test_QueueWritesTakeEffect_due : eachDue [
  onWrite kickWriteClaims 0 (withQ q0) 0x10000000000 [2,0,0,0,0,0,0,0],
  onWrite kickWriteClaims 1 (withQ { q0 with dev := true }) 0x10000000000 [2,0,0,0],
  onWrite kickWriteClaims 2 (withQ q0) 0x10000000008 [1,0],
  onWrite (queueDefineClaims 1) 0 e0 0x10004000020 define,
  onWrite (queueDefineClaims 1) 1 { e0 with ctxs := [] } 0x10004000020 define,
  onWrite (queueUndefineClaims 1) 0 (withQ q0) 0x10004000020 [0],
  onWrite (queueEntryWriteClaims 1) 0 (withQ q0) 0x10004000021 [0x20],
  onWrite (queueEntryWriteClaims 1) 1 (withQ q0) 0x10004000021 [1]] = true := by decide +kernel

theorem test_ContextWritesTakeEffect_due : eachDue [
  onWrite (contextDefineClaims 1) 0 (ctx1 { ctxA with v := false, fqlog := 6 }) 0x10004020080 [1],
  onWrite (contextDefineClaims 1) 1 (ctx1 { ctxA with v := false, fqlog := 0 }) 0x10004020080 [1],
  onWrite (contextDefineClaims 1) 2 (ctx1 { ctxA with v := false, busy := true }) 0x10004020080 [1],
  onWrite (contextDestroyClaims 1) 0 (ctx1 { ctxA with fqlog := 6 }) 0x10004020080 [0],
  onWrite (contextDestroyClaims 1) 1 (ctx1 { ctxA with fqlog := 0 }) 0x10004020080 [0],
  onWrite (contextDestroyClaims 1) 2 (ctx1 { ctxA with busy := true }) 0x10004020080 [0],
  onWrite (contextRecordWriteClaims 1) 0 (ctx1 { ctxA with fqlog := 6 }) 0x10004020089 [0x20],
  onWrite (contextRecordWriteClaims 1) 1 (ctx1 { ctxA with fqlog := 6 }) 0x10004020088 [1],
  onWrite (contextRecordWriteClaims 1) 2 (ctx1 { ctxA with busy := true }) 0x10004020089 [0x20]] = true := by decide +kernel
theorem test_ContextDestructionEnds_due : allDue [
  (contextDestructionDoneClaims, [(ctx1 { ctxA with v := false, busy := true }, ab 1 0), (e0, ab 1 0), (e0, ab 0 0)])] = true := by decide +kernel

theorem test_PortWritesTakeEffect_due : eachDue [
  onWrite injectionPortWriteClaims 0 e0 0x10020020001 [7],
  onWrite injectionPortWriteClaims 1 e0 0x10020020006 [3],
  onWrite injectionPortWriteClaims 2 (port 0xFFF00002 0) 0x10020020008 [0,0,0,0x80],
  onWrite injectionPortWriteClaims 3 (port 0 0) 0x10020020008 [0,0,0,0x80],
  onWrite injectionPortWriteClaims 4 (port 0 9) 0x10020020008 [0,0,0,0x80],
  onWrite injectionPortWriteClaims 5 (port 0 0) 0x10020020008 [0,0,0,0x98],
  onWrite injectionPortWriteClaims 6 e0 0x10020020008 [1,2],
  onWrite injectionPortWriteClaims 7 e0 0x1002002000C [1,2,3,4],
  onWrite (clsresWriteClaims 0 1) 0 e0 0x10010000104 [64,0,0,0],
  onWrite (clsresWriteClaims 0 1) 1 e0 0x10010000105 [4],
  onWrite (clsresWriteClaims 0 1) 2 e0 0x10010000000 [1],
  onWrite (clsresWriteClaims 0 1) 3 e0 0x10010000000 [0],
  onWrite (clsresWriteClaims 0 1) 4 e0 0x10010000200 [1]] = true := by decide +kernel

theorem test_RegisterWritesTakeEffect_due : eachDue [
  onWrite (registerWriteClaims 2 3) 0 e0 0x10004022001 [1],
  onWrite (registerWriteClaims 2 3) 1 e0 0x10020000200 [0x10,0,1,0],
  onWrite (registerWriteClaims 2 3) 2 e0 0x10020000206 [1],
  onWrite (registerWriteClaims 2 3) 3 e0 0x10020000208 [1,2],
  onWrite (registerWriteClaims 2 3) 4 e0 0x1002000022C [1,2,3,4],
  onWrite (registerWriteClaims 2 3) 5 e0 0x10020010200 [1,2,3,4],
  onWrite (registerWriteClaims 2 3) 6 e0 0x10020010204 [1],
  onWrite (registerWriteClaims 2 3) 7 e0 0x1002002100C [1],
  onWrite (registerWriteClaims 2 3) 8 e0 0x1002002200C [1,2,3,4],
  onWrite (registerWriteClaims 2 3) 9 e0 0x1002002300C [1,2,3,4],
  onWrite (registerWriteClaims 2 3) 10 e0 0x1002000020D [1],
  onWrite (registerWriteClaims 2 3) 11 (withQ q0) 0x10000000040 [1,2,3,4,5,6,7,8]] = true := by decide +kernel

theorem test_CommandRecordsStartAndComplete_due : allDue [
  (nopRecordClaims, (withRec (rec64 0 0 0 0), ab 1 0) :: common 0),
  (waitRecordClaims, [(withRec (rec64 (2 + 2^32) 0 0 0), ab 1 0), (withRec (rec64 (2 + 3*2^32) 0 0 0), ab 1 0)] ++ [(withRec (rec64 2 0 1 0 0), ab 1 0)] ++ common 2),
  (launchRecordClaims, [(withMem 0x100000 desc0 (withRec (rec64 1 0x100000 0 0)), ab 1 0), (withMem 0x100000 (desc0 7) (withRec (rec64 1 0x100000 0 0)), ab 1 0), (withMem 0x100000 (desc0 128 2048) (withRec (rec64 1 0x100000 0 0)), ab 1 0),
   (withRec (rec64 1 0x100000 1 0), ab 1 0)] ++ common 1),
  (loadRecordClaims, [(withMem 0x100000 (List.replicate 128 1) (withRec (rec64 3 0x100000 0x200000 0x1000)), ab 1 0), (withMem 0x100000 (imgHash tvf0) (withRec (rec64 3 0x100000 0x200000 0x1000)), ab 1 0), (withMem 0x100000 tvf0 (withRec (rec64 3 0x100000 0x200010 0x1000)), ab 1 0),
   (withMem 0x100000 (imgHash tvf0) (withRec (rec64 3 0x100000 0x200000 1)), ab 1 0)] ++ common 3),
  (commandRecordCompleteClaims, [({ e0 with queues := [(1, { q0 with started := [⟨0, 0, 0, 1, 0, 0, 0, 0, some 0⟩] })] }, ab 1 0), (e0, ab 1 0)])] = true := by decide +kernel

theorem test_TeamsArePlacedWatchedAndRetired_due : allDue [
  (teamPlacementClaims, [({ e0 with teams := [(2, newT)], clusters := [], queues := [(1, q0)] }, ab 2 1), (e0, ab 0 1)]),
  (groupRetireClaims, [(onUg deadG, ab 0 0), (onUg (fun g => { deadG g with late := [rcd] }), ab 0 0), (e0, ab 0 0)]),
  (teamRetireClaims, [(onUg (fun g => { deadG g with retired := true }), ab 0 0), (e0, ab 0 0)]),
  (growDeadlockEvictionClaims, [(onUg (fun g => { g with rows := [] }) (waitU (.grow 900)), ab 0 0), (e0, ab 0 0)]),
  (sleepExpiryClaims, [(waitU (.sleep 5), ab 0 0 0), (e0, ab 0 0 0)]),
  (groupWatchdogExpiryClaims, let quiet : State := onUg (fun g => { g with idle := 10 ^ 10 })
    [(onUt (fun t => { t with command := true }) quiet, ab 0 0), (quiet, ab 0 0), (onUg (fun g => { g with wdcfg := 0 }), ab 0 0)]),
  (clusterWatchdogFireClaims, [(e0.putCluster 0 { cl0 with clwd := 0x0404 }, ab 0 0), (e0, ab 0 0)]),
  (commandCoreWatchdogExpiryClaims, [({ e0 with mgmt := { e0.mgmt with ccount := [(0, 0)], marigold := some img } }, ab 0 0), ({ e0 with mgmt := { e0.mgmt with ccount := [(0, 0)] } }, ab 0 0), (e0, ab 0 0)]),
  (suspensionLimitExpiryClaims, [(onUt (fun t => { t with suspended := true }), ab 0 0), (e0, ab 0 0)]),
  (ringClusterWaitTimeoutClaims, [(onUt (fun t => { t with phase := .evicted }), ab 0 0), (e0, ab 0 0)]),
  (barrierCompleteClaims, [(waitU .barrier, ab 0 0), (e0, ab 0 0)]),
  (barpGenerationCompleteClaims, [(barps [] (waitU (.barp 1 0 1)), ab 0 1), (barps [] (waitU (.barp 1 0 3)), ab 0 1),
   (barps [(0, [0])] e0, ab 0 1), (barps [] e0, ab 0 1)])] = true := by decide +kernel

theorem test_MatrixOperationsGoOn_due : allDue [
  (tokenHandoverClaims, [(withOp (.tokpass 0 0), ab 0 0), (withOp (.tokpass 0 0) ((withOp (.mzero 0)).putOp { op (.mzero 0) with id := 2 }), ab 0 0)]),
  (matrixAccumulationClaims, [(withOp apart bigPages, ab 5 0), (withOp (prod false []) { e0 with drawer := Drawer.write e0.drawer (cellsAt 0x2000 (List.replicate 8 0)) }, ab 5 0),
    (withOp (prod false []) { e0 with ctxs := [] }, ab 5 0), (withOp (prod false []) { e0 with sliceRet := (List.range 24).map (fun i => (i, .retained)) }, ab 5 0), (withOp (prod true []) ((withOp (.mzero 0)).putOp { op (.mzero 0) with id := 2 }), ab 5 0),
    (withOp (prod true (([4096, 8192].flatMap (fun a => (List.range 9).map (fun i => a + i))).map (fun l => (l, [])))), ab 5 0)])] = true := by decide +kernel

theorem test_LevelsRollBackAndConversationsGoOn_due : allDue [
  (levelRollbackClaims, let f : Team → Team := fun t => { t with fail := some ⟨1, 2, 0x17, 0, false⟩, levels := [aLevel] }
    [(waitU .members (onUt (fun t => { f t with regionHit := true })), ab 0 0), (waitU .members (onUt (fun t => { f t with levels := [{ aLevel with entries := [.sreg 0 3 1 0] }] })), ab 0 0), (waitU .members (onUt f), ab 0 0), (e0, ab 0 0)]),
  (cycleLimitExpiryClaims, [(onUt (fun t => { t with levels := [{ aLevel with limit := 1 }] }), ab 0 0), (e0, ab 0 0)]),
  (conversationFormationClaims, let c : State := home 0x100000 .clean (onUt (fun t => { t with levels := [{ aLevel with conv := some (homeKey 0 0x100000), convva := 0x100000, joined := true }] }))
    [({ c with homes := [(homeKey 0 0x100000, { Sector.invalid with st := .clean, bytes := [(0, 1), (1, 1)] })] }, ab 0 0), (e0, ab 0 0), (c, ab 0 0)]),
  (conversationCommitClaims, let c : State := onUt (fun t => { t with levels := [{ aLevel with conv := some (homeKey 0 0x100000), convva := 0x100000, joined := true, formed := true, posted := true, verdicts := [(0, true)] }] })
    [({ c with homes := [(homeKey 0 0x100000, { Sector.invalid with st := .clean, bytes := [(0, 1), (1, 1), (2, 1)] })] }, ab 0 0), (e0, ab 0 0)]),
  (conversationJointFailureClaims, let c : State := onUt (fun t => { t with fail := some ⟨1, 2, 0x17, 0, false⟩, levels := [{ aLevel with conv := some (homeKey 0 0x100000), convva := 0x100000, joined := true, formed := true, posted := true, verdicts := [(0, true)] }] })
    [({ c with homes := [(homeKey 0 0x100000, { Sector.invalid with st := .clean, bytes := [(0, 1), (1, 1), (2, 1)] })] }, ab 0 0), (e0, ab 0 0)])] = true := by decide +kernel

theorem test_CompareEventsMeet_due : allDue [
  ((compareMatchClaims.zipIdx.filter (fun x => x.2 != 1 && x.2 != 2)).map (fun x => x.1), [(twinS (fun t => { t with cmp := { t.cmp with held := [ev [1]] } }) (fun t => { t with cmp := { t.cmp with seen := [{ ev [1] with kind := 3 }] } }), ab 0 0),
   (twinS (fun t => { t with cmp := { t.cmp with held := [ev [1] none (some 5)] } }) (fun t => { t with cmp := { t.cmp with seen := [ev [1] none (some 6)] } }), ab 0 0),
   (twinS (fun t => { t with cmp := { t.cmp with held := [ev [1]] } }) (fun t => { t with cmp := { t.cmp with seen := [ev [1]] } }), ab 0 0), (e0, ab 0 0)]),
  (compareWaitTimeoutClaims, [(twinS (fun t => { t with cmp := { t.cmp with held := [ev [1]] } }) id, ab 0 0), (e0, ab 0 0)]),
  (trailingCopyStartClaims, [(twinS id id, ab 1 0), (e0, ab 0 0)])] = true := by decide +kernel

theorem test_OpticalSlotsCarryTheirWork_due : allDue [
  (readBundleSlotClaims, [(wl (lk (tb [(0, 256 + 32)] []) (fun l => { l with reads := [rd 0, rd 0] })), ab 0 0), (wl (lk (tb [(0, 256 + 32)] []) (fun l => { l with thr := 5, reads := [rd 64, rd 0] })), ab 0 0), (e0, ab 0 0)]),
  (writeSlotClaims, [(wl (lk (tb [(0, 512)] []) (fun l => { l with writes := [wr 64, wr 64] })), ab 0 0), (wl (lk (tb [(0, 512)] []) (fun l => { l with pairs := [.parked], writes := [wr 64] })), ab 0 0), (e0, ab 0 0)]),
  (maintenanceSlotClaims, [(wl (lk (tb [(0, 768)] []) (fun l => { l with zeros := [zc none] })), ab 0 0), (wl (lk (tb [] [(0, 768)]) (fun l => { l with zeros := [zc (some 0)] })), ab 0 0), (e0, ab 0 0)]),
  (readReplySlotClaims, [(wl (lk (tb [] [(0, 256)]) (fun l => { l with sent := [rd 128] })), ab 0 0), (wl (lk (tb [] [(0, 256)]) (fun l => { l with pairs := [.parked], sent := [rd 128] })), ab 0 0), (e0, ab 0 0)]),
  (acknowledgementSlotClaims, [(wl (lk (tb [] [(0, 512)]) (fun l => { l with unacked := [wr 0 (some 5), wr 0 (some 99999999999)] })), ab 0 0), (e0, ab 0 0)]),
  (zeroMapBackgroundClearClaims, [(e0, ab 0x7000 0), (e0, ab (768 * 2 ^ 18) 0)]),
  (superframeBoundaryClaims, [(wl { lk (tb [] []) with frame := F0 - 1 }, ab 0 0), (wl { lk (tb [] []) with frame := F0 - 1, standby := some (tb [] []), swpend := true, pairs := [.parkpend, .wakepend, .waking 1 false, .waking 2 true] }, ab 0 0), (e0, ab 0 0)]),
  (laneLossOfLockClaims, [(wl (lk (tb [] []) (fun l => { l with sent := [rd 0, rd 64], unacked := [wr 0 (some 5)], writes := [wr 32], pairs := [.waking 1 false] })), ab 0 0), (e0, ab 0 0)]),
  (slotCheckFailureClaims, [(wl (lk (tb [] []) (fun l => { l with sent := [rd 0, rd 64], unacked := [wr 0 (some 5)], writes := [wr 32], pairs := [.waking 1 false] })), ab 0 0), (e0, ab 0 0)]),
  (linkstallTimeoutClaims, [(missOp (wl { lk (tb [] []) with st := .retrain 0 }), ab 0 0), (missOp, ab 0 0), (wl (lk (tb [] [])), ab 0 0)]),
  (linkdownClaims, [(missOp (wl { lk (tb [] []) with st := .retrain 0, reads := [rd 0] }), ab 0 0), (e0, ab 0 0)]),
  (linkLiveClaims, [(missOp ({ e0 with mgmt := { e0.mgmt with booted := 4 } }) .stalled, ab 0 0), (wl (lk (tb [] [])), ab 0 0)])] = true := by decide +kernel

theorem test_ManagementStepsTakeEffect_due : allDue [
  (moduleResetClaims, [(e0, sub (fun u => { u with boot := some bi })), (e0, sub (fun u => { u with boot := some { bi with pairDrawer := [] } })), (e0, sub (fun u => { u with boot := some { bi with previous := none } })), (e0, {})]),
  (attestationRequestClaims, [({ e0 with mgmt := { e0.mgmt with leaf := 2 ^ 20 } }, sub (fun u => { u with raw := List.replicate 32 1 })), (e0, sub (fun u => { u with raw := List.replicate 32 1 })), (e0, {})]),
  (foxglovePackageLoadClaims, [(e0, sub (fun u => { u with image := some im0 })), (e0, {})]),
  (inFieldScanClaims, [(doorC .closed (pkc 0), sub (fun u => { u with a := 0, flag := true })), (doorC .closed (pkc 0), ab 0 0), (e0, ab 0 0)]),
  (thermalThrottleClaims, [(e0, ab 3 0)]),
  (thermalThrottleReleaseClaims, [({ e0 with mgmt := { e0.mgmt with hot := [1, 3] } }, ab 3 0)]),
  (thermalShutdownClaims, [(e0, ab 0 0), ({ e0 with mgmt := { e0.mgmt with shutdownAt := some 3 } }, ab 0 0)]),
  (thermalPowerRemovalClaims, [({ e0 with mgmt := { e0.mgmt with shutdownAt := some 3 } }, ab 0 0), (e0, ab 0 0)]),
  (storageBitErrorClaims, [(e0, {}), (home 0x100000 .clean, st0 (.slice 0 (0x100000 / 64) false)), (home 0x100000 .dirty, st0 (.slice 0 (0x100000 / 64) true)), (home 0x100000 .dirty, st0 (.slice 0 (0x100000 / 64) false)),
   (e0, st0 (.bank 0 3 17 true)), (e0, st0 (.bank 0 3 17 false)), ({ e0 with cores := [(0, { Core.reset with l1 := [line1] })] }, st0 (.l1 0 (0x100000 / 256) 2)), (e0, st0 (.stack 9 true)), (e0, st0 (.stack 9 false)), (e0, st0 (.residue 0 0 3 4)), (e0, st0 (.parityX 0 0 3 4)), (e0, st0 (.parityQ 0 0 3 4))])] = true := by decide +kernel

end Sys2Proof.Tests
end

