-- ==== Sys2Proof/Tests/Others.lean ====
section
/-! SUPPORT. States that meet the hypotheses of the statements that are not tables of claims: memory words, runs, traps, checks,
fetching and decoding. -/

-- One theorem at a time: the checks run in the kernel, and many at once need more threads than a build may have.
set_option Elab.async false

namespace Sys2Proof.Tests

open Sys2Proof Sys2Proof.Machine

/-! ## Memory words -/

/-- A memory word starts in the state. -/
def starts (x : Access) (s : State) : Bool :=
  match issuerOf s with
  | none => false
  | some (c, g, k, run) =>
    let u := x.uses c g run
    k.wait == .none && run.op == none && checkWord u c g run == none && g.pairDiff run u (lanesOf c.lanes) == none &&
    flagFull u g run == false &&
    (match s.teams.find c.team with
    | none => false
    | some t => t.id == c.team && t.copy == .only && t.levels == [] && g.errinj.getLsbD 31 == false &&
      (x.pairDiff g run (x.mods g run) (x.data g run (x.mods g run) g.rf)
        (fun l => match g.sh with | some sh => x.data g run (x.mods g run) sh l | none => x.data g run (x.mods g run) g.rf l)
        (x.lanesOf c)) == none &&
      (x.kind.isAtomic && (x.mods g run).use == 2 && (x.lanesOf c).any (fun l => decide (1 < x.dataTag g l))) == false && requestRoom s g.core (x.opOf t c g run) &&
      (x.lanesOf c).all (fun l => x.laneFault t g run (x.mods g run) (x.lanesOf c) l == none))

theorem starts_sound {x : Access} {s : State} (h : starts x s = true) : ∃ c g k run t, x.Starts s c g k run t := by
  unfold starts at h
  split at h
  · simp at h
  · rename_i c g k run hi
    simp only [Bool.and_eq_true, beq_iff_eq] at h
    obtain ⟨⟨⟨⟨⟨hw, ho⟩, hc⟩, hp⟩, hf⟩, ht⟩ := h
    split at ht
    · simp at ht
    · rename_i t htm
      simp only [Bool.and_eq_true, beq_iff_eq, List.all_eq_true] at ht
      obtain ⟨⟨⟨⟨⟨⟨⟨h1, h2⟩, h3⟩, h4⟩, h5⟩, h6⟩, h8⟩, h7⟩ := ht
      exact ⟨c, g, k, run, t, ⟨issuerOf_issuing hi, hw, ho, hc, hp, hf⟩, htm, h1, h2, h3, h4, h5, h6, h8, h7⟩

/-- The word's memory modifiers, read from the state. -/
def spaceIs (x : Access) (translated : Bool) (s : State) : Bool :=
  (issuerOf s).any (fun i => (x.mods i.2.1 i.2.2.2).space.translated == translated && !(x.lanesOf i.1).isEmpty)

/-- A modifier word that names a space (R102). -/
def spaceMod (n : Nat) : State → State := onR (fun r => { r with mpfx := some (BitVec.ofNat 32 (n * 2 ^ 17)) })
/-- The gang waits at its word for an operation of one translated lane. -/
def translated (k : MemKind) (s : State) : State :=
  let a : LaneAcc := { lane := 5, va := 0, pa := 0x1000, vc := 0, lclass := 0, sealed := false, reg := 4, st := .ready, data := [1], cmp := 0, psize := 65536 }
  let m : MemOp :=
    { kind := k, space := .global, mods := ⟨0, 0, .global, 0, 0, 0⟩, bytes := 4, tag := 0, regs := 1, accs := [a], posted := false, lead := none,
      loose := false }
  onR (fun r => { r with op := some 9 }) (opIs 9 0 (.mem m) s)

theorem test_load_met : (starts (load 0 2 4 8 0 false) (after [oneLane] (.ld 0 2 4 8 0)) &&
    spaceIs (load 0 2 4 8 0 false) true (after [oneLane] (.ld 0 2 4 8 0)) &&
    starts (load 0 2 4 8 0 false) (after [oneLane, userT, spaceMod 5] (.ld 0 2 4 8 0)) &&
    spaceIs (load 0 2 4 8 0 false) false (after [oneLane, userT, spaceMod 5] (.ld 0 2 4 8 0)) &&
    meets (load 0 2 4 8 0 false).resumes (after [oneLane, translated .load] (.ld 0 2 4 8 0))) = true := by decide +kernel
theorem test_store_met : (starts (store 0 2 4 8 0 false) (after [oneLane] (.st 0 2 4 8 0)) &&
    spaceIs (store 0 2 4 8 0 false) true (after [oneLane] (.st 0 2 4 8 0)) &&
    starts (store 0 2 4 8 0 false) (after [oneLane, userT, spaceMod 5] (.st 0 2 4 8 0)) &&
    spaceIs (store 0 2 4 8 0 false) false (after [oneLane, userT, spaceMod 5] (.st 0 2 4 8 0)) &&
    meets (store 0 2 4 8 0 false).resumes (after [oneLane, translated .store] (.st 0 2 4 8 0))) = true := by decide +kernel
theorem test_window_met : (starts (load 0 2 4 8 0 true) (after [oneLane, userT, banks0] (.lds 0 2 4 8 0)) &&
    starts (store 0 2 4 8 0 true) (after [oneLane, userT, banks0] (.sts 0 2 4 8 0)) &&
    starts (uniformLoad 4 0 true) (after [userT, banks0] (.ldsu 4 0)) &&
    starts (uniformStore 4 0 true) (after [userT, banks0] (.stsu 4 0)) &&
    spaceIs (load 0 2 4 8 0 true) false (after [oneLane, userT, banks0] (.lds 0 2 4 8 0))) = true := by decide +kernel
theorem test_uniform_met : (starts (uniformLoad 4 0 false) (base (.ldu 4 0)) && spaceIs (uniformLoad 4 0 false) true (base (.ldu 4 0)) &&
    meets (uniformLoad 4 0 false).resumes (after [translated .loadU] (.ldu 4 0)) &&
    starts (uniformLoad 4 0 false) (after [userT, spaceMod 5] (.ldu 4 0)) &&
    starts (uniformStore 4 0 false) (base (.stu 4 0)) && spaceIs (uniformStore 4 0 false) true (base (.stu 4 0)) &&
    meets (uniformStore 4 0 false).resumes (after [translated .storeU] (.stu 4 0)) &&
    starts (uniformStore 4 0 false) (after [userT, spaceMod 5] (.stu 4 0))) = true := by decide +kernel
theorem test_atomic_met : (starts (atomic (.atom 0) 2 4 8 0) (after [oneLane] (.atom 0 2 4 8 0)) &&
    spaceIs (atomic (.atom 0) 2 4 8 0) true (after [oneLane] (.atom 0 2 4 8 0)) &&
    meets (atomic (.atom 0) 2 4 8 0).resumes (after [oneLane, translated (.atom 0)] (.atom 0 2 4 8 0)) &&
    starts (atomic (.atomn 0) 2 4 8 0) (after [oneLane] (.atomn 0 2 4 8 0)) &&
    meets (atomic (.atomn 0) 2 4 8 0).resumes (after [oneLane, translated (.atomn 0)] (.atomn 0 2 4 8 0))) = true := by decide +kernel
theorem test_FencesProbesAndPrefetchesIssue_access : (starts { kind := .pref, tag := 1, a := 8, p := 0 } (after [oneLane] (.pref 1 8 0)) &&
    starts { kind := .probe, tag := 1, d := 4, a := 8, p := 0 } (after [oneLane, tagged 1] (.probe 4 8 0))) = true := by decide +kernel

end Sys2Proof.Tests
end

