-- ==== Sys2Proof/Tests/Slice0.lean ====
section
/-! SUPPORT. Small tests: which instructions are well-formed, a word written out from the opcode table for every word
instruction, and single steps with results worked out from the rules. -/

-- One theorem at a time: the checks run in the kernel, and many at once need more threads than a build may have.
set_option Elab.async false

namespace Sys2Proof.Tests

open Sys2Proof Sys2Proof.Machine

/-! ## Well-formedness: for each check a term that it refuses (R76, R78, R82, R84, R100 to R106) -/

theorem test_ill_formed : ([.clause 0 12 0 1, .clause 0 0 14 1, .clause 0 0 0 0, .clause 0 0 0 25, .mpfx 5 0 0 0 0 0, .mpfx 0 6 0 0 0 0,
    .mpfx 0 0 6 0 0 0, .mpfx 0 0 0 6 0 0, .mpfx 0 0 0 0 6 0, .mpfx 0 0 0 0 0 3, .rdsr 0 0x1E, .wrsr 0x1E 0, .brs 7 0 0, .barp 0 0,
    .vcmp 8 0 0 0, .vcmpa 8 0 0 0, .vcmpo 8 0 0 0, .vcvt 10 0 0 0 0, .vretag 10 0 0, .vzip 0 0 0, .vunzip 0 0 0, .ld 10 0 0 0 0,
    .st 10 0 0 0 0, .lds 10 0 0 0 0, .sts 10 0 0 0 0, .pref 2 0 0, .atom 11 2 0 0 0, .atom 0 1 0 0 0, .atomn 11 2 0 0 0,
    .atomn 0 1 0 0 0, .roleq 0 3, .regang 1 0] : List Instr).all (fun i => !i.wellFormed) = true := by decide +kernel
theorem test_well_formed_edges : ([.clause 0 11 15 24, .mpfx 4 5 5 5 5 2, .rdsr 0 0x1D, .brs 6 0 0, .barp 0 1, .vcmp 7 0 0 0, .vcvt 9 3 1 0 0,
    .vzip 1 0 0, .ld 9 3 0 0 0, .pref 1 0 0, .atom 10 3 0 0 0, .roleq 0 2, .regang 1 1, .regang 0 0] : List Instr).all
    (fun i => i.wellFormed) = true := by decide +kernel

/-! ## One word of every row of the opcode table, its fields put together by hand at the row's bits (R78, R97 to R105) -/

/-- Each word decodes to the instruction beside it. -/
def reads (l : List (Nat × Instr)) : Bool := l.all (fun x => decodeTableWord 32 x.1 == some x.2)

theorem test_words_1 : reads [
  (0x0694D9AA, (.clause 2643 6 6 21)), (0x0A787C13, (.endrun 1 60 3 1 193 3)), (0x0E00A53C, (.himm 2 42300)),
  (0x10A50000, (.hopnd 165)), (0x15D31200, (.mpfx 3 5 1 4 2 1)), (0x18000000, .nop), (0x18100000, .hschedYield),
  (0x18200000, .hschedPref), (0x20A53C96, (.sadd 165 60 150)), (0x21A53C96, (.ssub 165 60 150)),
  (0x22A53C96, (.smul 165 60 150)), (0x23A53C96, (.smulh 165 60 150)), (0x24A53C96, (.sand 165 60 150)),
  (0x25A53C96, (.sor 165 60 150)), (0x26A53C96, (.sxor 165 60 150)), (0x27A53C96, (.sandn 165 60 150)),
  (0x28A53C96, (.sshl 165 60 150)), (0x29A53C96, (.sshr 165 60 150)), (0x2AA53C96, (.ssar 165 60 150)),
  (0x2BA53C96, (.srot 165 60 150)), (0x2CA53C96, (.smin 165 60 150)), (0x2DA53C96, (.smax 165 60 150)),
  (0x2EA53C96, (.sminu 165 60 150)), (0x2FA53C96, (.smaxu 165 60 150)), (0x30A53C96, (.sseq 165 60 150)),
  (0x31A53C96, (.ssne 165 60 150)), (0x32A53C96, (.sslt 165 60 150)), (0x33A53C96, (.ssltu 165 60 150)),
  (0x34A53C96, (.ssle 165 60 150))] = true := by decide +kernel
theorem test_words_2 : reads [
  (0x35A53C96, (.ssleu 165 60 150)), (0x36A53C96, (.ssel 165 60 150)), (0x37A53C96, (.smov 165 60 150)),
  (0x38A5A53C, (.sli 165 42300)), (0x39A5A53C, (.sliu 165 42300)), (0x3AA5A53C, (.slih 165 42300)),
  (0x3BA5A53C, (.saddi 165 42300)), (0x3C0A53C0, (.spopc 165 60)), (0x3C1A53C0, (.sclz 165 60)), (0x3C2A53C0, (.sbrev 165 60)),
  (0x3C3A53C1, (.sbfe 165 60 1)), (0x3C4A53C0, (.sbfi 165 60)), (0x3C5A53C0, (.smovh 165 60)), (0x3C6A53C0, (.smovl 165 60)),
  (0x3C7A53C0, (.sadd64 165 60)), (0x3C8A53C0, (.ssub64 165 60)), (0x3C9A53C0, (.sshl64 165 60)),
  (0x3CAA53C1, (.sshr64 165 60 1)), (0x3CBA53C1, (.smulw 165 60 1)), (0x3CCA5150, (.rdsr 165 21)), (0x3CD153C0, (.wrsr 21 60)),
  (0x414F2A53, (.brs 5 60 10835)), (0x46D62AC5, (.dbr 5 1 709 709)), (0x4AA5C3B1, (.call 44417969)),
  (0x4E96A53C, (.loop 165 173372)), (0x50000000, .ret), (0x501A5000, (.brx 165)), (0x50200000, .exit),
  (0x503A5001, (.regang 165 1))] = true := by decide +kernel
theorem test_words_3 : reads [
  (0x50400000, .bar), (0x505A5006, (.barp 165 6)), (0x50600000, .yield), (0x50700A50, (.sleep 165)),
  (0x508A53C0, (.waitev 165 60)), (0x509A53C0, (.sigev 165 60)), (0x50A00A53, (.trap 2643)), (0x50BA53C5, (.syscall 165 965)),
  (0x50C00A50, (.grow 165)), (0x50D00A50, (.shrink 165)), (0x50E00009, (.setpart 9)), (0x50FA5003, (.elect 165 3)),
  (0x51000001, (.eret 1)), (0x51100000, .halt), (0x512A5000, (.errinj 165)), (0x60A53C96, (.vadd 165 60 150)),
  (0x61A53C96, (.vsub 165 60 150)), (0x62A53C96, (.vmul 165 60 150)), (0x63A53C96, (.vma 165 60 150)),
  (0x64A53C96, (.vmin 165 60 150)), (0x65A53C96, (.vmax 165 60 150)), (0x66A53C96, (.vmulh 165 60 150)),
  (0x67A53C96, (.vmad 165 60 150)), (0x68A53C96, (.vand 165 60 150)), (0x69A53C96, (.vor 165 60 150)),
  (0x6AA53C96, (.vxor 165 60 150)), (0x6BA53C96, (.vandn 165 60 150)), (0x6E3C96C1, (.vsel 2 60 150 193)),
  (0x70A53C96, (.vshl 165 60 150))] = true := by decide +kernel
theorem test_words_4 : reads [
  (0x71A53C96, (.vshr 165 60 150)), (0x72A53C96, (.vbfe 165 60 150)), (0x73A53C96, (.vbfi 165 60 150)),
  (0x74A53C96, (.vsadd 165 60 150)), (0x75A53C96, (.vssub 165 60 150)), (0x76A53C96, (.vdot2 165 60 150)),
  (0x77A53C96, (.vdot4 165 60 150)), (0x783396C1, (.vcmp 6 3 150 193)), (0x793396C1, (.vcmpa 6 3 150 193)),
  (0x7A3396C1, (.vcmpo 6 3 150 193)), (0x7DD8C1C1, (.vcvt 7 1 1 193 193)), (0x7DC43C96, (.vretag 7 60 150)),
  (0x800A53C0, (.vmov 165 60)), (0x801A5AA8, (.vmovs 165 341)), (0x802A53C5, (.vli 165 965)), (0x803A5000, (.vlane 165)),
  (0x804A5000, (.vtid 165)), (0x805A5000, (.vslice 165)), (0x806A5000, (.vactive 165)), (0x84A53C96, (.pand 165 60 150)),
  (0x85A53C96, (.por 165 60 150)), (0x86A53C96, (.pxor 165 60 150)), (0x87A53C96, (.pandn 165 60 150)),
  (0x880A53C0, (.vrcp 165 60)), (0x881A53C0, (.vrsq 165 60)), (0x882A53C0, (.vsqrt 165 60)), (0x883A53C0, (.vexp2 165 60)),
  (0x884A53C0, (.vlog2 165 60)), (0x885A53C0, (.vsin 165 60))] = true := by decide +kernel
theorem test_words_5 : reads [
  (0x886A53C0, (.vcos 165 60)), (0x887A53C0, (.vtanh 165 60)), (0x888A53C0, (.vfrac 165 60)), (0x889A53C2, (.vround 165 60 2)),
  (0x88AA53C0, (.vclass 165 60)), (0x88BA53C0, (.vabs 165 60)), (0x88CA53C0, (.vneg 165 60)), (0x88DA53C0, (.vnot 165 60)),
  (0x88EA53C0, (.vclz 165 60)), (0x88FA53C0, (.vpopc 165 60)), (0x890A53C0, (.vbrev 165 60)), (0x8C0A53C0, (.vshfl 165 60)),
  (0x8C1A53C0, (.vshflu 165 60)), (0x8C2A53C0, (.vshfld 165 60)), (0x8C3A53C0, (.vshflx 165 60)), (0x8C4A53C0, (.vbcast 165 60)),
  (0x8C5A53C0, (.vvoteany 165 60)), (0x8C6A53C0, (.vvoteall 165 60)), (0x8C7A53C0, (.vballot 165 60)),
  (0x8C8A53CA, (.vredadd 165 60 2 1)), (0x8C9A53CA, (.vredmin 165 60 2 1)), (0x8CAA53CA, (.vredmax 165 60 2 1)),
  (0x8CBA53CA, (.vredand 165 60 2 1)), (0x8CCA53CA, (.vredor 165 60 2 1)), (0x8CDA53CA, (.vredxor 165 60 2 1)),
  (0x8CEA53C9, (.vscanadd 165 60 2 1)), (0x8CFA53C9, (.vscanmin 165 60 2 1)), (0x8D0A53C9, (.vscanmax 165 60 2 1)),
  (0x92003C96, (.vzip 2 60 150))] = true := by decide +kernel
theorem test_words_6 : reads [
  (0x92803C96, (.vunzip 2 60 150)), (0x940023C0, (.xset 2 60)), (0x941023C0, (.xadd 2 60)), (0x942A53C0, (.xwin 165 60)),
  (0x943A53C3, (.vrand 165 60 3)), (0x944A53C3, (.vrandu 165 60 3)), (0xA1D96C16, (.ld 7 1 150 193 6)),
  (0xA5D96C16, (.st 7 1 150 193 6)), (0xA9D96C16, (.lds 7 1 150 193 6)), (0xADD96C16, (.sts 7 1 150 193 6)),
  (0xB00AAB00, (.ldu 341 6)), (0xB01AAB00, (.stu 341 6)), (0xB02AAB00, (.ldsu 341 6)), (0xB03AAB00, (.stsu 341 6)),
  (0xB04403C3, (.pref 1 60 3)), (0xB0500000, .fence), (0xB0600000, .invl1), (0xB07A53C3, (.probe 165 60 3)),
  (0xB08A53C0, (.invpg 165 60)), (0xC1F96C16, (.atom 7 3 150 193 6)), (0xC5F96C16, (.atomn 7 3 150 193 6)),
  (0xC8000A51, (.cmlr 165 1)), (0xC81A53C2, (.cmls 165 60 2)), (0xC82A53C0, (.seal 165 60)), (0xC83A53C0, (.unseal 165 60)),
  (0xC84A53C0, (.wobseal 165 60)), (0xC8500A50, (.wobrel 165)), (0xC86A53C0, (.discard 165 60)), (0xC87A53C0, (.flush 165 60))] = true := by decide +kernel
theorem test_words_7 : reads [
  (0xC88A53C0, (.vcquery 165 60)), (0xC89A5000, (.vcdef 165)), (0xC8AA5000, (.vcresize 165)), (0xC8AA5001, (.vcresizeMove 165)),
  (0xD00A5006, (.btake 165 6)), (0xD0100009, (.bfree 9)), (0xD02A5603, (.bgive 165 3 3)), (0xD03A53C3, (.bopen 165 60 3)),
  (0xD0400016, (.bdrain 1 6)), (0xD05A5013, (.bquery 165 1 3)), (0xD06A53C0, (.swinit 165 60)), (0xD07A53C0, (.swadd 165 60)),
  (0xD08A53C0, (.swwait 165 60)), (0xD09A53C0, (.swread 165 60)), (0xD0AA53C0, (.ringdef 165 60)), (0xD0BA53C0, (.send 165 60)),
  (0xD0CA53C0, (.ringack 165 60)), (0xD0DA53C0, (.ringwait 165 60)), (0xD8000A50, (.copy 165)), (0xD8100A50, (.copy2d 165)),
  (0xD8200A50, (.cgath 165)), (0xD8300A50, (.cscat 165)), (0xD8400A50, (.cfill 165)), (0xD8500009, (.cseal 9)),
  (0xD86A5013, (.cwait 165 1 3)), (0xD87A5006, (.cstat 165 6)), (0xD8800A50, (.rput 165)), (0xD8900A50, (.rget 165)),
  (0xD8AA53C0, (.ratom 165 60))] = true := by decide +kernel
theorem test_words_8 : reads [
  (0xD8BA53C0, (.wexport 165 60)), (0xD8C00A50, (.wrevoke 165)), (0xE0000A50, (.qkick 165)), (0xE01A53C0, (.launch 165 60)),
  (0xE0200A50, (.qwait 165)), (0xE03023C0, (.stageinit 2 60)), (0xE0402003, (.stagearv 2 3)), (0xE050200C, (.stagewt 2 1 4)),
  (0xE06A5002, (.roleq 165 2)), (0xE07A53C0, (.preemptSuspend 165 60)), (0xE07A53C1, (.preemptResume 165 60)),
  (0xE07A53C2, (.preemptEvict 165 60)), (0xE07A53C3, (.preemptTerminate 165 60)), (0xE07A53C4, (.preemptSysresume 165 60)),
  (0xE07A53C5, (.preemptCldrain 165 60)), (0xE07A53C6, (.preemptClopen 165 60)), (0xE07A53C7, (.preemptCloff 165 60)),
  (0xE08A53C0, (.ctxsave 165 60)), (0xE09A53C0, (.ctxload 165 60)), (0xE408F000, (.mcfg 2 60)), (0xE418F259, (.mmp 2 60 150 1)),
  (0xE428F259, (.mmpb 2 60 150 1)), (0xE438F259, (.mmpg 2 60 150 1)), (0xE4480000, (.mzero 2)), (0xE458F000, (.tokpass 2 60)),
  (0xE4680000, (.tokwait 2)), (0xE478F259, (.tread 2 60 150 1)), (0xE488F259, (.twrite 2 60 150 1)),
  (0xE498F00D, (.tchk 2 60 1 1 1))] = true := by decide +kernel
theorem test_words_9 : reads [
  (0xE4A8F001, (.mdrain 2 60 1)), (0xE80A53C5, (.ensure 165 965)), (0xE8100A53, (.elseby 2643)), (0xE8200000, .elseerr),
  (0xE8300005, (.verdict 5)), (0xE8400A50, (.convjoin 165)), (0xE85A5000, (.rbstat 165)), (0xE86000A5, (.rbfail 165)),
  (0xE87A5000, (.cmpstat 165)), (0xE88A5014, (.cmppoint 165 1 4)), (0xEC000A53, (.lnkpark 165 3)),
  (0xEC100A53, (.lnkwake 165 3)), (0xEC2A5003, (.lnkstat 165 3)), (0xEC300A53, (.slotld 165 3)), (0xEC400005, (.slotsw 5)),
  (0xEC500A53, (.lnkthr 165 3)), (0xEC600005, (.lnkretrain 5)), (0xFFFFFFFF, .brk)] = true := by decide +kernel

/-- Reserved words: an all-zero word, a fixed bit set, an unassigned selector, a reserved field value (R106). -/
theorem test_reserved : [0x00000000, 0x04000001, 0x18300000, 0x18000001, 0x16C00000, 0x3CC0401E0].all (fun w => (decodeTableWord 32 w).isNone) = true := by
  decide +kernel

/-! ## Single steps -/

/-- What the step of a word makes of a uniform register. -/
def sAfter (i : Instr) (s : State) (r : Nat) : Option Nat :=
  match exec i s with
  | .next t => (s.cur.bind t.curGroup?).map (fun g => (g.rf.S r).toNat)
  | _ => none
/-- What it makes of a lane's vector register. -/
def vAfter (i : Instr) (s : State) (r l : Nat) : Option Nat :=
  match exec i s with
  | .next t => (s.cur.bind t.curGroup?).map (fun g => (g.rf.V r l).toNat)
  | _ => none
/-- Vector registers of lane 5 at values. -/
def vregs (l : List (Nat × Nat)) : State → State :=
  onG (fun g => g.files (fun f => l.foldl (fun f x => f.setV x.1 5 (BitVec.ofNat 32 x.2)) f))

/-- R155: a sum wraps, a high product is signed, a shift count is taken modulo 32, a comparison is signed. -/
theorem test_scalar_results :
    sAfter (.sadd 4 8 12) (after [regs [(8, 0xFFFFFFFF), (12, 2)]] (.sadd 4 8 12)) 4 = some 1 ∧
    sAfter (.smulh 4 8 12) (after [regs [(8, 0xFFFFFFFF), (12, 2)]] (.smulh 4 8 12)) 4 = some 0xFFFFFFFF ∧
    sAfter (.ssar 4 8 12) (after [regs [(8, 0x80000000), (12, 33)]] (.ssar 4 8 12)) 4 = some 0xC0000000 ∧
    sAfter (.sslt 4 8 12) (after [regs [(8, 0xFFFFFFFF), (12, 0)]] (.sslt 4 8 12)) 4 = some 1 ∧
    sAfter (.ssltu 4 8 12) (after [regs [(8, 0xFFFFFFFF), (12, 0)]] (.ssltu 4 8 12)) 4 = some 0 := by decide +kernel
/-- R155, R157: SSUB with the destination among the sources; SBREV; SADD64 carries into the odd register. -/
theorem test_scalar_pairs :
    sAfter (.ssub 8 8 12) (after [regs [(8, 3), (12, 5)]] (.ssub 8 8 12)) 8 = some 0xFFFFFFFE ∧
    sAfter (.sbrev 4 8) (after [regs [(8, 1)]] (.sbrev 4 8)) 4 = some 0x80000000 ∧
    sAfter (.sadd64 4 8) (after [regs [(4, 0xFFFFFFFF), (5, 0), (8, 1), (9, 0)]] (.sadd64 4 8)) 5 = some 1 := by decide +kernel
/-- R119, R197: under tag 2 (FP32) 1.0 + 2.0 = 3.0; under tag 0 (INT32) a sum wraps. -/
theorem test_vector_results :
    vAfter (.vadd 3 1 2) (after [tagged 2, oneLane, vregs [(1, 0x3F800000), (2, 0x40000000)]] (.vadd 3 1 2)) 3 5 = some 0x40400000 ∧
    vAfter (.vadd 3 1 2) (after [tagged 0, oneLane, vregs [(1, 0x7FFFFFFF), (2, 1)]] (.vadd 3 1 2)) 3 5 = some 0x80000000 ∧
    vAfter (.vadd 3 1 2) (after [tagged 0, oneLane, vregs [(1, 7), (2, 1)]] (.vadd 3 1 2)) 3 6 = some 0 := by decide +kernel
/-- R82: q7 reads true whatever is written to it. -/
theorem test_q7 : (RegFile.reset.setQ 7 5 false).Q 7 5 = true := by decide +kernel

end Sys2Proof.Tests
end

