-- ==== Sys2Proof/Tests/Tables.lean ====
section
/-! SUPPORT. For every row of the tables of words of one shape, and for the words of a run's start and end, a state that meets
what is stated about it. -/

-- One theorem at a time: the checks run in the kernel, and many at once need more threads than a build may have.
set_option Elab.async false

namespace Sys2Proof.Tests

open Sys2Proof Sys2Proof.Machine

theorem test_scalar3_met : scalar3.all (fun e => meets (does { sr := [(8, 1), (12, 1)], sw := [(4, 1)] }
    (onFiles (fun _ _ r => r.setS 4 (e.2 (r.S 8) (r.S 12))))) (base (e.1 4 8 12))) = true := by decide +kernel
theorem test_scalar2_met : scalar2.all (fun e => meets (does { sr := [(8, 1)], sw := [(4, 1)] }
    (onFiles (fun _ _ r => r.setS 4 (e.2 (r.S 8))))) (base (e.1 4 8))) = true := by decide +kernel
theorem test_scalarPairs_met : scalarPairs.all (fun e => meets (does (pairUses 4 8)
    (onFiles (fun _ _ r => r.setS64 4 (BitVec.ofNat 64 (e.2 (r.S64 4) (r.S64 8)))))) (base (e.1 4 8))) = true := by decide +kernel

/-- The claim is met with one lane active, for some tag that every register has. -/
def metTagged (x : Claim) (i : Instr) : Bool := (List.range 10).any (fun t => meets x (after [tagged t, oneLane] i))

theorem test_vec3_met : vec3.all (fun e => metTagged (laneClaim (plain (vecUses 4 8 12)) (fun g _ =>
    { prim := [src 8 1, src 12 2], accept := e.2.1, resTag := id, dst := .vec 4, f := fun _ t _ vs => byElems (e.2.2 g.rm) t vs }))
    (e.1 4 8 12)) = true := by decide +kernel
theorem test_logic3_met : logic3.all (fun e => metTagged (laneClaim (plain (vecUses 4 8 12)) (fun _ _ =>
    { prim := [src 8 1, src 12 2], accept := logicTag, resTag := id, dst := .vec 4,
      f := fun _ _ _ vs => (e.2 (ar vs 0) (ar vs 1), []) })) (e.1 4 8 12)) = true := by decide +kernel
theorem test_vec2_met : vec2.all (fun e => metTagged (laneClaim (plain (vecUses1 4 8)) (fun _ _ =>
    { prim := [src 8 1], accept := e.2.1, resTag := id, dst := .vec 4, f := fun _ t _ vs => byElems (fun t es => e.2.2 t (el es 0)) t vs }))
    (e.1 4 8)) = true := by decide +kernel
theorem test_preds3_met : preds3.all (fun e => meets (laneClaim (plain (predUses 1 2 3)) (fun _ _ =>
    { prim := [], preds := [2, 3], accept := fun _ => true, resTag := id, dst := .pred 1,
      f := fun rf _ l _ => (boolWord (e.2 (rf.Q 2 l) (rf.Q 3 l)), []) })) (after [oneLane] (e.1 1 2 3))) = true := by decide +kernel
theorem test_identities_met : identities.all (fun e => meets (laneClaim (plain { role := .vector, vw := [4] }) (fun g _ =>
    { prim := [], accept := fun _ => true, resTag := fun _ => 0, dst := .vec 4, f := fun _ _ l _ => (BitVec.ofNat 32 (e.2 g l), []) }))
    (after [oneLane] (e.1 4))) = true := by decide +kernel
theorem test_shuffles_met : shuffles.all (fun e => meets (crossClaim (fun _ _ run =>
      { vecUses1 4 8 with hopnd := .needs, bad := e.2.1 && !(run.hop == 0x8F || decide (0xC0 ≤ run.hop)) })
    (fun g run => shuffleOp e.2.2 4 8 g run)) (after [onR (fun r => { r with hopnd := some 0xC4 }), oneLane] (e.1 4 8))) = true := by
  decide +kernel
theorem test_reductions_met : reductions.all (fun e => metTagged (crossClaim (fun c g _ => reduceUses 4 8 0 c g)
    (fun g run => reduceOp e.2 4 8 0 0 g run)) (e.1 4 8 0 0)) = true := by decide +kernel
theorem test_scans_met : scans.all (fun e => metTagged (crossClaim (plain (vecUses1 4 8)) (fun g run =>
    { srcs := [8], qual := none, accept := e.2.accepts, resTag := id, size := 2 ^ g.part, vdst := [4], marksEmpty := true,
      identity := e.2.identWord, f := scanPart e.2 false g run 8 (2 ^ g.part) })) (e.1 4 8 0 0)) = true := by decide +kernel

end Sys2Proof.Tests
end

