-- ==== Sys2Proof/Tests/Whole.lean ====
section
/-! SUPPORT. States that meet the hypotheses of the statements about the whole machine: runs, traps, checks, memories, stepping
and frames. -/

-- One theorem at a time: the checks run in the kernel, and many at once need more threads than a build may have.
set_option Elab.async false

namespace Sys2Proof.Tests

open Sys2Proof Sys2Proof.Machine

/-! ## Compared words -/

theorem diffDatum_same (w : List Nat) (b c : Option Nat) : diffDatum (ev w none b) (ev w none c) = none := by
  simp [diffDatum, ev, CmpEvent.signature]

/-- The two copies have met at a word. -/
def matched (x y : CmpEvent) : State :=
  twinS (fun t => { t with cmp := { t.cmp with held := [x] } }) (fun t => { t with cmp := { t.cmp with seen := [y] } })

theorem test_compareMatch_once : (compareMatchClaims[1]?).any (fun c =>
    c.due (ab 0 0) (matched (ev [1] none (some 5)) (ev [1] none (some 6)))) = true := by
  show ((diffDatum (ev [1] none (some 5)) (ev [1] none (some 6))).isNone && true && true && true && true) = true
  rw [diffDatum_same]; rfl
theorem test_compareMatch_open : (compareMatchClaims[2]?).any (fun c => c.due (ab 0 0) (matched (ev [1]) (ev [1]))) = true := by
  show ((diffDatum (ev [1] none none) (ev [1] none none)).isNone && (true || true)) = true
  rw [diffDatum_same]; rfl

/-! ## A run's start and end, breakpoints, reserved words (R83, R98, R106) -/

/-- The issuer, its group and its gang meet a condition. -/
def standing (p : Cur → Group → Gang → State → Bool) (s : State) : Bool :=
  match s.cur with
  | none => false
  | some c => match s.curGroup? c with
    | none => false
    | some g => match g.gang? c.gang with
      | none => false
      | some k => p c g k s

theorem test_clause_starts : standing (fun c g k s => k.run.isNone && (List.range 12).all (fun i => !(9 : BitVec 12).getLsbD i || g.flagCount i == 0) &&
    (s.teams.find c.team).any (fun t => (runAt s t.ctx c g 1 5).isSome)) (base (.clause 9 1 2 5)) = true := by decide +kernel
theorem test_clause_waits : standing (fun _ g k _ => k.run.isNone && (List.range 12).any (fun i => (9 : BitVec 12).getLsbD i && g.flagCount i != 0))
    (onG (fun g => g.flagInc 3) (base (.clause 9 1 2 5))) = true := by decide +kernel
theorem test_endrun_ends : standing (fun c g k _ => k.run.any (fun run => decide ((g.bindRanges run).pend.length ≤ 16) && g.run? c.gang == some run))
    (base .nop) = true := by decide +kernel
theorem test_brk_alone : standing (fun _ _ k _ => k.run.all (fun r => r.hopnd.isNone && r.mpfx.isNone)) (base .brk) = true := by decide +kernel
theorem test_brk_hinted : standing (fun _ _ k _ => k.run.any (fun r => r.hopnd.isSome || r.mpfx.isSome))
    (after [onR (fun r => { r with hopnd := some 8 })] .nop) = true := by decide +kernel
theorem test_read_only_written : (issuerOf (base (.wrsr 0x0D 4))).any (fun i => i.2.2.1.wait == .none && i.2.2.2.op == none) = true := by decide +kernel
theorem test_reserved_in_run : standing (fun c _ k _ => k.run.isSome || natBits c.word.toNat 26 6 == 1) (base .nop) = true := by decide +kernel
theorem test_reserved_outside : standing (fun c _ k _ => k.run.isNone && natBits c.word.toNat 26 6 != 1)
    (let s := base (.clause 9 1 2 5); { s with cur := s.cur.map (fun c => { c with word := 0x60030102 }) }) = true := by decide +kernel

/-! ## Checks and traps (R18, R76, R187, R406) -/

theorem test_user_word : (issuerOf (after [onG (fun g => { g with sysmode := false })] .halt)).any (fun i =>
    i.2.2.1.wait == .none && i.2.2.2.op == none && i.2.1.sysmode == false) = true := by decide +kernel
theorem test_operand_and_hazard : ((issuerOf (after [immIs 1, onR (fun r => { r with hopnd := some 8 })] (.sadd 4 8 12))).any (fun i =>
      i.2.2.1.wait == .none && i.2.2.2.op == none && i.2.2.2.hopnd.isSome) &&
    (issuerOf (after [onG (fun g => { g with pend := [⟨0, true, 8, 1⟩] })] (.sadd 4 8 12))).any (fun i => i.2.2.1.wait == .none &&
      i.2.2.2.op == none && i.2.2.2.hopnd == none && i.2.2.2.mpfx == none && [8, 12, 4].all (fun r => decide (r < i.2.1.sregs)) &&
      [8, 12, 4].any (i.2.1.pending true))) = true := by decide +kernel

/-- A group of a team with a vector and a record address. -/
def vectored : State := onUg (fun g => { g with sysmode := false, faultlo := 0x100000 }) (onUt (fun t => { t with trapvec := 4 }) e0)
theorem test_trap_taken : (match vectored.teams.find 0 with
    | some t => (match t.group? 0 with
      | some g => t.id == 0 && g.id == 0 && t.trapvec != 0 && !g.intrap && g.recordAddr != 0 && t.copy == .only && !g.sysmode &&
        (match (translate vectored g.core t.ctx g.recordAddr .store).1 with | .ok _ => true | _ => false)
      | none => false)
    | none => false) = true := by decide +kernel
theorem test_trap_ends_team : (e0.teams.find 0).any (fun t => t.id == 0 && t.trapvec == 0 && (t.group? 0).any (fun g => g.shadow == none)) = true := by
  decide +kernel
theorem test_trap_in_system_mode : ((onUg (fun g => { g with sysmode := true, shadow := some (g.toShadow 0 0 g.unfinished) }) e0).teams.find 0).any (fun t =>
    (t.group? 0).any (fun g => g.sysmode && g.shadow.isSome)) = true := by decide +kernel
theorem test_level_takes_fault : ((onUt (fun t => { t with levels := [aLevel] }) e0).teams.find 0).any (fun t =>
    t.levels != [] && t.fail == none) = true := by decide +kernel

/-! ## Memories (R45, R282) -/

theorem test_home_written : ((home 0x100000 .clean).homes.find (homeKey 0 0x100000)).any (fun x => x.st != .invalid) = true ∧
    ((home 0x100000 .clean).vcs.find 0).isSome = true := by decide +kernel
/-- A store to scratch space at the merge point. -/
def bankStore : State := { withMp [blk .store .scratch 0x40] with subject := ab 0 7 }
theorem test_bank_store : (ackOf bankStore.subject bankStore).any (fun b => (bankStore.teams.find b.team).any (fun t =>
    (bankStore.group? b.team b.group).isSome && b.space == .scratch && (bankStore.wakeBank t.pool b.bank).1 && t.levels == [])) = true := by
  decide +kernel
theorem test_canonical : Memory.wf [(3, 1), (9, 7)] = true ∧ Memory.wf [(9, 1), (3, 7)] = false ∧ Memory.wf [(3, 0)] = false := by decide +kernel

/-! ## Stepping and decoding (R75, R84, R93) -/

/-- A machine about to run a word: the state after reset with the word placed and its turn next. -/
def ready (i : Instr) : State := State.reset.withFetchWord 32 (encodeWord i)
/-- The next turn is a scheduler's, and what it picks meets a condition. -/
def picks (p : State → Team → Group → Gang → Bool) (s : State) : Bool :=
  match s.agenda with
  | ⟨dt, .scheduler core half⟩ :: rest =>
    let s1 := turnBegins s ⟨dt, .scheduler core half⟩ rest
    match pickGang s1 core half with
    | some (t, g, k) => s.mgmt.powered && (s1.teams.find t).any (fun x => x.id == t && x.begun && (x.group? g).any (fun y => y.id == g && (y.gang? k).any (fun z =>
        z.id == k && gangReady { s1 with agenda := ⟨0, .scheduler core half⟩ :: rest } x y z && p (gangBegins s1 core half x y z) x y z)))
    | none => false
  | _ => false
theorem test_steps_pick_word : picks (fun _ _ _ k => k.run.any (fun r => match decodeWord (r.words.getD (r.off - 1) 0).toNat with
    | .ok i => i == .sli 4 7
    | _ => false)) (ready (.sli 4 7)) = true := by decide +kernel
theorem test_steps_pick_start : picks (fun s t g k => k.run.isNone && g.late == [] && (match g.nextUnits k with
    | some (pc, us) => g.atRejoin (g.units.filter (fun u => us.contains (u.1, u.2.1))) == [] && (match fetchWord s t.ctx (g.unitLanes us) pc with
      | .word _ => true
      | _ => false)
    | none => false)) (ready (.clause 9 1 2 5)) = true := by decide +kernel
theorem test_module_resets : (match Machine.step State.reset with | .next t => t.memWf | _ => false) = true := by decide +kernel
theorem test_steps_run_word : (match Machine.step (ready (.sli 4 7)) with
    | .next t => ((t.group? 0 0).map (fun g => g.rf.S 4)) == some 7
    | _ => false) = true := by decide +kernel
theorem test_well_formed : WellFormed (.vadd 3 1 2) ∧ decode (encode (.vadd 3 1 2) ++ [0, 0]) = .ok (.vadd 3 1 2, [0, 0]) := by decide +kernel

/-! ## Frames -/

theorem test_frame_scalar : meets (does { sr := [(8, 1), (12, 1)], sw := [(4, 1)] } (onFiles (fun _ _ r => r.setS 4 (r.S 8 + r.S 12))))
    (base (.sadd 4 8 12)) = true := by decide +kernel
theorem test_frame_branch : (exitClaims.any (fun x => meets x (base .exit)) && retClaims.any (fun x => meets x (after [retAll 0x40 1] .ret))) = true := by
  decide +kernel

end Sys2Proof.Tests
end

