-- ==== Sys2Proof/Tests/Words.lean ====
section
/-! SUPPORT. For every claim about a word a state that meets it: no statement about a word is about nothing. -/

-- One theorem at a time: the checks run in the kernel, and many at once need more threads than a build may have.
set_option Elab.async false

namespace Sys2Proof.Tests

open Sys2Proof Sys2Proof.Machine

theorem test_ScalarWordsWriteTheirResult_met : allMet [
   (smovClaims 4 8 12, 0, after [] (.smov 4 8 12)),
   (sbfeClaims 4 8 1, 0, after [immIs 0x104] (.sbfe 4 8 1)),
   (sbfiClaims 4 8, 0, after [immIs 0x104] (.sbfi 4 8)),
   (sselClaims 4 8 12, 0, after [] (.ssel 4 8 12)),
   (sliClaims 4 2, 0, after [] (.sli 4 2)),
   (sliuClaims 4 2, 0, after [] (.sliu 4 2)),
   (slihClaims 4 2, 0, after [] (.slih 4 2)),
   (saddiClaims 4 2, 0, after [] (.saddi 4 2)),
   (smovhClaims 4 8, 0, after [] (.smovh 4 8)),
   (smovlClaims 4 8, 0, after [] (.smovl 4 8)),
   (sshl64Claims 4 8, 0, after [] (.sshl64 4 8)),
   (sshr64Claims 4 8 1, 0, after [] (.sshr64 4 8 1)),
   (smulwClaims 4 8 1, 0, after [] (.smulw 4 8 1))] = true := by decide +kernel

theorem test_SpecialRegistersAreReadAndWritten_met : allMet [
   (rdsrClaims 4 8, 0, after [] (.rdsr 4 8)),
   (rdsrClaims 4 0x0C, 0, after [] (.rdsr 4 0x0C)),
   (wrsrClaims 8 10, 1, after [] (.wrsr 8 10)),
   (wrsrClaims 0x1A 10, 0, after [] (.wrsr 0x1A 10)),
   (wrsrClaims 9 10, 1, after [sAll 0x3FFFFFF] (.wrsr 9 10))] = true := by decide +kernel
theorem test_SpecialRegistersAreReadAndWritten_each : (specialWrites.all (fun e => e.1 == 8 || (wrsrClaims (BitVec.ofNat 8 e.1) 10)[0]?.any (fun x =>
   meets x (after [] (.wrsr (BitVec.ofNat 8 e.1) 10)))) && (wrsrClaims 8 10)[0]?.any (fun x => meets x (after [sAll 3] (.wrsr 8 10)))) = true := by
  decide +kernel

theorem test_HintWordsAttach_met : allMet [
   (himmClaims 1 2, 0, after [] (.himm 1 2)),
   (hopndClaims 4, 0, after [] (.hopnd 4)),
   (hopndClaims 4, 1, after [onR (fun r => { r with hopnd := some 8 })] (.hopnd 4)),
   (mpfxClaims 1 1 1 1 1 1, 0, after [] (.mpfx 1 1 1 1 1 1)),
   (mpfxClaims 1 1 1 1 1 1, 1, after [onR (fun r => { r with mpfx := some 0 })] (.mpfx 1 1 1 1 1 1)),
   (nopClaims, 0, after [] .nop),
   (hschedYieldClaims, 0, after [] .hschedYield),
   (hschedPrefClaims, 0, after [] .hschedPref)] = true := by decide +kernel

theorem test_BranchesGoToTheirTargets_met : allMet [
   (brsClaims 1 8 2, 0, after [] (.brs 1 8 2)),
   (brsClaims 2 10 5, 1, after [] (.brs 2 10 5)),
   (loopClaims 4 2, 0, after [] (.loop 4 2)),
   (loopClaims 4 2, 1, after [sAll 1] (.loop 4 2)),
   (brxClaims 4, 0, after [] (.brx 4)),
   (brxClaims 4, 1, after [sAll 1] (.brx 4)),
   (brxClaims 4, 2, after [sAll 0x80000000] (.brx 4)),
   (callClaims 2, 0, after [] (.call 2)),
   (callClaims 2, 1, after [retAll 0x40 8] (.call 2)),
   (retClaims, 0, after [retAll 0x40 1] .ret),
   (retClaims, 1, after [retMixed] .ret),
   (retClaims, 2, after [] .ret),
   (dbrClaims 1 1 2 2, 0, after [] (.dbr 1 1 2 2)),
   (dbrClaims 1 1 2 2, 1, after [nested] (.dbr 1 1 2 2)),
   (exitClaims, 0, after [] .exit),
   (exitClaims, 1, after [deepMeeting] .exit),
   (exitClaims, 2, after [inLevel] .exit),
   (regangClaims 4 1, 0, after [] (.regang 4 1))] = true := by decide +kernel

theorem test_GroupsMeetAndGrow_met_1 : allMet [
   (barClaims, 0, after [] .bar),
   (barpClaims 4 1, 0, after [sAll 1, twoGangs] (.barp 4 1)),
   (barpClaims 4 1, 1, after [sAll 2, twoGroups] (.barp 4 1)),
   (barpClaims 4 1, 2, after [cyc 0 [1], barpDue] (.barp 4 1)),
   (barpClaims 4 1, 3, after [] (.barp 4 1)),
   (sigevClaims 4 8, 0, after [] (.sigev 4 8)),
   (sigevClaims 4 8, 1, after [userT, cyc 0 [0], stores 1, fun s => { s with opCtr := 9 }] (.sigev 4 8)),
   (sigevClaims 4 8, 2, after [sAll 1] (.sigev 4 8)),
   (waitevClaims 4 8, 0, after [sAll 1, onG (fun g => { g with evpend := 0x3FF })] (.waitev 4 8)),
   (waitevClaims 4 8, 1, after [waitIs (.event 1), cyc 0 [1], onG (fun g => { g with evpend := 1 })] (.waitev 4 8)),
   (waitevClaims 4 8, 2, after [sAll 1] (.waitev 4 8)),
   (waitevClaims 4 8, 3, after [] (.waitev 4 8)),
   (sleepClaims 4, 0, after [] (.sleep 4)),
   (yieldClaims, 0, after [] .yield),
   (electClaims 4 1, 0, after [] (.elect 4 1)),
   (setpartClaims 2, 0, after [] (.setpart 2)),
   (growClaims 4, 0, after [] (.grow 4)),
   (growClaims 4, 1, after [rowsAre 64 64, cyc 0 [128]] (.grow 4)),
   (growClaims 4, 2, after [rowsAre 64 64, cyc 0 [128], atBarrier] (.grow 4)),
   (growClaims 4, 3, after [rowsAre 64 512, cyc 0 [128]] (.grow 4)),
   (growClaims 4, 4, after [sAll 1] (.grow 4)),
   (growClaims 4, 5, after [sAll 136] (.grow 4)),
   (growClaims 4, 6, after [fun s => onT (fun t => { t with oldRegs := [0] }) (rowsAre 64 64 s), cyc 0 [128]] (.grow 4)),
   (shrinkClaims 4, 0, after [sAll 128] (.shrink 4)),
   (shrinkClaims 4, 1, after [sAll 8] (.shrink 4))] = true := by decide +kernel

theorem test_GroupsMeetAndGrow_met_2 : allMet [
   (shrinkClaims 4, 2, after [cyc 0 [8], onG (fun g => { g with pend := [⟨0, false, 100, 4⟩] })] (.shrink 4)),
   (shrinkClaims 4, 3, after [] (.shrink 4)),
   (errinjClaims 4, 0, after [] (.errinj 4)),
   (errinjClaims 4, 1, after [sAll 0xFFFFFFFF] (.errinj 4))] = true := by decide +kernel

theorem test_TrapsSaveAndReturn_met : allMet [
   (trapClaims 2, 0, after [] (.trap 2)),
   (syscallClaims 4 2, 0, after [] (.syscall 4 2)),
   (haltClaims, 0, after [] .halt),
   (eretClaims 1, 0, after [inTrap] (.eret 1)),
   (eretClaims 1, 1, after [] (.eret 1))] = true := by decide +kernel

theorem test_LaneWordsWriteEveryActiveLane_met_1 : allMet [
   (vmaClaims 4 8 12, 0, after [oneLane] (.vma 4 8 12)),
   (vmadClaims 4 8 12, 0, after [oneLane, onR (fun r => { r with hopnd := some 8 })] (.vmad 4 8 12)),
   (vselClaims 1 8 12 16, 0, after [oneLane] (.vsel 1 8 12 16)),
   (vshlClaims 4 8 12, 0, after [oneLane] (.vshl 4 8 12)),
   (vshrClaims 4 8 12, 0, after [oneLane] (.vshr 4 8 12)),
   (vbfeClaims 4 8 12, 0, after [oneLane] (.vbfe 4 8 12)),
   (vbfiClaims 4 8 12, 0, after [oneLane] (.vbfi 4 8 12)),
   (vdot2Claims 4 8 12, 0, after [oneLane, taggedBut4 5 0] (.vdot2 4 8 12)),
   (vdot4Claims 4 8 12, 0, after [oneLane, taggedBut4 6 0] (.vdot4 4 8 12)),
   (vcmpClaims 1 1 12 16, 0, after [oneLane] (.vcmp 1 1 12 16)),
   (vcmpaClaims 1 1 12 16, 0, after [oneLane] (.vcmpa 1 1 12 16)),
   (vcmpoClaims 1 1 12 16, 0, after [oneLane] (.vcmpo 1 1 12 16)),
   (vretagClaims 1 8 12, 0, after [] (.vretag 1 8 12)),
   (vmovClaims 4 8, 0, after [oneLane] (.vmov 4 8)),
   (vmovsClaims 4 2, 0, after [oneLane] (.vmovs 4 2)),
   (vliClaims 4 2, 0, after [oneLane] (.vli 4 2)),
   (vactiveClaims 4, 0, after [oneLane] (.vactive 4)),
   (vroundClaims 4 8 1, 0, after [oneLane, tagged 2] (.vround 4 8 1)),
   (vclassClaims 4 8, 0, after [tagged 2] (.vclass 4 8)),
   (vnotClaims 4 8, 0, after [oneLane] (.vnot 4 8)),
   (xsetClaims 1 8, 0, after [oneLane] (.xset 1 8)),
   (xaddClaims 1 8, 0, after [oneLane] (.xadd 1 8)),
   (xwinClaims 4 8, 0, after [oneLane] (.xwin 4 8)),
   (vrandClaims 4 8 1, 0, after [] (.vrand 4 8 1))] = true := by decide +kernel

theorem test_LaneWordsWriteEveryActiveLane_met_2 : allMet [
   (vranduClaims 4 8 1, 0, after [] (.vrandu 4 8 1))] = true := by decide +kernel

theorem test_CrossLaneWordsExchangePartitions_met : allMet [
   (vvoteanyClaims 0 0, 0, after [oneLane] (.vvoteany 0 0)),
   (vvoteallClaims 0 0, 0, after [oneLane] (.vvoteall 0 0)),
   (vballotClaims 0 0, 0, after [] (.vballot 0 0)),
   (vzipClaims 1 8 12, 0, after [oneLane] (.vzip 1 8 12)),
   (vunzipClaims 1 8 12, 0, after [oneLane] (.vunzip 1 8 12)),
   (vcvtClaims 1 1 1 16 20, 0, after [] (.vcvt 1 1 1 16 20)),
   (vcvtClaims 3 2 1 1 1, 1, after [oneLane] (.vcvt 3 2 1 1 1))] = true := by decide +kernel

theorem test_FencesProbesAndPrefetchesIssue_met : allMet [
   (fenceClaims, 0, after [] .fence),
   (fenceClaims, 1, after [onR (fun r => { r with mpfx := some 0x800000 })] .fence),
   (invl1Claims, 0, after [] .invl1),
   (invpgClaims 4 8, 0, after [] (.invpg 4 8)),
   (invpgClaims 4 8, 1, after [sAll 64] (.invpg 4 8))] = true := by decide +kernel

theorem test_SliceWordsHandTheirOperationsOver_met : allMet [
   (cmlrClaims 8 0, 0, after [mapped] (.cmlr 8 0)),
   (cmlrClaims 8 0, 1, after [atBarrier, mapped] (.cmlr 8 0)),
   (cmlsClaims 8 10 0, 0, after [mapped, commandBanks] (.cmls 8 10 0)),
   (cmlsClaims 4 8 1, 1, after [userT, mapped, banks0, regs [(8,0x100000)], atBarrier] (.cmls 4 8 1)),
   (sealClaims 4 8, 0, after [mapped, regs [(4,0x100000),(8,0x10000)]] (.seal 4 8)),
   (sealClaims 4 8, 1, after [mapped, regs [(4,0x100000),(8,0x10000)], atBarrier] (.seal 4 8)),
   (unsealClaims 4 8, 0, after [mapped, regs [(4,0x100000),(8,0x10000)]] (.unseal 4 8)),
   (unsealClaims 4 8, 1, after [mapped, regs [(4,0x100000),(8,0x10000)], atBarrier] (.unseal 4 8)),
   (wobsealClaims 4 8, 0, after [mapped, regs [(8,0x100000),(10,0x10000),(11,1)]] (.wobseal 4 8)),
   (wobsealClaims 4 8, 1, after [mapped, regs [(8,0x100000),(10,0x10000),(11,1)], atBarrier] (.wobseal 4 8)),
   (wobrelClaims 4, 0, after [mapped, wobLive, cyc 0 [0]] (.wobrel 4)),
   (wobrelClaims 4, 1, after [mapped, wobLive, cyc 0 [0], atBarrier] (.wobrel 4)),
   (discardClaims 4 8, 0, after [mapped, cyc 0 [0x100000, 0, 0x1000, 0, 0x100000, 0, 0x1000, 0]] (.discard 4 8)),
   (discardClaims 4 8, 1, after [mapped, cyc 0 [0x100000, 0, 0x1000, 0, 0x100000, 0, 0x1000, 0], atBarrier] (.discard 4 8)),
   (flushClaims 4 8, 0, after [mapped, regs [(4,0x100000),(8,0x1000)]] (.flush 4 8)),
   (flushClaims 4 8, 1, after [mapped, regs [(4,0x100000),(8,0x1000)], atBarrier] (.flush 4 8)),
   (vcqueryClaims 4 8, 0, after [] (.vcquery 4 8)),
   (vcqueryClaims 4 8, 1, after [sAll 256] (.vcquery 4 8)),
   (vcdefClaims 4, 0, after [mapped, cellsM (cellsAt 0x100000 ([1] ++ (cdr 1).drop 1)), regs [(4,0x100000)]] (.vcdef 4)),
   (vcdefClaims 4, 1, after [mapped, cellsM (cellsAt 0x100000 ([1, 1] ++ (cdr 1).drop 2)), regs [(4,0x100000)]] (.vcdef 4)),
   (vcdefClaims 4, 2, after [mapped] (.vcdef 4)),
   (vcresizeClaims 4, 0, after [mapped, cellsM (cellsAt 0x100000 (cdr 1)), regs [(4,0x100000)]] (.vcresize 4)),
   (vcresizeClaims 4, 1, after [mapped, fun s => { s with vcs := [(0, { probeVc with old := some ⟨[], 0, 0, [], [], 0⟩ })] }, cellsM
     (cellsAt 0x100000 (cdr 1)), regs [(4,0x100000)]] (.vcresize 4)),
   (vcresizeMoveClaims 4, 0, after [mapped, regs [(4,0x100000),(6,0x10000)]] (.vcresizeMove 4))] = true := by decide +kernel

theorem test_BankWordsMoveBanksAndSignals_met_1 : allMet [
   (btakeClaims 4 1, 0, after [] (.btake 4 1)),
   (btakeClaims 4 1, 1, after [userT, banksFull, slotsAll .detached] (.btake 4 1)),
   (btakeClaims 4 1, 2, after [commandBanks] (.btake 4 1)),
   (bfreeClaims 1, 0, after [commandBanks] (.bfree 1)),
   (bfreeClaims 1, 1, after [userT, slotsAll (.opening 9), opIs 9 0 (.bopen 0 0 0 0 none (some 3))] (.bfree 1)),
   (bfreeClaims 1, 2, after [userT, slotsAll (.opening 9), opIs 9 0 (.bopen 0 0 0 0 none none)] (.bfree 1)),
   (bfreeClaims 1, 3, after [inLevel] (.bfree 1)),
   (bfreeClaims 1, 4, after [] (.bfree 1)),
   (bgiveClaims 4 1 1, 0, after [userT, banks0, opIs 9 0 (.bopen 9 0 4 1 none none)] (.bgive 4 1 1)),
   (bgiveClaims 8 0 2, 1, after [commandBanks] (.bgive 8 0 2)),
   (bgiveClaims 4 1 1, 2, after [userT, banks0, givesFull] (.bgive 4 1 1)),
   (bgiveClaims 4 1 1, 3, after [userT, banks0, opIs 9 3 (.bopen 9 0 4 1 none none), team3] (.bgive 4 1 1)),
   (bgiveClaims 4 1 1, 4, after [onT (fun t => { t with copy := .leading })] (.bgive 4 1 1)),
   (bopenClaims 4 8 1, 0, after [] (.bopen 4 8 1)),
   (bopenClaims 4 8 1, 1, after [commandBanks] (.bopen 4 8 1)),
   (bopenClaims 4 8 1, 2, after [sAll 1] (.bopen 4 8 1)),
   (bdrainClaims 0 2, 0, after [] (.bdrain 0 2)),
   (bqueryClaims 8 0 2, 0, after [] (.bquery 8 0 2)),
   (swinitClaims 4 8, 0, after [commandBanks] (.swinit 4 8)),
   (swinitClaims 4 8, 1, after [userT, stores 16] (.swinit 4 8)),
   (swinitClaims 4 8, 2, after [sAll 1] (.swinit 4 8)),
   (swinitClaims 4 8, 3, after [sAll 0x80000000] (.swinit 4 8)),
   (swinitClaims 4 8, 4, after [] (.swinit 4 8)),
   (swaddClaims 4 8, 0, after [commandBanks] (.swadd 4 8))] = true := by decide +kernel

theorem test_BankWordsMoveBanksAndSignals_met_2 : allMet [
   (swaddClaims 4 8, 1, after [userT, stores 16] (.swadd 4 8)),
   (swaddClaims 4 8, 2, after [sAll 1] (.swadd 4 8)),
   (swaddClaims 4 8, 3, after [sAll 0x80000000] (.swadd 4 8)),
   (swaddClaims 4 8, 4, after [] (.swadd 4 8)),
   (swwaitClaims 4 8, 0, after [sAll 16, commandBanks] (.swwait 4 8)),
   (swwaitClaims 4 8, 1, after [userT, banks0, regs [(4, 1)], atBarrier] (.swwait 4 8)),
   (swwaitClaims 4 8, 2, after [commandBanks] (.swwait 4 8)),
   (swreadClaims 4 8, 0, after [commandBanks] (.swread 4 8)),
   (ringdefClaims 4 8, 0, after [userT, banks0, cyc 0 [0, 256, 0xFFFFFFFF, 0]] (.ringdef 4 8)),
   (ringdefClaims 4 8, 1, after [sAll 256, commandBanks] (.ringdef 4 8)),
   (ringdefClaims 8 10, 2, after [userT, banks0, cyc 0 [0, 256, 0xFFFFFFFF, 0]] (.ringdef 8 10)),
   (sendClaims 4 8, 0, after [sAll 64, commandBanks] (.send 4 8)),
   (sendClaims 4 8, 1, after [userT, banks0, cyc 0 [0, 64, 0, 64], atBarrier] (.send 4 8)),
   (ringackClaims 4 8, 0, after [userT, banks0, cyc 0 [0]] (.ringack 4 8)),
   (ringackClaims 4 8, 1, after [userT, banks0, opIs 9 0 (.ringack 0 0), cyc 0 [0]] (.ringack 4 8)),
   (ringackClaims 4 8, 2, after [] (.ringack 4 8)),
   (ringackClaims 4 8, 3, after [userT, banks0, cyc 0 [0], sAll 1] (.ringack 4 8)),
   (ringwaitClaims 4 8, 0, after [userT, banks0, cyc 0 [0]] (.ringwait 4 8)),
   (ringwaitClaims 4 8, 1, after [userT, banks0, cyc 0 [0], atBarrier] (.ringwait 4 8)),
   (ringwaitClaims 4 8, 2, after [userT, banks0, regs [(4, 0), (8, 1), (10,1)]] (.ringwait 4 8)),
   (ringwaitClaims 4 8, 3, after [] (.ringwait 4 8))] = true := by decide +kernel

theorem test_CopyWordsQueueTheirCopies_met_1 : allMet [
   (copyClaims 0, 0, after [mapped, copyD 0] (.copy 0)),
   (copyClaims 0, 1, after [mapped, copiesFull, copyD 0] (.copy 0)),
   (copyClaims 0, 2, after [] (.copy 0)),
   (copy2dClaims 0, 0, after [mapped, copyD 1] (.copy2d 0)),
   (copy2dClaims 0, 1, after [mapped, copiesFull, copyD 1] (.copy2d 0)),
   (copy2dClaims 0, 2, after [] (.copy2d 0)),
   (cgathClaims 0, 0, after [mapped, copyD 2] (.cgath 0)),
   (cgathClaims 0, 1, after [mapped, copiesFull, copyD 2] (.cgath 0)),
   (cgathClaims 0, 2, after [] (.cgath 0)),
   (cscatClaims 0, 0, after [mapped, copyD 3] (.cscat 0)),
   (cscatClaims 0, 1, after [mapped, copiesFull, copyD 3] (.cscat 0)),
   (cscatClaims 0, 2, after [] (.cscat 0)),
   (cfillClaims 0, 0, after [mapped, copyD 4] (.cfill 0)),
   (cfillClaims 0, 1, after [mapped, copiesFull, copyD 4] (.cfill 0)),
   (cfillClaims 0, 2, after [] (.cfill 0)),
   (rputClaims 0, 0, after [mapped, copyD 8] (.rput 0)),
   (rputClaims 0, 1, after [mapped, copiesFull, copyD 8] (.rput 0)),
   (rputClaims 0, 2, after [] (.rput 0)),
   (rgetClaims 0, 0, after [mapped, copyD 9] (.rget 0)),
   (rgetClaims 0, 1, after [mapped, copiesFull, copyD 9] (.rget 0)),
   (rgetClaims 0, 2, after [] (.rget 0)),
   (ratomClaims 0 0, 0, after [mapped, copyD 10] (.ratom 0 0)),
   (ratomClaims 0 0, 1, after [mapped, copiesFull, copyD 10] (.ratom 0 0)),
   (ratomClaims 0 0, 2, after [] (.ratom 0 0))] = true := by decide +kernel

theorem test_CopyWordsQueueTheirCopies_met_2 : allMet [
   (csealClaims 1, 0, after [] (.cseal 1)),
   (csealClaims 1, 1, after [batches { Batch.free with st := .sealed }] (.cseal 1)),
   (cwaitClaims 4 1 1, 0, after [] (.cwait 4 1 1)),
   (cwaitClaims 4 1 1, 1, after [atBarrier] (.cwait 4 1 1)),
   (cwaitClaims 4 1 1, 2, after [batches { Batch.free with st := .sealed }] (.cwait 4 1 1)),
   (cwaitClaims 4 1 1, 3, after [batches { Batch.free with st := .done, code := 0x20, nerr := 1 }] (.cwait 4 1 1)),
   (cstatClaims 4 1, 0, after [] (.cstat 4 1))] = true := by decide +kernel

theorem test_QueueAndStageWordsWork_met : allMet [
   (qkickClaims 4, 0, after [queuesM 3, cyc 0 [1]] (.qkick 4)),
   (qkickClaims 4, 1, after [queuesM 3, cyc 0 [1], atBarrier] (.qkick 4)),
   (qkickClaims 4, 2, after [] (.qkick 4)),
   (launchClaims 4 8, 0, after [queuesM 3, cyc 0 [64, 0, 1, 1]] (.launch 4 8)),
   (launchClaims 4 8, 1, after [queuesM 3, cyc 0 [64, 0, 1, 1], atBarrier] (.launch 4 8)),
   (launchClaims 4 8, 2, after [sAll 1] (.launch 4 8)),
   (launchClaims 4 8, 3, after [] (.launch 4 8)),
   (qwaitClaims 4, 0, after [queuesM 3, cyc 0 [1, 0, 3, 0]] (.qwait 4)),
   (qwaitClaims 4, 1, after [queuesM 3, cyc 0 [1, 0, 3, 0], atBarrier] (.qwait 4)),
   (qwaitClaims 4, 2, after [queuesM 3, cyc 0 [1, 0, 3, 0], sAll 1] (.qwait 4)),
   (qwaitClaims 4, 3, after [] (.qwait 4)),
   (stageinitClaims 1 8, 0, after [userT, cyc 0 [3]] (.stageinit 1 8)),
   (stageinitClaims 1 8, 1, after [] (.stageinit 1 8)),
   (stagearvClaims 1 1, 0, after [userT] (.stagearv 1 1)),
   (stagearvClaims 1 1, 1, after [] (.stagearv 1 1)),
   (stagewtClaims 1 1 1, 0, after [userT] (.stagewt 1 1 1)),
   (stagewtClaims 1 1 1, 1, after [userT, atBarrier] (.stagewt 1 1 1)),
   (stagewtClaims 2 1 2, 2, after [userT] (.stagewt 2 1 2)),
   (stagewtClaims 1 1 1, 3, after [] (.stagewt 1 1 1)),
   (roleqClaims 4 1, 0, after [] (.roleq 4 1))] = true := by decide +kernel

theorem test_PreemptActsOnTeamsAndClusters_met_1 : allMet [
   (preemptSuspendClaims 4 8, 0, after [] (.preemptSuspend 4 8)),
   (preemptSuspendClaims 4 8, 1, after [others, opIs 9 1 (.suspend 1 4), cyc 0 [1]] (.preemptSuspend 4 8)),
   (preemptSuspendClaims 4 8, 2, after [others, sAll 8] (.preemptSuspend 4 8)),
   (preemptSuspendClaims 4 8, 3, after [others, sAll 4] (.preemptSuspend 4 8)),
   (preemptSuspendClaims 4 8, 4, after [others, cyc 0 [1]] (.preemptSuspend 4 8)),
   (preemptResumeClaims 4 8, 0, after [] (.preemptResume 4 8)),
   (preemptResumeClaims 4 8, 1, after [others, opIs 9 1 (.suspend 1 4), cyc 0 [1]] (.preemptResume 4 8)),
   (preemptResumeClaims 4 8, 2, after [others, opIs 9 1 (.suspend 1 4), cyc 0 [1], sAll 8] (.preemptResume 4 8)),
   (preemptResumeClaims 4 8, 3, after [others, opIs 9 1 (.suspend 1 4), cyc 0 [1], sAll 4] (.preemptResume 4 8)),
   (preemptEvictClaims 4 8, 0, after [] (.preemptEvict 4 8)),
   (preemptEvictClaims 4 8, 1, after [others, opIs 9 1 (.suspend 1 4), cyc 0 [1]] (.preemptEvict 4 8)),
   (preemptEvictClaims 4 8, 2, after [others, opIs 9 1 (.suspend 1 4), cyc 0 [1], sAll 8] (.preemptEvict 4 8)),
   (preemptEvictClaims 4 8, 3, after [others, opIs 9 1 (.suspend 1 4), cyc 0 [1], sAll 4] (.preemptEvict 4 8)),
   (preemptTerminateClaims 4 8, 0, after [] (.preemptTerminate 4 8)),
   (preemptTerminateClaims 4 8, 1, after [others, opIs 9 1 (.suspend 1 4), cyc 0 [1]] (.preemptTerminate 4 8)),
   (preemptTerminateClaims 4 8, 2, after [others, opIs 9 1 (.suspend 1 4), cyc 0 [1], sAll 4] (.preemptTerminate 4 8)),
   (preemptSysresumeClaims 4 8, 0, after [] (.preemptSysresume 4 8)),
   (preemptSysresumeClaims 4 8, 1, after [others, opIs 9 1 (.suspend 1 4), cyc 0 [1]] (.preemptSysresume 4 8)),
   (preemptSysresumeClaims 4 8, 2, after [others, opIs 9 1 (.suspend 1 4), cyc 0 [1], sAll 8] (.preemptSysresume 4 8)),
   (preemptSysresumeClaims 4 8, 3, after [others, opIs 9 1 (.suspend 1 4), cyc 0 [1], sAll 4] (.preemptSysresume 4 8)),
   (preemptSysresumeClaims 4 8, 4, after [others, cyc 0 [1,0]] (.preemptSysresume 4 8)),
   (preemptCldrainClaims 4 8, 0, after [sAll 256] (.preemptCldrain 4 8)),
   (preemptCldrainClaims 4 8, 1, after [cyc 0 [3], fun s => s.putCluster 3 { Cluster.reset with door := .closed }]
     (.preemptCldrain 4 8)),
   (preemptCldrainClaims 4 8, 2, after [] (.preemptCldrain 4 8))] = true := by decide +kernel

theorem test_PreemptActsOnTeamsAndClusters_met_2 : allMet [
   (preemptClopenClaims 4 8, 0, after [sAll 256] (.preemptClopen 4 8)),
   (preemptClopenClaims 4 8, 1, after [] (.preemptClopen 4 8)),
   (preemptCloffClaims 4 8, 0, after [sAll 256] (.preemptCloff 4 8)),
   (preemptCloffClaims 4 8, 1, after [] (.preemptCloff 4 8)),
   (ctxsaveClaims 4 8, 0, after [] (.ctxsave 4 8)),
   (ctxsaveClaims 4 8, 1, after [others, opIs 9 1 (.suspend 1 4), cyc 0 [1]] (.ctxsave 4 8)),
   (ctxsaveClaims 4 8, 2, after [others, sAll 8] (.ctxsave 4 8)),
   (ctxloadClaims 4 8, 0, after [] (.ctxload 4 8)),
   (ctxloadClaims 4 8, 1, after [others, opIs 9 8 (.suspend 4 4), cyc 0 [8]] (.ctxload 4 8)),
   (ctxloadClaims 4 8, 2, after [others, opIs 9 8 (.suspend 4 4), cyc 0 [8], sAll 1] (.ctxload 4 8)),
   (ctxloadClaims 4 8, 3, after [others, opIs 9 8 (.suspend 4 4), cyc 0 [8], sAll 9] (.ctxload 4 8)),
   (ctxloadClaims 4 8, 4, after [others, cyc 0 [9, 0x801]] (.ctxload 4 8))] = true := by decide +kernel

theorem test_WindowsAreExportedAndRevoked_met : allMet [
   (wexportClaims 4 8, 0, after [mapped, cyc 0 [0x10000,0,1,0,0,0,0,0]] (.wexport 4 8)),
   (wexportClaims 4 8, 2, after [] (.wexport 4 8)),
   (wrevokeClaims 4, 0, after [fun s => { s with fabric := { s.fabric with windows := [(0, aWindow)] } }] (.wrevoke 4)),
   (wrevokeClaims 4, 1, after [] (.wrevoke 4))] = true := by decide +kernel

theorem test_MatrixWordsIssue_met_1 : allMet [
   (mcfgClaims 1 8, 0, after [userT, cyc 0 [0x88]] (.mcfg 1 8)),
   (mcfgClaims 1 8, 1, after [] (.mcfg 1 8)),
   (mcfgClaims 1 8, 2, after [userT, tokOther, cyc 0 [0x88]] (.mcfg 1 8)),
   (mcfgClaims 1 8, 3, after [sAll 136] (.mcfg 1 8)),
   (mmpClaims 0 0 0 0, 0, after [userT, cyc 0 [0x1000, 0, 0x10000, 0, 0, 0, 0, 0]] (.mmp 0 0 0 0)),
   (mmpbClaims 0 0 0 0, 0, after [userT, cyc 0 [0x1000, 0, 0x10000, 1, 0, 0, 0, 0]] (.mmpb 0 0 0 0)),
   (mmpgClaims 0 0 8 0, 0, after [userT, banks0, regs [(0,0x1000),(1,0),(2,0x10000),(3,4),(8,0x1000),(9,0),(10,0x10000),(11,0)]]
     (.mmpg 0 0 8 0)),
   (mzeroClaims 1, 0, after [userT] (.mzero 1)),
   (mzeroClaims 1, 1, after [userT, tokOther] (.mzero 1)),
   (mzeroClaims 1, 2, after [] (.mzero 1)),
   (tokpassClaims 1 8, 0, after [userT, cyc 4 [0, 0xFFFFFFFF]] (.tokpass 1 8)),
   (tokpassClaims 1 8, 1, after [userT, cyc 4 [0, 0xFFFFFFFF], stores 1, fun s => { s with opCtr := 9 }] (.tokpass 1 8)),
   (tokpassClaims 1 8, 2, after [sAll 0xFFFFFFFF] (.tokpass 1 8)),
   (tokpassClaims 1 8, 3, after [userT, cyc 4 [0, 5]] (.tokpass 1 8)),
   (tokpassClaims 1 8, 4, after [userT, team3, cyc 4 [0, 4]] (.tokpass 1 8)),
   (tokpassClaims 1 8, 5, after [userT, tokOther, cyc 4 [0, 0xFFFFFFFF]] (.tokpass 1 8)),
   (tokpassClaims 1 8, 6, after [userT, noMat, cyc 4 [0, 0xFFFFFFFF]] (.tokpass 1 8)),
   (tokwaitClaims 1, 0, after [userT] (.tokwait 1)),
   (tokwaitClaims 1, 1, after [userT, atBarrier] (.tokwait 1)),
   (tokwaitClaims 1, 2, after [userT, tokOther] (.tokwait 1)),
   (tokwaitClaims 1, 3, after [] (.tokwait 1)),
   (treadClaims 0 10 12 0, 0, after [userT] (.tread 0 10 12 0)),
   (treadClaims 1 8 12 1, 1, after [] (.tread 1 8 12 1)),
   (treadClaims 0 10 12 0, 2, after [userT, tokOther] (.tread 0 10 12 0)),
   (treadClaims 0 10 12 0, 3, after [] (.tread 0 10 12 0)),
   (twriteClaims 0 10 12 0, 0, after [userT, tagged 2] (.twrite 0 10 12 0))] = true := by decide +kernel

theorem test_MatrixWordsIssue_met_2 : allMet [
   (twriteClaims 1 8 12 1, 1, after [] (.twrite 1 8 12 1)),
   (twriteClaims 0 10 12 0, 2, after [userT, tokOther] (.twrite 0 10 12 0)),
   (twriteClaims 0 10 12 0, 3, after [] (.twrite 0 10 12 0)),
   (tchkClaims 0 10 0 0 0, 0, after [userT] (.tchk 0 10 0 0 0)),
   (tchkClaims 1 8 1 1 1, 1, after [] (.tchk 1 8 1 1 1)),
   (tchkClaims 0 10 0 0 0, 2, after [userT, tokOther] (.tchk 0 10 0 0 0)),
   (tchkClaims 0 10 0 0 0, 3, after [] (.tchk 0 10 0 0 0)),
   (mdrainClaims 0 0 0, 0, after [userT, banks0, cyc 0 [0x1000,0,0x10000,2,0,0,0,0]] (.mdrain 0 0 0))] = true := by decide +kernel

theorem test_RecoveryWordsOpenTestAndJudge_met : allMet [
   (ensureClaims 8 5, 0, after [userT, immIs 0x30001, cyc 0 [5]] (.ensure 8 5)),
   (ensureClaims 4 2, 1, after [userT, immIs 0x30001, cyc 0 [5], waitIs (.ensure 0)] (.ensure 4 2)),
   (ensureClaims 4 2, 2, after [userT, onT (fun t => { t with forming := some { aLevel with arrived := [0] } }), waitIs (.ensure
     1)] (.ensure 4 2)),
   (ensureClaims 4 2, 3, after [] (.ensure 4 2)),
   (ensureClaims 8 5, 4, after [userT, immIs 0x30001, cyc 0 [5], onT (fun t => { t with levels := List.replicate 8 aLevel })]
     (.ensure 8 5)),
   (ensureClaims 8 5, 5, after [userT, immIs 0x30001, cyc 0 [5], onT (fun t => { t with desc := { t.desc with rcsize := 0 } })]
     (.ensure 8 5)),
   (elsebyClaims 5, 0, after [atTerm id] (.elseby 5)),
   (elsebyClaims 2, 1, after [] (.elseby 2)),
   (elseerrClaims, 0, after [atTerm id] .elseerr),
   (elseerrClaims, 1, after [] .elseerr),
   (verdictClaims 1, 0, after [atTerm (fun l => { l with testing := [0] })] (.verdict 1)),
   (verdictClaims 1, 1, after [atTerm id, waitIs (.verdict 2)] (.verdict 1)),
   (verdictClaims 1, 2, after [atTerm (fun l => { l with testing := [0], verdicts := [(0, true)] }), waitIs (.verdict 1)]
     (.verdict 1)),
   (verdictClaims 1, 3, after [] (.verdict 1)),
   (rbfailClaims 4, 0, after [inLevel] (.rbfail 4)),
   (rbfailClaims 4, 1, after [] (.rbfail 4)),
   (rbstatClaims 4, 0, after [] (.rbstat 4)),
   (convjoinClaims 4, 0, after [mapped, record0, regs [(4,0x100000)], atTerm id] (.convjoin 4)),
   (convjoinClaims 4, 1, after [mapped, record0, regs [(4,0x100000)], atTerm (fun l => { l with formed := true }), waitIs
     .convjoin] (.convjoin 4)),
   (convjoinClaims 4, 2, after [twoGangs] (.convjoin 4)),
   (convjoinClaims 4, 3, after [] (.convjoin 4))] = true := by decide +kernel

theorem test_CompareWordsReport_met : allMet [
   (cmpstatClaims 4, 0, after [] (.cmpstat 4)),
   (cmppointClaims 4 1 1, 0, after [] (.cmppoint 4 1 1))] = true := by decide +kernel

theorem test_LinkWordsControlTheGroups_met : allMet [
   (lnkparkClaims 4 1, 0, after [sAll 2] (.lnkpark 4 1)),
   (lnkparkClaims 4 1, 1, after [] (.lnkpark 4 1)),
   (lnkparkClaims 4 1, 2, after [sAll 1] (.lnkpark 4 1)),
   (lnkwakeClaims 4 1, 0, after [links (fun l => { l with pairs := List.replicate 7 .parked }), cyc 0 [6]] (.lnkwake 4 1)),
   (lnkwakeClaims 4 1, 1, after [] (.lnkwake 4 1)),
   (lnkwakeClaims 4 1, 2, after [sAll 1] (.lnkwake 4 1)),
   (lnkstatClaims 4 1, 0, after [] (.lnkstat 4 1)),
   (slotldClaims 4 1, 2, after [links (fun l => { l with swpend := true })] (.slotld 4 1)),
   (slotldClaims 4 1, 3, after [sAll 1] (.slotld 4 1)),
   (slotswClaims 1, 0, after [links (fun l => { l with standby := some ⟨[], []⟩ })] (.slotsw 1)),
   (slotswClaims 1, 1, after [links (fun l => { l with swpend := true })] (.slotsw 1)),
   (slotswClaims 1, 2, after [] (.slotsw 1)),
   (slotswClaims 1, 3, after [links (fun l => { l with standby := some ⟨[(0, 0x100)], []⟩, active := ⟨[(4095, 0x1E0)], []⟩ })]
     (.slotsw 1)),
   (lnkthrClaims 4 1, 0, after [] (.lnkthr 4 1)),
   (lnkthrClaims 4 1, 1, after [sAll 0x10000] (.lnkthr 4 1)),
   (lnkretrainClaims 1, 0, after [] (.lnkretrain 1))] = true := by decide +kernel

end Sys2Proof.Tests
end

section
/-! SUPPORT. Read after write of a register file: what each kind of register reads as after a write to each kind. The lane
registers keep their entries under the key number × 64 + lane, so a write reaches one entry only while the lanes stay
below 64. -/

namespace Sys2Proof.Machine

/-- Below lane 64, the key number × 64 + lane tells registers and lanes apart. -/
theorem laneKey_ne {i r j l : Nat} (hj : j < 64) (hl : l < 64) (h : i ≠ r ∨ j ≠ l) : i * 64 + j ≠ r * 64 + l := by
  omega

namespace RegFile

variable (rf : RegFile)

/-! ## Uniform registers (R8, R152) -/

@[simp] theorem S_setS_self (r : Nat) (w : Word) : (rf.setS r w).S r = w := by
  simp [S, setS]

@[simp] theorem S_setS_ne {r i : Nat} (w : Word) (h : i ≠ r) : (rf.setS r w).S i = rf.S i := by
  simp [S, setS, h]

@[simp] theorem V_setS (r i l : Nat) (w : Word) : (rf.setS r w).V i l = rf.V i l := rfl
@[simp] theorem Q_setS (r q l : Nat) (w : Word) : (rf.setS r w).Q q l = rf.Q q l := rfl
@[simp] theorem X_setS (r k l : Nat) (w : Word) : (rf.setS r w).X k l = rf.X k l := rfl

/-! ## Vector registers (R194) -/

@[simp] theorem V_setV_self (r l : Nat) (w : Word) : (rf.setV r l w).V r l = w := by
  simp [V, setV]

@[simp] theorem vOk_setV_self (r l : Nat) (w : Word) : (rf.setV r l w).vOk r l = true := by
  simp [vOk, setV]

theorem V_setV_ne {r l i j : Nat} (w : Word) (hl : l < 64) (hj : j < 64) (h : i ≠ r ∨ j ≠ l) :
    (rf.setV r l w).V i j = rf.V i j := by
  simp [V, setV, laneKey_ne hj hl h]

@[simp] theorem S_setV (r l i : Nat) (w : Word) : (rf.setV r l w).S i = rf.S i := rfl
@[simp] theorem Q_setV (r l q j : Nat) (w : Word) : (rf.setV r l w).Q q j = rf.Q q j := rfl
@[simp] theorem X_setV (r l k j : Nat) (w : Word) : (rf.setV r l w).X k j = rf.X k j := rfl

/-! ## Predicates (R8, R82, R205) -/

@[simp] theorem Q_seven (l : Nat) : rf.Q 7 l = true := rfl
@[simp] theorem setQ_seven (l : Nat) (b : Bool) : rf.setQ 7 l b = rf := rfl

/-- A predicate other than q7 reads what was written; q7 reads true whatever was written. -/
theorem Q_setQ_self (q l : Nat) (b : Bool) : (rf.setQ q l b).Q q l = (b || q == 7) := by
  by_cases hq : q = 7
  · simp [hq]
  · simp [Q, setQ, hq]

theorem Q_setQ_ne {q l i j : Nat} (b : Bool) (hl : l < 64) (hj : j < 64) (h : i ≠ q ∨ j ≠ l) :
    (rf.setQ q l b).Q i j = rf.Q i j := by
  by_cases hq : q = 7
  · simp [hq]
  · simp [Q, setQ, hq, laneKey_ne hj hl h]

/-! ## Index registers (R215) -/

@[simp] theorem X_setX_self (k l : Nat) (b : Byte) : (rf.setX k l b).X k l = b := by
  simp [X, setX]

theorem X_setX_ne {k l i j : Nat} (b : Byte) (hl : l < 64) (hj : j < 64) (h : i ≠ k ∨ j ≠ l) :
    (rf.setX k l b).X i j = rf.X i j := by
  simp [X, setX, laneKey_ne hj hl h]

end RegFile

/-- Settles O44: each part is the read-after-write rules of one kind of register. -/
theorem registersHoldWhatIsWritten : Obligations.RegistersHoldWhatIsWritten := by
  refine ⟨fun rf r w => ?uniform, fun rf r l w hl => ?vector, fun rf q l b hl => ?predicate, fun rf k l b hl => ?index⟩
  case uniform =>
    exact ⟨rf.S_setS_self r w, fun i h => rf.S_setS_ne w h,
      fun i l => ⟨rf.V_setS r i l w, rf.Q_setS r i l w, rf.X_setS r i l w⟩⟩
  case vector =>
    exact ⟨rf.V_setV_self r l w, rf.vOk_setV_self r l w, fun i j hj h => rf.V_setV_ne w hl hj h,
      fun i j => ⟨rf.S_setV r l i w, rf.Q_setV r l i j w, rf.X_setV r l i j w⟩⟩
  case predicate =>
    exact ⟨rf.Q_setQ_self q l b, fun i j hj h => rf.Q_setQ_ne b hl hj h, rf.Q_seven l, rf.setQ_seven l b⟩
  case index =>
    exact ⟨rf.X_setX_self k l b, fun i j hj h => rf.X_setX_ne b hl hj h⟩

end Sys2Proof.Machine
end

section
/-! SUPPORT. The way of a block of stores: from its group's FIFO over the merge point to where it is performed (R45 to R58,
R228 to R234), in one equation per case of the steps STORE_BLOCK_MERGE and STORE_ACKNOWLEDGE, and the bytes that a store at a bank
leaves alone. -/

namespace Sys2Proof.Machine

/-! ## A bank after a change to a bank, and a home byte (R34, R291) -/

@[simp] theorem State.bank_onBank_self (s : State) (p b : Nat) (f : Bank → Bank) :
    ((s.onBank p b f).cluster p).bank b = f ((s.cluster p).bank b) := by
  simp [State.onBank, Cluster.bank]

theorem State.bank_onBank_ne (s : State) {p b n i : Nat} (f : Bank → Bank) (h : n ≠ p ∨ i ≠ b) :
    ((s.onBank p b f).cluster n).bank i = (s.cluster n).bank i := by
  by_cases hn : n = p
  · subst hn
    simp [State.onBank, Cluster.bank, h.resolve_left (fun hne => hne rfl)]
  · simp [State.onBank, State.cluster_putCluster_ne, hn]

/-- A home byte depends on the homes, on the writes on their way to the drawer, and on the drawer (R291). -/
theorem homeByte_congr {s u : State} (hh : u.homes = s.homes) (hl : u.links = s.links) (hd : u.drawer = s.drawer) (vc pa : Nat) :
    homeByte u vc pa = homeByte s vc pa := by
  have hbelow : belowByte u vc pa = belowByte s vc pa := by simp only [belowByte, pendingByte, hl, hd]
  simp only [homeByte, hh, hbelow]

/-- A step that uses its subject up changes no home byte by that. -/
theorem homeByte_useUp (s : State) (e : Subject) (vc pa : Nat) : homeByte { s with subject := e } vc pa = homeByte s vc pa :=
  homeByte_congr rfl rfl rfl vc pa

/-! ## What a store at a bank leaves alone (R45, R234) -/

/-- Beside the bytes that the cells name in one bank, every byte of the banks, the drawer, the homes and queue memory reads as
before. -/
structure ChangesBankCellsOnly (s u : State) (pool bank : Nat) (cells : List Host.Cell) : Prop where
  offCells : ∀ a, (∀ x ∈ cells, x.1 ≠ a) →
    Memory.read ((u.cluster pool).bank bank).mem a = Memory.read ((s.cluster pool).bank bank).mem a
  otherBanks : ∀ n i a, (n ≠ pool ∨ i ≠ bank) →
    Memory.read ((u.cluster n).bank i).mem a = Memory.read ((s.cluster n).bank i).mem a
  drawer : ∀ pa, u.drawer.byte pa = s.drawer.byte pa
  homes : ∀ vc pa, homeByte u vc pa = homeByte s vc pa
  qmem : ∀ a, Memory.read u.qmem a = Memory.read s.qmem a

namespace ChangesBankCellsOnly

variable {s u v : State} {pool bank : Nat} {cells : List Host.Cell}

theorem trans (h : ChangesBankCellsOnly s u pool bank cells) (k : ChangesBankCellsOnly u v pool bank cells) :
    ChangesBankCellsOnly s v pool bank cells where
  offCells a ha := (k.offCells a ha).trans (h.offCells a ha)
  otherBanks n i a hn := (k.otherBanks n i a hn).trans (h.otherBanks n i a hn)
  drawer pa := (k.drawer pa).trans (h.drawer pa)
  homes vc pa := (k.homes vc pa).trans (h.homes vc pa)
  qmem a := (k.qmem a).trans (h.qmem a)

theorem of_eq (hc : u.clusters = s.clusters) (hd : u.drawer = s.drawer) (hh : u.homes = s.homes) (hl : u.links = s.links)
    (hq : u.qmem = s.qmem) : ChangesBankCellsOnly s u pool bank cells where
  offCells a _ := by simp only [State.cluster, hc]
  otherBanks n i a _ := by simp only [State.cluster, hc]
  drawer pa := by rw [hd]
  homes := homeByte_congr hh hl hd
  qmem a := by rw [hq]

theorem onBank (s : State) (f : Bank → Bank)
    (hf : ∀ a, (∀ x ∈ cells, x.1 ≠ a) →
      Memory.read (f ((s.cluster pool).bank bank)).mem a = Memory.read ((s.cluster pool).bank bank).mem a) :
    ChangesBankCellsOnly s (s.onBank pool bank f) pool bank cells where
  offCells a ha := by rw [State.bank_onBank_self]; exact hf a ha
  otherBanks n i a h := by rw [State.bank_onBank_ne s f h]
  drawer _ := rfl
  homes := homeByte_congr rfl rfl rfl
  qmem _ := rfl

theorem wakeBank (hw : (s.wakeBank pool bank).1 = true) : ChangesBankCellsOnly s (s.wakeBank pool bank).2 pool bank cells := by
  unfold State.wakeBank at hw ⊢
  cases hr : ((s.cluster pool).bank bank).ret <;> simp only [hr] at hw ⊢
  case active => exact onBank s _ (fun _ _ => rfl)
  all_goals exact absurd hw Bool.false_ne_true

/-- Where a write at a bank succeeds, inside a level or not, it changes the bytes that its cells name. -/
theorem bankWrite {team : Nat} (h : bankWrite s team pool bank cells = some u) : ChangesBankCellsOnly s u pool bank cells := by
  have put (y : State) : ChangesBankCellsOnly y (y.onBank pool bank (fun x => x.write y.clock cells)) pool bank cells :=
    onBank y _ (fun a ha => Bank.read_write_frame _ _ cells a ha)
  unfold Machine.bankWrite at h
  split at h
  case h_1 => exact Option.some.inj h ▸ put s
  case h_2 t _ =>
    split at h
    case h_1 => exact Option.some.inj h ▸ put s
    case h_2 slot _ =>
      obtain ⟨t', -, rfl⟩ := Option.map_eq_some_iff.1 h
      exact (of_eq (s := s) (u := s.putTeam team t') rfl rfl rfl rfl rfl).trans (put _)

end ChangesBankCellsOnly

/-- Without an open level nothing is saved, so a write at a bank finds room (R414). -/
theorem bankWrite_isSome_of_no_level {s : State} {t : Team} {team : Nat} (ht : s.teams.find team = some t) (hl : t.levels = [])
    (pool b : Nat) (cells : List Host.Cell) : (bankWrite s team pool b cells).isSome = true := by
  unfold bankWrite
  cases hs : t.slotOf b <;> simp [ht, hs, Team.saveWords, hl]

/-! ## Blocks of scratch and sync space (R64, R269) -/

theorem wakeBank_teams (s : State) (pool b : Nat) : (s.wakeBank pool b).2.teams = s.teams := by
  unfold State.wakeBank
  split <;> rfl

section
variable {s : State} {t : Team} {b : Block} (hw : (s.wakeBank t.pool b.bank).1 = true)
include hw

/-- At an awake bank a block's cells are written, or its save has no room and it faults. -/
theorem bankAck_awake : bankAck s t b =
    (bankWrite (s.wakeBank t.pool b.bank).2 t.id t.pool b.bank (bankCells (s.wakeBank t.pool b.bank).2 t b)).elim
      (lateBlock (s.wakeBank t.pool b.bank).2 b 0x1C 2) (·.dropBlock b.id) := by
  unfold bankAck bankCells
  generalize s.wakeBank t.pool b.bank = r at hw ⊢
  obtain ⟨awake, y⟩ := r
  subst hw
  dsimp only
  cases b.kind <;> dsimp only <;> generalize bankWrite y _ _ _ _ = w <;> cases w <;> rfl

theorem bankAck_of_bankWrite {y : State}
    (hb : bankWrite (s.wakeBank t.pool b.bank).2 t.id t.pool b.bank (bankCells (s.wakeBank t.pool b.bank).2 t b) = some y) :
    bankAck s t b = y.dropBlock b.id := by
  rw [bankAck_awake hw, hb]; rfl

theorem bankAck_of_no_room
    (hb : bankWrite (s.wakeBank t.pool b.bank).2 t.id t.pool b.bank (bankCells (s.wakeBank t.pool b.bank).2 t b) = none) :
    bankAck s t b = lateBlock (s.wakeBank t.pool b.bank).2 b 0x1C 2 := by
  rw [bankAck_awake hw, hb]; rfl

end

/-! ## STORE_ACKNOWLEDGE (R234) -/

/-- The step performs the block that it is about. -/
theorem storeAcknowledge_performs {s : State} {b : Block} (h : ackOf s.subject s = some b) :
    exec .storeAcknowledge s = .next { ackBlock s b s.subject.c with subject := {} } := by
  change execStoreAcknowledge s = _
  unfold ackOf at h
  unfold execStoreAcknowledge onEvent
  dsimp only
  split at h
  case h_2 => exact absurd h (by simp)
  case h_1 x hx =>
    split at h
    case isTrue => exact absurd h (by simp)
    case isFalse hclear =>
      obtain rfl := Option.some.inj h
      rw [hx]
      dsimp only
      rw [if_neg hclear]

/-- A step about a block does what its claim says when the block's way at its destination does. -/
theorem ackStep_holds {p : Block → Team → Group → Subject → State → Bool} {f : Block → Team → Group → Subject → State → State}
    (h : ∀ b t g e s, s.teams.find b.team = some t → s.group? b.team b.group = some g → p b t g e s = true →
      ackBlock s b e.c = f b t g e s) : (ackStep p f).Holds .storeAcknowledge := by
  intro s hdue
  simp only [ackStep, Option.any_eq_true] at hdue
  obtain ⟨b, hb, t, ht, g, hg, hp⟩ := hdue
  rw [storeAcknowledge_performs hb, h b t g s.subject s ht hg hp]
  simp only [ackStep, hb, ht, hg]

section
variable {s : State} {t : Team} {g : Group} {b : Block} (ht : s.teams.find b.team = some t) (hg : s.group? b.team b.group = some g)
include ht hg

theorem ackBlock_bank (hsp : b.space = .scratch ∨ b.space = .sync) (pick : Nat) : ackBlock s b pick = bankAck s t b := by
  rcases hsp with hsp | hsp <;> simp only [ackBlock, ht, hg, hsp]

theorem ackBlock_tile (hsp : b.space = .tile) (hfree : tileWaits s t ((b.cells.headD (0, 0)).1 / 2 ^ 15) b.op = false) (pick : Nat) :
    ackBlock s b pick =
      (s.putTile t ((b.cells.headD (0, 0)).1 / 2 ^ 15) (g.core - t.core)
        ((s.tileOf t ((b.cells.headD (0, 0)).1 / 2 ^ 15) (g.core - t.core)).write (tileWords b))).dropBlock b.id := by
  simp only [ackBlock, ht, hg, hsp, hfree, Bool.false_eq_true, if_false]

theorem ackBlock_atomic (hsp : b.space = .global) {op : Nat} {wide : Bool} (hk : b.kind = .atomic op wide) (pick : Nat) :
    ackBlock s b pick = atomAck s b op wide := by
  simp only [ackBlock, ht, hg, hsp, hk]

theorem ackBlock_device (hsp : b.space = .global) (hk : ∀ op wide, b.kind ≠ .atomic op wide) (hd : b.device = true) (pick : Nat) :
    ackBlock s b pick = (devWrite s b.cells).dropBlock b.id := by
  cases hb : b.kind
  case atomic op wide => exact absurd hb (hk op wide)
  all_goals simp only [ackBlock, ht, hg, hsp, hb, hd, if_true]

theorem ackBlock_homeStore (hs : isHomeStore b s = true) (pick : Nat) : ackBlock s b pick = storeSector s b (sectorOf b pick) := by
  simp only [isHomeStore, Bool.and_eq_true, beq_iff_eq, Bool.not_eq_true', Option.isSome_iff_ne_none, ne_eq] at hs
  obtain ⟨⟨⟨hsp, hd⟩, hv⟩, hk⟩ := hs
  cases hb : b.kind
  case atomic op wide => simp [hb] at hk
  all_goals
    simp only [ackBlock, ht, hg, hsp, hb, hd, Bool.false_eq_true, if_false, Option.isNone_iff_eq_none, hv]
    rfl
end

/-- A home write of a store's sector that is done at once: the block goes when no other sector of it is left, and otherwise keeps the
others. -/
theorem storeSector_of_homeDone {s y : State} {b : Block} {pick : Nat} (h : homeDone s b pick = some y) :
    storeSector s b (sectorOf b pick) = if (offSector b (sectorOf b pick)).isEmpty then y.dropBlock b.id
      else y.allCores (fun c => { c with merge := c.merge.map (fun (x : Block) =>
        if x.id = b.id then { x with cells := offSector b (sectorOf b pick) } else x) }) := by
  unfold homeDone at h
  unfold storeSector
  dsimp only at h ⊢
  generalize s.wakeSlice b.vc (64 * sectorOf b pick) = r at h ⊢
  obtain ⟨awake, x⟩ := r
  cases awake
  case false => exact absurd h (by simp)
  case true =>
    simp only [Bool.not_true, Bool.false_eq_true, if_false, inSector] at h
    dsimp only
    split at h
    case h_1 x' hx => rw [hx]; obtain rfl := Option.some.inj h; rfl
    case h_2 => exact absurd h (by simp)

/-- An atomic that its home performs at once answers its old bytes (R300). -/
theorem ackBlock_of_atomDone {s y : State} {t : Team} {g : Group} {b : Block} {bs : List Byte} (ht : s.teams.find b.team = some t)
    (hg : s.group? b.team b.group = some g) (h : atomDone s b = some (bs, y)) (pick : Nat) :
    ackBlock s b pick = atomBound y b bs := by
  unfold atomDone at h
  split at h
  case h_2 => exact absurd h (by simp)
  case h_1 op wide hk =>
    dsimp only at h
    split at h
    case isTrue => exact absurd h (by simp)
    case isFalse hplace =>
      simp only [not_or, ne_eq, not_not] at hplace
      obtain ⟨hsp, hd, hv, hp⟩ := hplace
      rw [ackBlock_atomic ht hg hsp hk]
      split at h
      case h_2 => exact absurd h (by simp)
      case h_1 old x hx =>
        simp only [Option.some.injEq, Prod.mk.injEq] at h
        obtain ⟨rfl, rfl⟩ := h
        simp only [atomAck, hd, hv, hp, hx, Bool.false_eq_true, if_false]

theorem storeAcknowledge_takes : AllTake .storeAcknowledge storeAcknowledgeClaims := by
  simp only [AllTake, storeAcknowledgeClaims, List.forall_mem_cons, List.not_mem_nil, false_imp_iff, implies_true, and_true]
  refine ⟨ackStep_holds ?bank, ackStep_holds ?tile, ackStep_holds ?lastSector, ackStep_holds ?sector, ackStep_holds ?atomic,
    ackStep_holds ?device⟩
  case bank =>
    intro b t g e s ht hg hp
    simp only [Bool.and_eq_true, Bool.or_eq_true, beq_iff_eq] at hp
    obtain ⟨⟨hsp, hw⟩, hb⟩ := hp
    obtain ⟨y, hy⟩ := Option.isSome_iff_exists.1 hb
    rw [ackBlock_bank ht hg hsp, bankAck_of_bankWrite hw hy, hy]
    rfl
  case tile =>
    intro b t g e s ht hg hp
    simp only [Bool.and_eq_true, beq_iff_eq, Bool.not_eq_true'] at hp
    exact ackBlock_tile ht hg hp.1 hp.2 e.c
  case lastSector =>
    intro b t g e s ht hg hp
    simp only [Bool.and_eq_true] at hp
    obtain ⟨⟨hs, hdone⟩, hrest⟩ := hp
    obtain ⟨y, hy⟩ := Option.isSome_iff_exists.1 hdone
    rw [ackBlock_homeStore ht hg hs, storeSector_of_homeDone hy, if_pos hrest, hy]
    rfl
  case sector =>
    intro b t g e s ht hg hp
    simp only [Bool.and_eq_true, Bool.not_eq_true', ← Bool.not_eq_true] at hp
    obtain ⟨⟨hs, hdone⟩, hrest⟩ := hp
    obtain ⟨y, hy⟩ := Option.isSome_iff_exists.1 hdone
    rw [ackBlock_homeStore ht hg hs, storeSector_of_homeDone hy, if_neg hrest, hy]
    rfl
  case atomic =>
    intro b t g e s ht hg hp
    obtain ⟨⟨bs, y⟩, hy⟩ := Option.isSome_iff_exists.1 hp
    rw [ackBlock_of_atomDone ht hg hy, hy]
  case device =>
    intro b t g e s ht hg hp
    simp only [Bool.and_eq_true, beq_iff_eq] at hp
    obtain ⟨⟨hsp, hd⟩, hk⟩ := hp
    exact ackBlock_device ht hg hsp (fun op wide h => by simp [h] at hk) hd e.c

/-! ## STORE_BLOCK_MERGE (R45, R49, R50, R56, R234) -/

/-- A step about a group does what its claim says when it does so wherever that group is there. -/
theorem groupStep_holds {i : Instr} {p : Team → Group → Subject → State → Bool} {f : Team → Group → Subject → State → State}
    (h : ∀ s t g, s.teams.find s.subject.a = some t → s.group? s.subject.a s.subject.b = some g → p t g s.subject s = true →
      exec i s = .next { f t g s.subject s with subject := {} }) : (groupStep p f).Holds i := by
  intro s hdue
  simp only [groupStep, Option.any_eq_true] at hdue
  obtain ⟨t, ht, g, hg, hp⟩ := hdue
  rw [h s t g ht hg hp]
  simp only [groupStep, ht, hg]

/-- What a core's merge point or L1 takes in: a store or atomic at the end of the merge point, a commutative contribution beside what L1
combines (R56, R234). -/
def Core.takesIn (c : Core) (b : Block) : Core :=
  if b.mods.use == 2 then { c with comm := c.comm ++ [b] } else { c with merge := c.merge ++ [b] }

/-- The state in which a block has left its group's FIFO and come to the merge point. -/
def mergedState (s : State) (t : Team) (g : Group) (b : Block) (rest : List Block) : State :=
  let x := mergeL1 (s.onGroup t.id g.id (fun g => { g with fifo := rest })) g.core b
  x.putCore (x.mergeKey g.core) ((x.core (x.mergeKey g.core)).takesIn b)

section
variable {s : State} {t : Team} {g : Group} (ht : s.teams.find s.subject.a = some t) (hg : s.group? s.subject.a s.subject.b = some g)
include ht hg

theorem storeBlockMerge_of_empty (hf : g.fifo = []) : exec .storeBlockMerge s = .next { s with subject := {} } := by
  change execStoreBlockMerge s = _
  simp only [execStoreBlockMerge, onEvent, ht, hg, hf]

/-- The oldest block stays where order holds it back, or where the merge point has no room. -/
theorem storeBlockMerge_of_held {b : Block} {rest : List Block} (hf : g.fifo = b :: rest)
    (hr : (mergeReady s t g b && (b.mods.use == 2 || mergeRoom s g.core b)) = false) :
    exec .storeBlockMerge s = .next { s with subject := {} } := by
  change execStoreBlockMerge s = _
  have hstop : (!mergeReady s t g b || (!(b.mods.use == 2) && !mergeRoom s g.core b)) = true := by
    rw [← Bool.not_or, ← Bool.not_and, hr]; rfl
  simp only [execStoreBlockMerge, onEvent, ht, hg, hf]
  rw [if_pos hstop]

/-- The oldest block passes on where order lets it and there is room; only one of drawer-direct space also sets out for the drawer. -/
theorem storeBlockMerge_of_ready {b : Block} {rest : List Block} (hf : g.fifo = b :: rest)
    (hr : (mergeReady s t g b && (b.mods.use == 2 || mergeRoom s g.core b)) = true) (hd : b.space ≠ .drawer) :
    exec .storeBlockMerge s = .next { mergedState s t g b rest with subject := {} } := by
  change execStoreBlockMerge s = _
  have hgo : ¬ (!mergeReady s t g b || (!(b.mods.use == 2) && !mergeRoom s g.core b)) = true := by
    rw [← Bool.not_or, ← Bool.not_and, hr]; exact Bool.false_ne_true
  simp only [execStoreBlockMerge, onEvent, ht, hg, hf]
  rw [if_neg hgo, if_neg hd]
  rfl

/-- What the claims about a passing block ask of the head of the FIFO, with a condition of their own. -/
theorem storeBlockMerge_of_head (q : Block → Bool) (h : (g.fifo.head?.any (fun b =>
      (mergeReady s t g b && (b.mods.use == 2 || mergeRoom s g.core b)) && q b && b.space != .drawer)) = true) :
    ∃ b rest, g.fifo = b :: rest ∧ q b = true ∧
      exec .storeBlockMerge s = .next { mergedState s t g b rest with subject := {} } := by
  obtain ⟨b, hb, hp⟩ := (Option.any_eq_true _ _).1 h
  obtain ⟨rest, hf⟩ := List.head?_eq_some_iff.1 hb
  rw [Bool.and_eq_true, Bool.and_eq_true, bne_iff_ne] at hp
  obtain ⟨⟨hr, hq⟩, hd⟩ := hp
  exact ⟨b, rest, hf, hq, storeBlockMerge_of_ready ht hg hf hr hd⟩

end

theorem storeBlockMerge_takes : AllTake .storeBlockMerge storeBlockMergeClaims := by
  simp only [AllTake, storeBlockMergeClaims, List.forall_mem_cons, List.not_mem_nil, false_imp_iff, implies_true, and_true]
  refine ⟨groupStep_holds ?store, groupStep_holds ?contribution, groupStep_holds ?held⟩
  case store =>
    intro s t g ht hg hp
    obtain ⟨b, rest, hf, hu, hpass⟩ := storeBlockMerge_of_head ht hg (fun b => b.mods.use != 2) hp
    rw [hpass]
    simp [hf, mergedState, Core.takesIn, bne_iff_ne.1 hu]
  case contribution =>
    intro s t g ht hg hp
    obtain ⟨b, rest, hf, hu, hpass⟩ := storeBlockMerge_of_head ht hg (fun b => b.mods.use == 2) hp
    rw [hpass]
    simp [hf, mergedState, Core.takesIn, eq_of_beq hu]
  case held =>
    intro s t g ht hg hp
    cases hf : g.fifo with
    | nil => exact storeBlockMerge_of_empty ht hg hf
    | cons b rest =>
      simp only [hf, List.head?_cons, Option.all_some, Bool.not_eq_true'] at hp
      exact storeBlockMerge_of_held ht hg hf hp

/-- Settles O24: a group's oldest block passes to its merge point or stays, a block at a merge point is performed at its place, and a
flush performs every contribution that the core's L1 has combined. -/
theorem blocksMergeAndArePerformed : Obligations.BlocksMergeAndArePerformed := by
  refine ⟨storeBlockMerge_takes, storeAcknowledge_takes, ?flush⟩
  case flush =>
    simp only [AllTake, commutativeFlushClaims, List.forall_mem_cons, List.not_mem_nil, false_imp_iff, implies_true, and_true]
    exact Event.holds_of _ (fun _ => rfl) (fun _ _ _ => rfl)

/-! ## A performed store at a bank (R45, R234) -/

/-- A store at an awake bank changes the bytes of its cells only, where the block's team has no level and is filed under its own
number (R45, R234). -/
theorem bankStore_changesBankCellsOnly {s : State} {b : Block} {t : Team} {g : Group} (hb : ackOf s.subject s = some b)
    (ht : s.teams.find b.team = some t) (hg : s.group? b.team b.group = some g) (hsp : b.space = .scratch ∨ b.space = .sync)
    (hw : (s.wakeBank t.pool b.bank).1 = true) (hl : t.levels = []) (hid : t.id = b.team) :
    ∃ u, exec .storeAcknowledge s = .next u ∧
      ChangesBankCellsOnly s u t.pool b.bank (bankCells (s.wakeBank t.pool b.bank).2 t b) := by
  have hfind : (s.wakeBank t.pool b.bank).2.teams.find t.id = some t := by rw [wakeBank_teams, hid, ht]
  obtain ⟨y, hy⟩ := Option.isSome_iff_exists.1
    (bankWrite_isSome_of_no_level hfind hl t.pool b.bank (bankCells (s.wakeBank t.pool b.bank).2 t b))
  have hperf := storeAcknowledge_performs hb
  rw [ackBlock_bank ht hg hsp, bankAck_of_bankWrite hw hy] at hperf
  exact ⟨_, hperf, ((ChangesBankCellsOnly.wakeBank hw).trans (.bankWrite hy)).trans (.of_eq rfl rfl rfl rfl rfl)⟩

/-- A team numbered 2 with a slot at bank 0. -/
def misfiledTeam : Team := { probeTeam (probeGroup [] 0 false) with id := 2, slots := [.attached 0] }

/-- A store of one byte to scratch space by the team filed under 1. -/
def misfiledStore : Block :=
  { id := 0, op := 0, team := 1, group := 0, kind := .store, space := .scratch, lane := 0, ctx := 0, vc := 0, lclass := 0,
    device := false, bank := 0, cells := [(0, 0)], cmp := 0, mods := ⟨0, 0, .scratch, 0, 0, 0⟩, level := 0, iaddr := 0,
    gang := 0, lanes := 1, va := 0, psize := 0, born := 0 }

/-- The team is filed under 1 without a level, and under its own number 2 with a level whose region has no room. -/
def misfiledState : State :=
  { State.reset with
    teams := [(1, misfiledTeam), (2, { misfiledTeam with levels := [newLevel 0 0 0 0 0] })]
    cores := [(0, { Core.reset with merge := [misfiledStore] })]
    vcs := [(0, probeVc)]
    ctxs := [(0, { Ctx.reset with v := true })] }

/-- The save that the write asks for is looked for under the team's own number, where the level has no room for it. -/
theorem misfiled_no_room : bankAck misfiledState misfiledTeam misfiledStore =
    lateBlock (misfiledState.wakeBank misfiledTeam.pool 0).2 misfiledStore 0x1C 2 :=
  bankAck_of_no_room (b := misfiledStore) (by decide) (by decide)

/-- The fault ends the team filed under 1, and its record, with code 0x1C, goes to entry 1 of the context's fault queue (R187). -/
theorem misfiled_posts_record :
    homeByte misfiledState 0 64 = 0 ∧
    homeByte (lateBlock (misfiledState.wakeBank misfiledTeam.pool 0).2 misfiledStore 0x1C 2) 0 64 = 0x1C := by decide

/-- Refutes O47: the statement leaves open that a team is filed under a number that is not its own. Then the block's team has no level,
the team of that number has one without room for the save, and in place of the write a record is posted, which changes a home byte.
bankStore_changesBankCellsOnly proves the frame for teams filed under their own number. -/
theorem not_bankStoresChangeTheirBytesOnly : ¬ Obligations.BankStoresChangeTheirBytesOnly := by
  intro h
  obtain ⟨u, hu, -, -, -, hhome, -⟩ :=
    h misfiledState _ misfiledStore misfiledTeam (probeGroup [] 0 false) rfl rfl rfl rfl (.inl rfl) rfl rfl
  rw [storeAcknowledge_performs (b := misfiledStore) rfl, ackBlock_bank (t := misfiledTeam) (g := probeGroup [] 0 false) rfl rfl (.inl rfl),
    misfiled_no_room] at hu
  obtain rfl := Host.Outcome.next.inj hu
  obtain ⟨hbefore, hafter⟩ := misfiled_posts_record
  have hposted := hhome 0 64
  rw [hbefore, homeByte_useUp, hafter] at hposted
  exact absurd hposted (by decide)

end Sys2Proof.Machine
end

section
/-! SUPPORT. Words put together by asm from fields that lie apart: each field is read back from the word, and a word whose fields,
zero fields and selectors hold what a format says is put together again from them (R75, R78, R105). -/

namespace Sys2Proof

/-! ## Fields of a word -/

/-- Adding a multiple of a power above a field leaves the field alone. -/
theorem bitsAt_add_high {w v k lo m : Nat} (h : lo + m ≤ k) : bitsAt (w + v * 2 ^ k) lo m = bitsAt w lo m := by
  obtain ⟨j, rfl⟩ := Nat.exists_eq_add_of_le h
  rw [bitsAt, bitsAt, show v * 2 ^ (lo + m + j) = 2 ^ lo * (2 ^ m * (v * 2 ^ j)) by rw [pow_add, pow_add]; ring,
    Nat.add_mul_div_left _ _ (by positivity), Nat.add_mul_mod_self_left]

/-- A value put into a field of zeros is read from it. -/
theorem bitsAt_add_self {w k n : Nat} (x : BitVec n) (hw : bitsAt w k n = 0) : bitsAt (w + x.toNat * 2 ^ k) k n = x.toNat := by
  unfold bitsAt at *
  rw [Nat.add_mul_div_right _ _ (by positivity), Nat.add_mod, hw, Nat.zero_add, Nat.mod_mod, Nat.mod_eq_of_lt x.isLt]

/-- A value put into a field of zeros does not carry out of it. -/
theorem bitsAt_add_low {w k n lo m : Nat} (x : BitVec n) (hw : bitsAt w k n = 0) (h : k + n ≤ lo) :
    bitsAt (w + x.toNat * 2 ^ k) lo m = bitsAt w lo m := by
  obtain ⟨j, rfl⟩ := Nat.exists_eq_add_of_le h
  have hq : w / 2 ^ k = 2 ^ n * (w / 2 ^ k / 2 ^ n) := (Nat.mul_div_cancel' (Nat.dvd_of_mod_eq_zero hw)).symm
  have hcarry : (w + x.toNat * 2 ^ k) / 2 ^ k / 2 ^ n = w / 2 ^ k / 2 ^ n := by
    rw [Nat.add_mul_div_right _ _ (by positivity), hq, Nat.mul_add_div (by positivity), Nat.div_eq_of_lt x.isLt, Nat.add_zero,
      Nat.mul_div_cancel_left _ (by positivity)]
  simp only [bitsAt, pow_add, ← Nat.div_div_eq_div_mul, hcarry]

/-- The decoder's field holds the number that the bits hold. -/
theorem fld_eq_bitsAt (w lo n : Nat) : fld w lo n = BitVec.ofNat n (bitsAt w lo n) := by
  apply BitVec.eq_of_toNat_eq
  simp [fld, bitsAt]

theorem bitsAt_lt (w lo n : Nat) : bitsAt w lo n < 2 ^ n := Nat.mod_lt _ (by positivity)

theorem bitsAt_two_eq_three {w lo : Nat} (h0 : bitsAt w lo 2 ≠ 0) (h1 : bitsAt w lo 2 ≠ 1) (h2 : bitsAt w lo 2 ≠ 2) : bitsAt w lo 2 = 3 := by
  have hlt := bitsAt_lt w lo 2
  omega

theorem bitsAt_one_eq_one {w lo : Nat} (h : bitsAt w lo 1 ≠ 0) : bitsAt w lo 1 = 1 := by
  have hlt := bitsAt_lt w lo 1
  omega

/-- Words that agree in a field agree in its bits. -/
theorem testBit_of_bitsAt_eq {w v lo n j : Nat} (h : bitsAt w lo n = bitsAt v lo n) (hlo : lo ≤ j) (hn : j < lo + n) :
    w.testBit j = v.testBit j := by
  obtain ⟨k, rfl⟩ := Nat.exists_eq_add_of_le hlo
  have hk := congrArg (·.testBit k) h
  simpa only [bitsAt, Nat.testBit_mod_two_pow, Nat.testBit_div_two_pow, show k < n by omega, decide_true, Bool.true_and,
    Nat.add_comm k] using hk

/-! ## Words put together by asm (R78) -/

/-- The layout of a word's operands, from bit hi downwards: each value fits its field (low bit, width), the fields lie below one another,
and the fixed bits are zero there. -/
inductive Laid (fixed : Nat) : Nat → List (Nat × Nat) → List (Nat × Nat) → Prop
  | nil {hi : Nat} : Laid fixed hi [] []
  | cons {hi k n : Nat} {fs ls : List (Nat × Nat)} {x : BitVec n} (hk : Nat.ble (k + n) hi = true) (hz : bitsAt fixed k n = 0)
      (h : Laid fixed k fs ls) : Laid fixed hi ((x.toNat, k) :: fs) ((k, n) :: ls)

/-- The bits lo to lo+m-1 touch no field of the layout. -/
def apart (lo m : Nat) (ls : List (Nat × Nat)) : Bool := ls.all (fun p => Nat.ble (p.1 + p.2) lo || Nat.ble (lo + m) p.1)

namespace Laid

variable {w v hi k lo m : Nat} {fs ls : List (Nat × Nat)}

theorem add_high (h : Laid w hi fs ls) (hk : hi ≤ k) : Laid (w + v * 2 ^ k) hi fs ls := by
  induction h with
  | nil => exact .nil
  | cons hx hz _ ih =>
    have hle := Nat.le_of_ble_eq_true hx
    exact .cons hx (by rw [bitsAt_add_high (hle.trans hk), hz]) (ih (by omega))

theorem le_of_mem (h : Laid w hi fs ls) : ∀ p ∈ ls, p.1 + p.2 ≤ hi := by
  induction h with
  | nil => simp
  | cons hx _ _ ih =>
    have hle := Nat.le_of_ble_eq_true hx
    exact List.forall_mem_cons.2 ⟨hle, fun p hp => (ih p hp).trans (by omega)⟩

theorem apart_above (h : Laid w hi fs ls) : apart hi m ls = true :=
  List.all_eq_true.2 fun p hp => by simp [h.le_of_mem p hp]

/-- Bits outside every field are those of the fixed part. -/
theorem bitsAt_apart (h : Laid w hi fs ls) (ha : apart lo m ls = true) : bitsAt (asm w fs) lo m = bitsAt w lo m := by
  induction fs generalizing w hi ls with
  | nil => rfl
  | cons f fs ih =>
    cases h with
    | @cons _ k n _ ls x hk hz h =>
      simp only [apart, List.all_cons, Bool.and_eq_true, Bool.or_eq_true, Nat.ble_eq] at ha
      change bitsAt (asm (w + x.toNat * 2 ^ k) fs) lo m = _
      rw [ih (h.add_high le_rfl) ha.2]
      exact ha.1.elim (bitsAt_add_low x hz) bitsAt_add_high

/-- Each field reads as the value put into it. -/
theorem bitsAt_field (h : Laid w hi fs ls) : List.Forall₂ (fun f p => bitsAt (asm w fs) p.1 p.2 = f.1) fs ls := by
  induction fs generalizing w hi ls with
  | nil => cases h; exact .nil
  | cons f fs ih =>
    cases h with
    | @cons _ k n _ ls x hk hz h =>
      have h' := h.add_high (v := x.toNat) le_rfl
      refine .cons ?_ (ih h')
      change bitsAt (asm (w + x.toNat * 2 ^ k) fs) k n = _
      rw [h'.bitsAt_apart h'.apart_above, bitsAt_add_self x hz]

/-- Above the layout the bits are those of the fixed part. -/
theorem testBit_of_le {j : Nat} (hl : Laid w hi fs ls) (hj : hi ≤ j) :
    (asm w fs).testBit j = w.testBit j := by
  have hap : apart j 1 ls = true := List.all_eq_true.2 fun p hp => by
    have hle := hl.le_of_mem p hp
    simp only [Bool.or_eq_true, Nat.ble_eq]
    omega
  exact testBit_of_bitsAt_eq (hl.bitsAt_apart hap) le_rfl (by omega)

/-- Fields laid out below bit 32 keep the word below 2^32. -/
theorem asm_lt (hl : Laid w 32 fs ls) (hw : w < 2 ^ 32) : asm w fs < 2 ^ 32 :=
  Nat.lt_pow_two_of_testBit _ fun _ hj => by
    rw [hl.testBit_of_le hj, Nat.testBit_lt_two_pow (hw.trans_le (Nat.pow_le_pow_right (by omega) hj))]

end Laid

/-! ## Words of instructions decode to them (R75, R78, R105) -/

/-- A word put together from laid out fields decodes as any word does whose fields hold the values and whose other bits are the fixed
ones. -/
theorem decodeRaw_asm {fixed : Nat} {fs ls : List (Nat × Nat)} {i : Instr} (hl : Laid fixed 32 fs ls)
    (h : ∀ w, (∀ lo m, apart lo m ls = true → bitsAt w lo m = fixed / 2 ^ lo % 2 ^ m) →
      List.Forall₂ (fun f p => bitsAt w p.1 p.2 = f.1) fs ls → decodeRaw w = .ok i) : decodeRaw (asm fixed fs) = .ok i :=
  h _ (fun _ _ ha => hl.bitsAt_apart ha) hl.bitsAt_field

/-- An instruction is taken where its zero fields are fixed bits that are zero. -/
theorem zeroIn_eq_ok {w fixed : Nat} {ls zs : List (Nat × Nat)} {i j : Instr}
    (hfix : ∀ lo m, apart lo m ls = true → bitsAt w lo m = fixed / 2 ^ lo % 2 ^ m)
    (hz : zs.all (fun z => apart z.1 z.2 ls && fixed / 2 ^ z.1 % 2 ^ z.2 == 0) = true) (hi : i = j) : zeroIn w zs i = .ok j := by
  have hall : zs.all (fun z => bitsAt w z.1 z.2 == 0) = true := by
    simp only [List.all_eq_true, Bool.and_eq_true] at hz ⊢
    intro z hm
    rw [hfix _ _ (hz z hm).1, (hz z hm).2]
  rw [zeroIn, if_pos hall, hi]

/-- Every instruction word is what the formats make of its word. The major selects a format (R105), and in most majors a further field
selects the instruction. -/
theorem decodeRaw_encodeWord {i : Instr} (h : i.isWord = true) : decodeRaw (encodeWord i) = .ok i := by
  cases i
  -- the steps without a word
  all_goals try exact absurd h Bool.false_ne_true
  case brk => rfl
  all_goals
    apply decodeRaw_asm
    case hl => repeat' constructor
  all_goals
    intro w hfix hfield
    simp only [List.forall₂_cons, List.forall₂_nil_left_iff, and_true] at hfield
    rw [decodeRaw, hfix 26 6 rfl]
  case clause | endrun | himm | hopnd | mpfx | brs | dbr | call | loop | vsel | ld | st | lds | sts | atom | atomn =>
    refine zeroIn_eq_ok hfix rfl ?_
    simp only [fld_eq_bitsAt, hfield, BitVec.ofNat_toNat, BitVec.setWidth_eq]
  all_goals
    conv_lhs => whnf
    rw [hfix _ _ ?apart]
    case apart => rfl
  case preemptSuspend | preemptResume | preemptEvict | preemptTerminate | preemptSysresume | preemptCldrain | preemptClopen | preemptCloff =>
    conv_lhs => whnf
    rw [hfix 0 4 rfl]
    conv_lhs => whnf
    simp only [fld_eq_bitsAt, hfield, BitVec.ofNat_toNat, BitVec.setWidth_eq]
  case' vcresize | vcresizeMove =>
    conv_lhs => whnf
    rw [hfix 0 1 rfl]
  all_goals
    refine zeroIn_eq_ok hfix rfl ?_
    simp only [fld_eq_bitsAt, hfield, BitVec.ofNat_toNat, BitVec.setWidth_eq]

/-! ## Words are what they decode to -/

/-- The fields that select a format (low bit, width, value) hold their values. -/
def Selected (w : Nat) (ss : List (Nat × Nat × Nat)) : Prop := ∀ s ∈ ss, bitsAt w s.1 s.2.1 = s.2.2

theorem selected_one {w lo n v : Nat} (h : bitsAt w lo n = v) : Selected w [(lo, n, v)] := List.forall_mem_singleton.2 h

theorem Selected.and {w lo n v : Nat} {ss : List (Nat × Nat × Nat)} (hs : Selected w ss) (h : bitsAt w lo n = v) : Selected w ((lo, n, v) :: ss) :=
  List.forall_mem_cons.2 ⟨h, hs⟩

/-- The zero fields (low bit, width) hold zero (R78). -/
def Zeros (w : Nat) (zs : List (Nat × Nat)) : Prop := ∀ z ∈ zs, bitsAt w z.1 z.2 = 0

theorem zeros_nil {w : Nat} : Zeros w [] := List.forall_mem_nil _

/-- Two words whose fields hold the same values agree in the fields. -/
theorem bitsAt_eq_of_reads {v w : Nat} {fs ls : List (Nat × Nat)} (hv : List.Forall₂ (fun f p => bitsAt v p.1 p.2 = f.1) fs ls)
    (hw : List.Forall₂ (fun f p => f.1 = bitsAt w p.1 p.2) fs ls) : ∀ p ∈ ls, bitsAt v p.1 p.2 = bitsAt w p.1 p.2 := by
  induction hv with
  | nil => simp
  | cons ha _ ih =>
    cases hw with
    | cons hb hw => exact List.forall_mem_cons.2 ⟨ha.trans hb, ih hw⟩

/-- The fields of a layout, the zero fields and the selectors leave no bit of a word open, and the fixed bits are as the zero fields and the
selectors say. -/
def settled (fixed : Nat) (ls zs : List (Nat × Nat)) (ss : List (Nat × Nat × Nat)) : Bool :=
  Nat.blt fixed (2 ^ 32) && zs.all (fun z => apart z.1 z.2 ls && bitsAt fixed z.1 z.2 == 0) &&
  ss.all (fun s => apart s.1 s.2.1 ls && bitsAt fixed s.1 s.2.1 == s.2.2) &&
  (List.range 32).all (fun j => (ls ++ zs ++ ss.map (fun s => (s.1, s.2.1))).any (fun p => Nat.ble p.1 j && Nat.blt j (p.1 + p.2)))

/-- A word is put together again from what its fields hold when its other bits are the fixed ones. -/
theorem Laid.asm_eq {w fixed : Nat} {fs ls zs : List (Nat × Nat)} {ss : List (Nat × Nat × Nat)} (hl : Laid fixed 32 fs ls)
    (hr : List.Forall₂ (fun f p => f.1 = bitsAt w p.1 p.2) fs ls) (hw : w < 2 ^ 32) (hz : Zeros w zs) (hs : Selected w ss)
    (hok : settled fixed ls zs ss = true) : asm fixed fs = w := by
  simp only [settled, Bool.and_eq_true, List.all_eq_true, beq_iff_eq, Nat.blt_eq, List.any_eq_true, Nat.ble_eq] at hok
  obtain ⟨⟨⟨hF, hzs⟩, hss⟩, hcover⟩ := hok
  have hfields := bitsAt_eq_of_reads hl.bitsAt_field hr
  have hall : ∀ p ∈ ls ++ zs ++ ss.map (fun s => (s.1, s.2.1)), bitsAt (asm fixed fs) p.1 p.2 = bitsAt w p.1 p.2 := by
    simp only [List.forall_mem_append, List.forall_mem_map]
    refine ⟨⟨hfields, fun z hm => ?_⟩, fun s hm => ?_⟩
    · rw [hl.bitsAt_apart (hzs z hm).1, (hzs z hm).2, hz z hm]
    · rw [hl.bitsAt_apart (hss s hm).1, (hss s hm).2, hs s hm]
  refine Nat.eq_of_testBit_eq fun j => ?_
  by_cases hj : j < 32
  · obtain ⟨p, hp, hlo, hn⟩ := hcover j (List.mem_range.2 hj)
    exact testBit_of_bitsAt_eq (hall p hp) hlo hn
  · have hpow : 2 ^ 32 ≤ 2 ^ j := Nat.pow_le_pow_right (by omega) (by omega)
    rw [hl.testBit_of_le (by omega), Nat.testBit_lt_two_pow (hF.trans_le hpow), Nat.testBit_lt_two_pow (hw.trans_le hpow)]

theorem zeroIn_eq_ok_iff {w : Nat} {zs : List (Nat × Nat)} {i j : Instr} : zeroIn w zs i = .ok j ↔ Zeros w zs ∧ i = j := by
  unfold zeroIn Zeros
  split <;> simp_all

/-- Major 0x32 (R105), where bit 0 tells the two words of VCRESIZE apart. -/
theorem encodeWord_of_decodeMajor32 {w : Nat} {i : Instr} (hw : w < 2 ^ 32) (hm : bitsAt w 26 6 = 50) (h : decodeMajor32 w = .ok i) :
    encodeWord i = w := by
  unfold decodeMajor32 at h
  split at h
  case h_11 hf =>
    split at h
    case' isTrue hb => have hs := ((selected_one hm).and hf).and hb
    case' isFalse hb => have hs := ((selected_one hm).and hf).and (bitsAt_one_eq_one hb)
    all_goals
      obtain ⟨hz, rfl⟩ := zeroIn_eq_ok_iff.1 h
      exact Laid.asm_eq (by repeat' constructor) (by repeat' constructor) hw hz hs (by rfl)
  any_goals contradiction
  all_goals
    rename_i hf
    obtain ⟨hz, rfl⟩ := zeroIn_eq_ok_iff.1 h
    exact Laid.asm_eq (by repeat' constructor) (by repeat' constructor) hw hz ((selected_one hm).and hf) (by rfl)

/-- Major 0x38 (R105), where bits 0 to 3 tell the words of PREEMPT apart. -/
theorem encodeWord_of_decodeMajor38 {w : Nat} {i : Instr} (hw : w < 2 ^ 32) (hm : bitsAt w 26 6 = 56) (h : decodeMajor38 w = .ok i) :
    encodeWord i = w := by
  unfold decodeMajor38 at h
  split at h
  case h_8 hf =>
    split at h
    any_goals contradiction
    all_goals
      rename_i hb
      cases h
      exact Laid.asm_eq (by repeat' constructor) (by repeat' constructor) hw zeros_nil (((selected_one hm).and hf).and hb) (by rfl)
  any_goals contradiction
  all_goals
    rename_i hf
    obtain ⟨hz, rfl⟩ := zeroIn_eq_ok_iff.1 h
    exact Laid.asm_eq (by repeat' constructor) (by repeat' constructor) hw hz ((selected_one hm).and hf) (by rfl)

/-- Major 0x3F holds BRK alone (R106). -/
theorem encodeWord_of_decodeMajor3F {w : Nat} {i : Instr} (h : decodeMajor3F w = .ok i) : encodeWord i = w := by
  unfold decodeMajor3F at h
  split at h
  next hw => cases h; exact hw.symm
  next => contradiction

/-- A word that is read as an instruction is the word of it: the major and the further selectors are the fixed bits, the fields that the
format reads hold its operands, and all other bits are zero (R78). -/
theorem encodeWord_of_decodeRaw {w : Nat} {i : Instr} (hw : w < 2 ^ 32) (h : decodeRaw w = .ok i) : encodeWord i = w := by
  unfold decodeRaw at h
  split at h
  case h_49 => contradiction
  case h_48 => exact encodeWord_of_decodeMajor3F h
  case h_41 hm => exact encodeWord_of_decodeMajor32 hw hm h
  case h_44 hm => exact encodeWord_of_decodeMajor38 hw hm h
  -- majors of one word
  case' h_1 hm | h_2 hm | h_3 hm | h_4 hm | h_5 hm | h_15 hm | h_16 hm | h_17 hm | h_18 hm | h_23 hm | h_34 hm | h_35 hm | h_36 hm | h_37 hm |
      h_39 hm | h_40 hm =>
    have hs := selected_one hm
  -- majors 0x1F and 0x24, where one bit tells two words apart
  case' h_27 hm | h_32 hm =>
    dsimp only [decodeMajor1F, decodeMajor24] at h
    split at h
    case' isTrue hf => have hs := (selected_one hm).and hf
    case' isFalse hf => have hs := (selected_one hm).and (bitsAt_one_eq_one hf)
  -- majors of four words
  case' h_7 hm | h_8 hm | h_9 hm | h_10 hm | h_11 hm | h_12 hm | h_13 hm | h_20 hm | h_21 hm | h_22 hm | h_24 hm | h_25 hm | h_29 hm =>
    dsimp only [decodeMajor08, decodeMajor09, decodeMajor0A, decodeMajor0B, decodeMajor0C, decodeMajor0D, decodeMajor0E, decodeMajor18,
      decodeMajor19, decodeMajor1A, decodeMajor1C, decodeMajor1D, decodeMajor21] at h
    split at h
    case' h_1 hf | h_2 hf | h_3 hf => have hs := (selected_one hm).and hf
    case' h_4 h0 h1 h2 => have hs := (selected_one hm).and (bitsAt_two_eq_three h0 h1 h2)
  -- majors with functions or minors that stay reserved
  case' h_6 hm | h_14 hm | h_19 hm | h_26 hm | h_28 hm | h_30 hm | h_31 hm | h_33 hm | h_38 hm | h_42 hm | h_43 hm | h_45 hm | h_46 hm | h_47 hm =>
    dsimp only [decodeMajor06, decodeMajor0F, decodeMajor14, decodeMajor1E, decodeMajor20, decodeMajor22, decodeMajor23, decodeMajor25,
      decodeMajor2C, decodeMajor34, decodeMajor36, decodeMajor39, decodeMajor3A, decodeMajor3B] at h
    split at h
    any_goals contradiction
    all_goals
      rename_i hf
      have hs := (selected_one hm).and hf
  all_goals
    obtain ⟨hz, rfl⟩ := zeroIn_eq_ok_iff.1 h
    exact Laid.asm_eq (by repeat' constructor) (by repeat' constructor) hw hz hs (by rfl)

/-! ## Words and bytes -/

/-- Words have 32 bits (R75). -/
theorem encodeWord_lt {i : Instr} (h : i.isWord = true) : encodeWord i < 2 ^ 32 := by
  cases i
  -- the steps without a word
  all_goals try exact absurd h Bool.false_ne_true
  case brk => decide
  all_goals exact Laid.asm_lt (by repeat' constructor) (by decide)

/-- A word decodes where its formats read it as a well-formed instruction. -/
theorem decodeWord_eq_ok_iff {w : Nat} {i : Instr} : decodeWord w = .ok i ↔ decodeRaw w = .ok i ∧ WellFormed i := by
  unfold decodeWord
  cases hraw : decodeRaw w with
  | error e => simp
  | ok j =>
    by_cases hwf : j.wellFormed = true
    · simp only [hwf, if_true, Except.ok.injEq]
      exact ⟨fun h => ⟨h, h ▸ hwf⟩, And.left⟩
    · simp only [hwf, if_false, Except.ok.injEq, reduceCtorEq, false_iff]
      rintro ⟨rfl, h⟩
      exact hwf h

/-- A well-formed word instruction is what its word decodes to. -/
theorem decodeWord_encodeWord {i : Instr} (hword : i.isWord = true) (hwf : WellFormed i) : decodeWord (encodeWord i) = .ok i :=
  decodeWord_eq_ok_iff.2 ⟨decodeRaw_encodeWord hword, hwf⟩

/-- The four bytes of a number below 2^32 are read back as the number (R4). -/
theorem leNat_leBytes_four {v : Nat} (h : v < 2 ^ 32) : leNat (leBytes 4 v) = v := by
  simp only [leBytes, leNat, BitVec.toNat_ofNat]
  omega

/-- A well-formed word instruction is what its bytes decode to, and the rest of the bytes stays. -/
theorem decode_encode_append {i : Instr} (hword : i.isWord = true) (hwf : WellFormed i) (rest : List (BitVec 8)) :
    decode (encode i ++ rest) = .ok (i, rest) := by
  have hb : decodeWord (leNat (leBytes 4 (encodeWord i))) = .ok i := by
    rw [leNat_leBytes_four (encodeWord_lt hword), decodeWord_encodeWord hword hwf]
  simp only [leBytes] at hb
  simp only [encode, leBytes, List.cons_append, List.nil_append, decode, hb]

/-- Refutes O56: wellFormed holds of the steps that have no word, too, and their bytes are those of the reserved word 0. decode_encode_append
proves the statement for the words. -/
theorem not_decodingUndoesEncoding : ¬ Obligations.DecodingUndoesEncoding := by
  intro h
  exact absurd (h .longLatencyCompletion [] rfl) (by decide)

/-- Settles O57: the word of what a word is read as has the same major, selectors, fields and zeros. -/
theorem encodingUndoesDecoding : Obligations.EncodingUndoesDecoding := by
  intro w i hw h
  obtain ⟨hraw, hwf⟩ := decodeWord_eq_ok_iff.1 h
  exact ⟨encodeWord_of_decodeRaw hw hraw, hwf⟩

/-- Settles O55: the words are small and closed, so each is decoded. -/
theorem wordsDecodeAsEncoded : Obligations.WordsDecodeAsEncoded := by
  unfold Obligations.WordsDecodeAsEncoded
  decide

end Sys2Proof
end

section
/-! SUPPORT. The checks of a word that names single uniform registers (R76, R79, R90), one equation per check. -/

namespace Sys2Proof.Machine

/-- What a word uses that reads and writes single uniform registers. -/
def uniformUses (reads writes : List Nat) : Uses := { sr := reads.map (·, 1), sw := writes.map (·, 1) }

variable {reads writes : List Nat} {c : Cur} {g : Group} {run : Run}

theorem rangeNums_one (r : Nat) : rangeNums (r, 1) = [r] := rfl

theorem sOk_one (g : Group) (r : Nat) : g.sOk (r, 1) = decide (r < g.sregs) := rfl

/-- Such a word's operands are bad when a HOPND or MPFX is attached or a register is beyond the allocation (R76 step 4). -/
theorem uniformUses_operandBad : (uniformUses reads writes).operandBad g run =
    (run.hopnd.isSome || run.mpfx.isSome || (reads ++ writes).any (fun r => decide (g.sregs ≤ r))) := by
  cases hh : run.hopnd <;>
    simp [uniformUses, Uses.operandBad, hh, sOk_one, List.not_all_eq_any_not, Function.comp_def, Bool.or_assoc, ← decide_not,
      show (HopUse.refuse == HopUse.needs) = false from rfl]

/-- Such a word meets a pending register when one that it names is pending (R90). -/
theorem uniformUses_hazard (hh : run.hopnd = none) (lanes : List Nat) :
    (uniformUses reads writes).hazard g run lanes = (reads ++ writes).any (g.pending true) := by
  simp [uniformUses, Uses.hazard, Uses.vReads, Uses.vWrites, hh, rangeNums_one, ← List.map_append, List.flatMap_map]

theorem checkWord_uniformUses : checkWord (uniformUses reads writes) c g run =
    if (uniformUses reads writes).operandBad g run then some { code := 0x03, lanes := c.lanes }
    else if (uniformUses reads writes).hazard g run (lanesOf c.lanes) then some { code := 0x0B, lanes := c.lanes } else none := by
  have hpriv : (uniformUses reads writes).priv = false := rfl
  have hrole : (uniformUses reads writes).role.allows g = true := by simp [uniformUses, RoleClass.allows]
  have hform : (uniformUses reads writes).formBad g run (lanesOf c.lanes) = none := rfl
  simp [checkWord, hpriv, hrole, hform]

/-- A word that reads and writes single uniform registers is checked in the order of R76. -/
theorem checksUniform_of {i : Instr} {f : RegFile → RegFile} (he : ∀ s, exec i s = issueFiles (uniformUses reads writes) f s) :
    ChecksUniform i reads writes := by
  intro s c g k run h hwait hop
  have hfault (e : FaultInfo) (hc : checkWord (uniformUses reads writes) c g run = some e) : exec i s = .next (wordFaults c s e s) := by
    rw [he, issueFiles, issue, issueD_check h hwait hop hc]
    rfl
  refine ⟨fun hbad => hfault _ ?_, fun hh hm hin hpend => hfault _ ?_⟩
  · have hbad : (uniformUses reads writes).operandBad g run = true := by
      rw [uniformUses_operandBad]
      simpa only [Bool.or_eq_true, or_assoc] using hbad
    rw [checkWord_uniformUses, if_pos hbad]
  · have hgood : (uniformUses reads writes).operandBad g run = false := by
      rw [uniformUses_operandBad, hh, hm]
      simpa [imp_iff_not_or] using hin
    rw [checkWord_uniformUses, hgood, uniformUses_hazard hh, hpend]
    rfl

/-- Settles O40: every word of the tables changes the group's files alone and uses the registers that the table names. -/
theorem uniformWordsAreCheckedInOrder : Obligations.UniformWordsAreCheckedInOrder := by
  refine ⟨fun e he d a b => ?_, fun e he d a => ?_, fun d a b => checksUniform_of fun s => rfl, fun d i => checksUniform_of fun s => rfl,
    fun d i => checksUniform_of fun s => rfl, fun d i => checksUniform_of fun s => rfl, fun d i => checksUniform_of fun s => rfl,
    fun h a => checksUniform_of fun s => rfl, fun d h => checksUniform_of fun s => rfl⟩
  · fin_cases he
    all_goals exact checksUniform_of fun s => rfl
  · fin_cases he
    all_goals exact checksUniform_of fun s => rfl

end Sys2Proof.Machine
end

section
/-! SUPPORT. BRK and reserved words (R93, R106, R188): what each stands for at a run's start and inside a run. -/

namespace Sys2Proof.Machine

/-- A word at a run's start or end acts as its own effect settles. -/
theorem stands_of_settle {i : Instr} {p : Cur → Group → Gang → State → Bool} {x : Cur → Group → Gang → State → State}
    (own : Cur → Group → Option Run → State → Eff) (he : ∀ s, exec i s = issueFree own s)
    (ho : ∀ s c g k, p c g k s = true → settle s c k.run.isSome (own c g k.run s) = { x c g k s with cur := none }) : Stands i p x := by
  intro s c g k h1 h2 h3 hp
  rw [he, issueFree]
  simp only [h1, h2, h3, ho s c g k hp]

theorem exec_brk (s : State) : exec .brk s = issueFree (fun c g run s =>
    if run.any (fun r => r.hopnd.isSome || r.mpfx.isSome) then .fault { code := 0x03, lanes := c.lanes } s
    else .free (deliver (s.takeSlot c) c.team c.group c.gang (trapRecord g c 3 0 c.addr 0 run.isSome))) s := rfl

theorem exec_reservedWord (s : State) : exec .reservedWord s = issueFree (fun c g run s =>
    if run.isNone ∧ natBits c.word.toNat 26 6 ≠ 1 then .free (badStart c g s) else .fault { code := 0x01, lanes := c.lanes } s) s := rfl

/-- Settles O38: a case per claim; each word's own effect is evaluated under the claim's condition on the run and the word. -/
theorem breakpointsAndReservedWordsTrap : Obligations.BreakpointsAndReservedWordsTrap := by
  refine ⟨stands_of _ exec_brk fun s c g k hp => ?plain, stands_of_settle _ exec_brk fun s c g k hp => ?hinted,
    stands_of_settle _ exec_reservedWord fun s c g k hp => ?inRun, stands_of_settle _ exec_reservedWord fun s c g k hp => ?clause,
    stands_of_settle _ exec_reservedWord fun s c g k hp => ?other⟩
  case plain =>
    have hno : ¬ k.run.any (fun r => r.hopnd.isSome || r.mpfx.isSome) = true := by
      cases hr : k.run <;> simp_all
    rw [if_neg hno]
    rfl
  case hinted =>
    have hrun : k.run.isSome = true := by
      cases hr : k.run <;> simp_all
    rw [if_pos hp, hrun]
    rfl
  case inRun =>
    have hsome : ¬ (k.run.isNone = true ∧ natBits c.word.toNat 26 6 ≠ 1) := by simp [Option.isNone_eq_false_iff.2 hp]
    rw [if_neg hsome, show k.run.isSome = true from hp]
    rfl
  case clause =>
    simp only [Bool.and_eq_true, beq_iff_eq] at hp
    obtain ⟨hnone, hmajor⟩ := hp
    rw [if_neg (by simp [hmajor]), Option.isSome_eq_false_iff.2 hnone]
    rfl
  case other =>
    simp only [Bool.and_eq_true, bne_iff_ne] at hp
    rw [if_pos hp]
    rfl

end Sys2Proof.Machine
end

section
/-! SUPPORT. Hint words (R99 to R104): the pending immediate as a number, and the claims of each word. -/

namespace Sys2Proof.Machine

/-- The high half of a word is kept by the mask, and the low half is put in its place. -/
theorem and_high_or_eq (old : Word) (v : BitVec 16) :
    (old &&& 0xFFFF0000) ||| v.setWidth 32 = BitVec.ofNat 32 (old.toNat / 65536 * 65536 + v.toNat) := by
  have hmask : ∀ j < 32, (0xFFFF0000 : Word).getLsbD j = decide (16 ≤ j) := by decide
  refine BitVec.eq_of_getLsbD_eq fun j hj => ?_
  rw [BitVec.getLsbD_or, BitVec.getLsbD_and, hmask j hj, BitVec.getLsbD_setWidth, BitVec.getLsbD_ofNat,
    show old.toNat / 65536 * 65536 = 2 ^ 16 * (old.toNat / 2 ^ 16) from Nat.mul_comm _ _, Nat.testBit_two_pow_mul_add _ v.isLt,
    Nat.testBit_div_two_pow]
  by_cases hlow : j < 16
  · simp [hj, hlow, BitVec.getLsbD]
  · have hv : v.toNat.testBit j = false :=
      Nat.testBit_lt_two_pow (v.isLt.trans_le (Nat.pow_le_pow_right (by omega) (Nat.le_of_not_lt hlow)))
    simp [hj, hlow, hv, BitVec.getLsbD, show 16 ≤ j by omega]

/-- The pending immediate after an HIMM as a number: the part of the word that p names is v, extended by its sign or by zeros, or the
other half of the old value stays (R100). -/
theorem himmValue_eq (p : BitVec 2) (v : BitVec 16) (old : Word) : himmValue p v old =
    if p = 0 then BitVec.ofInt 32 v.toInt
    else if p = 1 then BitVec.ofNat 32 v.toNat
    else if p = 2 then BitVec.ofNat 32 (65536 * v.toNat)
    else BitVec.ofNat 32 (old.toNat / 65536 * 65536 + v.toNat) := by
  have hv := v.isLt
  rcases p with ⟨⟨n, hn⟩⟩
  match n, hn with
  | 0, _ => rfl
  | 1, _ => exact BitVec.eq_of_toNat_eq (by simp [himmValue])
  | 2, _ =>
    refine BitVec.eq_of_toNat_eq ?_
    simp [himmValue]
    omega
  | 3, _ => exact and_high_or_eq old v

theorem himm_holds (p : BitVec 2) (v : BitVec 16) : AllHold (.himm p v) (himmClaims p v) := by
  intro x hx
  obtain rfl := List.mem_singleton.1 hx
  refine Claim.holds_of _ (fun s => rfl) fun s c g k run h => ?_
  rw [himmValue_eq]
  rfl

theorem hopnd_holds (o : BitVec 8) : AllHold (.hopnd o) (hopndClaims o) := by
  refine List.forall_mem_cons.2 ⟨?first, List.forall_mem_singleton.2 ?second⟩
  case first =>
    refine Claim.holds_of _ (fun s => rfl) fun s c g k run h => ?_
    have hnone : run.hopnd.isNone = true := h.meant
    rw [if_neg (by simpa using hnone)]
    rfl
  case second =>
    refine Claim.holds_of _ (fun s => rfl) fun s c g k run h => ?_
    have hsome : run.hopnd.isSome = true := h.meant
    rw [if_pos hsome]
    rfl

theorem mpfx_holds (o sc p q u : BitVec 3) (n : BitVec 2) : AllHold (.mpfx o sc p q u n) (mpfxClaims o sc p q u n) := by
  refine List.forall_mem_cons.2 ⟨?first, List.forall_mem_singleton.2 ?second⟩
  case first =>
    refine Claim.holds_of _ (fun s => rfl) fun s c g k run h => ?_
    have hnone : run.mpfx.isNone = true := h.meant
    rw [if_neg (by simpa using hnone)]
    rfl
  case second =>
    refine Claim.holds_of _ (fun s => rfl) fun s c g k run h => ?_
    have hsome : run.mpfx.isSome = true := h.meant
    rw [if_pos hsome]
    rfl

/-- Settles O4: each word's own effect is that of its claim; a HOPND or MPFX attached already tells the two claims of each apart. -/
theorem hintWordsAttach : Obligations.HintWordsAttach :=
  ⟨himm_holds, hopnd_holds, mpfx_holds,
    List.forall_mem_singleton.2 (Claim.holds_of _ (fun _ => rfl) fun _ _ _ _ _ _ => rfl),
    List.forall_mem_singleton.2 (Claim.holds_of _ (fun _ => rfl) fun _ _ _ _ _ _ => rfl),
    List.forall_mem_singleton.2 (Claim.holds_of _ (fun _ => rfl) fun _ _ _ _ _ _ => rfl)⟩

end Sys2Proof.Machine
end

section
/-! SUPPORT. CLAUSE and ENDRUN (R83 to R85, R97, R98): the start of a run, a gang that stays at its CLAUSE, and the end of a run. -/

namespace Sys2Proof.Machine

variable {s : State} {c : Cur} {g : Group}

/-- The words of a run that can start were fetched, and the run passed its checks (R84, R97). -/
theorem of_runAt_eq_some {ctx fa len : Nat} {ws : List Word} {rs : List PendRange} (h : runAt s ctx c g fa len = some (ws, rs)) :
    fetchWords s ctx c.lanes (len + 1) (c.addr + 4) = .ok ws ∧ checkRun g fa ws = .ok rs := by
  unfold runAt at h
  split at h
  next ws' hfetch =>
    split at h
    next rs' hcheck =>
      cases h
      exact ⟨hfetch, hcheck⟩
    next => contradiction
  next => contradiction

/-- Where a gang stays whose word does not make it wait, the gang has tried at this clock (R85). -/
theorem stayed_self (s : State) (c : Cur) :
    stayed s s c = s.onCur c (fun g => g.onGang c.gang (fun k => { k with tried := some s.clock })) :=
  if_neg fun ⟨hwait, hno⟩ => hno hwait

/-- Settles O5: a CLAUSE whose run reads and passes its checks starts it, one whose flags are set stays, and an ENDRUN whose ranges have
room leaves its run. -/
theorem runsStartAndEnd : Obligations.RunsStartAndEnd := by
  refine ⟨fun wt a b l s c g k hc hg hk hp => ?starts, fun wt a b l s c g k hc hg hk hp => ?stays, fun x f n y h m s c g k hc hg hk hp => ?ends⟩
  case starts =>
    simp only [Bool.and_eq_true, Option.isNone_iff_eq_none, Option.any_eq_true] at hp
    obtain ⟨⟨hrun, hflags⟩, t, ht, hat⟩ := hp
    obtain ⟨⟨ws, rs⟩, hat⟩ := Option.isSome_iff_exists.1 hat
    obtain ⟨hfetch, hcheck⟩ := of_runAt_eq_some hat
    change execClause wt a b l s = _
    simp only [execClause, issueFree, hc, hg, hk, hrun, hflags, ht, hfetch, hcheck, Option.bind_some, hat, Option.getD_some]
    rfl
  case stays =>
    simp only [Bool.and_eq_true, Option.isNone_iff_eq_none] at hp
    obtain ⟨hrun, hflags⟩ := hp
    have hset : (List.range 12).all (fun i => !wt.getLsbD i || g.flagCount i == 0) = false := by
      simpa [List.all_eq_false] using hflags
    change execClause wt a b l s = _
    simp only [execClause, issueFree, hc, hg, hk, hrun, hset]
    simp [settle_stay, wordStays, stayed_self]
  case ends =>
    simp only [Option.any_eq_true, Bool.and_eq_true, decide_eq_true_eq, beq_iff_eq] at hp
    obtain ⟨run, hrun, hroom, hof⟩ := hp
    have hroom : g.rangeRoom c.gang = true := by simp only [Group.rangeRoom, hof, hroom, decide_true]
    change execEndrun x f n y h m s = _
    simp only [execEndrun, issueFree, hc, hg, hk, hrun, hroom]
    rfl

end Sys2Proof.Machine
end

section
/-! SUPPORT. Completion of long-latency operations (R86): what an operation does next, by its body. -/

namespace Sys2Proof.Machine

variable {s : State} {o : Op} {pick : Nat}

/-- LONG_LATENCY_COMPLETION does what a claim about an operation says when the operation's next step is the claim's effect. -/
theorem bodyStep_holds {α : Type} {f : OpBody → Option α} {p : α → Op → State → Bool} {x : α → Op → State → State}
    (ho : ∀ o a pick s, f o.body = some a → p a o s = true → opDone s o pick = x a o s) :
    (bodyStep f p x).Holds .longLatencyCompletion := by
  intro s hdue
  change execLongLatencyCompletion s = _
  simp only [bodyStep, opStep, Option.any_eq_true, Bool.and_eq_true, Bool.not_eq_true'] at hdue
  obtain ⟨o, hop, hheld, a, hbody, hp⟩ := hdue
  simp only [execLongLatencyCompletion, onEvent, bodyStep, opStep, hop, hheld, hbody, ho o a _ s hbody hp]
  rfl

/-- An operation that waits for its counterpart stands (R434). -/
theorem opStep_held_holds : (opStep (fun o _ s => opHeld s o) (fun _ _ s => s)).Holds .longLatencyCompletion := by
  intro s hdue
  change execLongLatencyCompletion s = _
  simp only [opStep, Option.any_eq_true] at hdue
  obtain ⟨o, hop, hheld⟩ := hdue
  simp only [execLongLatencyCompletion, onEvent, opStep, hop, hheld]
  rfl

theorem exists_of_any_group {t : Nat} {g : Nat} {p : Team → Group → Bool}
    (h : (s.teams.find t).any (fun x => (s.group? t g).any (p x)) = true) :
    ∃ x y, s.teams.find t = some x ∧ s.group? t g = some y ∧ p x y = true := by
  simp only [Option.any_eq_true] at h
  obtain ⟨x, hx, y, hy, hp⟩ := h
  exact ⟨x, y, hx, hy, hp⟩

/-! ## What an operation does next, by its body -/

theorem opDone_mem_open {m : MemOp} (h : o.body = .mem m) (hteam : (s.teams.find o.team).isSome = true)
    (hgroup : (s.group? o.team o.group).isSome = true) (hopen : m.open? = true)
    (hready : (m.kind.isStore && m.accs.any (fun a => a.st == .ready)) = false) : opDone s o pick = s := by
  obtain ⟨t, ht⟩ := Option.isSome_iff_exists.1 hteam
  obtain ⟨g, hg⟩ := Option.isSome_iff_exists.1 hgroup
  unfold opDone
  rw [h]
  simp [memDone, ht, hg, hready, hopen]

/-- A load whose lanes are all over completes (R224). -/
theorem opDone_load_over {m : MemOp} (h : o.body = .mem m) (hkind : m.kind = .load ∨ m.kind = .loadU)
    (hteam : (s.teams.find o.team).isSome = true) (hgroup : (s.group? o.team o.group).isSome = true) (hopen : m.open? = false) :
    opDone s o pick = (dropReads s (fun r => match r.who with | .lane k _ => k == o.id && r.left == 0 | _ => false)).completeOp o.id := by
  obtain ⟨t, ht⟩ := Option.isSome_iff_exists.1 hteam
  obtain ⟨g, hg⟩ := Option.isSome_iff_exists.1 hgroup
  unfold opDone
  rw [h]
  obtain hk | hk := hkind
  · simp [memDone, ht, hg, hk, MemKind.isStore, MemKind.isAtomic, hopen] <;> rfl
  · simp [memDone, ht, hg, hk, MemKind.isStore, MemKind.isAtomic, hopen] <;> rfl

theorem opDone_fence_release {t : Team} {g : Group} {n : Nat} (h : o.body = .fence 2 n) (ht : s.teams.find o.team = some t)
    (hg : s.group? o.team o.group = some g) (hrel : releaseDone s t g n o.id = true) : opDone s o pick = s.completeOp o.id := by
  unfold opDone
  rw [h]
  simp [fenceDone, ht, hg, hrel]

theorem opDone_fence_acquire {t : Team} {g : Group} {n : Nat} (h : o.body = .fence 1 n) (ht : s.teams.find o.team = some t)
    (hg : s.group? o.team o.group = some g) (hloads : loadsOut s t.id g.id o.id = false) (hscope : t.scope n < 3) :
    opDone s o pick = s.completeOp o.id := by
  unfold opDone
  rw [h]
  simp [fenceDone, ht, hg, hloads, Nat.not_le.2 hscope]

theorem opDone_ringack {r n : Word} (h : o.body = .ringack r n) (hloads : loadsOut s o.team o.group o.id true = false) :
    opDone s o pick = (s.onRing r (fun x => { x with head := x.head + n })).completeOp o.id := by
  unfold opDone
  rw [h]
  simp [ringackDone, hloads]

/-- An operation on a tile acts once the earlier ones on the tile are over. -/
theorem atTile_of_clear {t : Team} {z : Nat} {act : Team → State} (ht : s.teams.find o.team = some t)
    (hclear : tileWaits s t z o.id = false) : atTile s o z act = some (act t) := by
  simp [atTile, ht, hclear]

theorem opDone_mcfg {t : Team} {z : Nat} {w : Word} (h : o.body = .mcfg z w) (ht : s.teams.find o.team = some t)
    (hclear : tileWaits s t z o.id = false) : opDone s o pick =
    (t.halves.foldl (fun (s : State) h => s.putTile t z h { s.tileOf t z h with tcfg := w }) s).completeOp o.id := by
  unfold opDone
  rw [h]
  exact congrArg (·.getD s) (atTile_of_clear ht hclear)

theorem opDone_mzero {t : Team} {z : Nat} (h : o.body = .mzero z) (ht : s.teams.find o.team = some t)
    (hclear : tileWaits s t z o.id = false) : opDone s o pick =
    (t.halves.foldl (fun (s : State) h => s.putTile t z h (s.tileOf t z h).zeroed) s).completeOp o.id := by
  unfold opDone
  rw [h]
  exact congrArg (·.getD s) (atTile_of_clear ht hclear)

/-- A STAGEARV whose release is over changes its stage's phase (R358). -/
theorem opDone_stagearv {t : Team} {g : Group} {r k : Nat} (h : o.body = .stagearv r k) (ht : s.teams.find o.team = some t)
    (hg : s.group? o.team o.group = some g) (hrel : releaseDone s t g 1 o.id = true) : opDone s o pick =
    (s.onTeam t.id (fun u => { u with phases := setAt u.phases r (setAt (u.phases.getD r []) k (!phaseOf u r k)) })).completeOp o.id := by
  unfold opDone
  rw [h]
  simp [stagearvDone, ht, hg, hrel, phaseOf]

/-- Settles O25: every claim names the body of its operation, and the step is what opDone does for that body. -/
theorem operationsComplete : Obligations.OperationsComplete := by
  unfold Obligations.OperationsComplete AllTake longLatencyCompletionClaims
  simp only [List.forall_mem_cons]
  refine ⟨bodyStep_holds ?_, bodyStep_holds ?_, bodyStep_holds ?_, bodyStep_holds ?_, bodyStep_holds ?_, bodyStep_holds ?_, bodyStep_holds ?_,
    bodyStep_holds ?_, bodyStep_holds ?_, bodyStep_holds ?_, bodyStep_holds ?_, bodyStep_holds ?_, opStep_held_holds, List.forall_mem_nil _⟩
  all_goals
    intro o a pick s hb hp
    split at hb
    case' h_2 => contradiction
  -- an operation whose effect is over, and one with a result
  next hbody =>
    unfold opDone
    rw [hbody]
  next hbody =>
    cases hb
    unfold opDone
    rw [hbody]
  -- an operation that is over at a clock
  next hbody =>
    cases hb
    unfold opDone
    rw [hbody]
    exact if_pos (of_decide_eq_true hp)
  next hbody =>
    cases hb
    unfold opDone
    rw [hbody]
    exact if_neg (Nat.not_le.2 (of_decide_eq_true hp))
  -- memory operations
  next hbody =>
    cases hb
    simp only [Bool.and_eq_true, Bool.not_eq_true'] at hp
    obtain ⟨⟨⟨hteam, hgroup⟩, hopen⟩, hready⟩ := hp
    exact opDone_mem_open hbody hteam hgroup hopen hready
  next hbody =>
    obtain ⟨hkind, hsome⟩ := Option.ite_none_right_eq_some.1 hb
    cases hsome
    simp only [Bool.and_eq_true] at hp
    obtain ⟨⟨hteam, hgroup⟩, hall⟩ := hp
    have hopen : a.open? = false := by simpa [MemOp.open?] using hall
    exact (opDone_load_over hbody hkind hteam hgroup hopen).trans rfl
  -- fences
  next hbody =>
    cases hb
    simp only [Bool.and_eq_true, beq_iff_eq] at hp
    obtain ⟨rfl, hp⟩ := hp
    obtain ⟨t, g, ht, hg, hrel⟩ := exists_of_any_group hp
    exact opDone_fence_release hbody ht hg hrel
  next hbody =>
    cases hb
    simp only [Bool.and_eq_true, beq_iff_eq] at hp
    obtain ⟨rfl, hp⟩ := hp
    obtain ⟨t, g, ht, hg, hclear⟩ := exists_of_any_group hp
    simp only [Bool.and_eq_true, Bool.not_eq_true', decide_eq_true_eq] at hclear
    exact opDone_fence_acquire hbody ht hg hclear.1 hclear.2
  -- RINGACK
  next hbody =>
    cases hb
    exact opDone_ringack hbody (Bool.not_eq_true' _ ▸ hp)
  -- MCFG and MZERO
  next hbody =>
    cases hb
    simp only [Option.any_eq_true, Bool.not_eq_true'] at hp
    obtain ⟨t, ht, hclear⟩ := hp
    rw [ht]
    exact opDone_mcfg hbody ht hclear
  next hbody =>
    cases hb
    simp only [Option.any_eq_true, Bool.not_eq_true'] at hp
    obtain ⟨t, ht, hclear⟩ := hp
    rw [ht]
    exact opDone_mzero hbody ht hclear
  -- STAGEARV
  next hbody =>
    cases hb
    obtain ⟨t, g, ht, hg, hrel⟩ := exists_of_any_group hp
    rw [ht]
    exact opDone_stagearv hbody ht hg hrel

end Sys2Proof.Machine
end

section
/-! SUPPORT. One turn of the agenda: which instruction a scheduler's pick runs, at which state and for which units (R84, R93, R94). -/

namespace Sys2Proof.Machine

variable {s : State} {core half : Nat} {t : Team} {g : Group} {k : Gang}

@[simp] theorem turnBegins_mgmt (s : State) (x : Turn) (rest : List Turn) : (turnBegins s x rest).mgmt = s.mgmt := rfl
@[simp] theorem turnBegins_agenda (s : State) (x : Turn) (rest : List Turn) : (turnBegins s x rest).agenda = rest := rfl

/-- With power, the first turn of the agenda moves at the clock edge that its time has gone on to (R6). -/
theorem nextMove_of_agenda {x : Turn} {rest : List Turn} (hp : s.mgmt.powered = true) (ha : s.agenda = x :: rest) :
    nextMove s = actorMove (turnBegins s x rest) x.who := by
  simp [nextMove, hp, nextTurn, ha, turnBegins]

/-- A step whose move runs an instruction is the step of the instruction. -/
theorem step_of_nextMove {i : Instr} {s' : State} (h : nextMove s = .run i s') : Machine.step s = exec i s' := by
  rw [Machine.step, h]

/-- The instruction of a word is what it decodes to, or the reserved word where it decodes to nothing (R106). -/
theorem wordInstr_cases (w : Word) :
    decodeWord w.toNat = .ok (wordInstr w) ∨ ((∀ j, decodeWord w.toNat ≠ .ok j) ∧ wordInstr w = .reservedWord) := by
  cases h : decodeWord w.toNat <;> simp [wordInstr, h]

theorem wordInstr_of_decodeWord {w : Word} {i : Instr} (h : decodeWord w.toNat = .ok i) : wordInstr w = i := by simp [wordInstr, h]

theorem runMove_eq (s : State) (t : Team) (g : Group) (k : Gang) (r : Run) :
    runMove s t g k r = .run (wordInstr (r.words.getD (r.off - 1) 0)) { s with cur := some (runIssuer t g k r) } := rfl

/-- A gang with no fault kept for its group, none of whose units is at its rejoin, runs the word fetched at its PC. -/
theorem startMove_of_fetch {pc : DWord} {us : List (Nat × Bool)} {w : Word} (hlate : g.late = [])
    (hback : g.atRejoin (g.units.filter (fun u => us.contains (u.1, u.2.1))) = [])
    (hw : fetchWord s t.ctx (g.unitLanes us) pc = .word w) :
    startMove s t g k pc us = .run (wordInstr w) { s with cur := some (startIssuer t g k pc us w) } := by
  simp only [startMove, hlate, hback, hw]
  rfl

section
variable (hpick : pickGang s core half = some (t.id, g.id, k.id))
  (hready : gangReady { s with agenda := ⟨0, .scheduler core half⟩ :: s.agenda } t g k = true)
  (ht : s.teams.find t.id = some t) (hbegun : t.begun = true) (hg : t.group? g.id = some g) (hk : g.gang? k.id = some k)
include hpick hready ht hbegun hg hk

/-- The gang that a scheduler picks inside a run moves on in it. -/
theorem actorMove_inRun {r : Run} (hrun : k.run = some r) :
    actorMove s (.scheduler core half) = runMove (gangBegins s core half t g k) t g k r := by
  simp only [actorMove, hpick, gangMove, ht, hg, hk, hready, hbegun, hrun, gangBegins]
  rfl

/-- The gang that a scheduler picks outside a run moves with its next units at their PC. -/
theorem actorMove_atStart {pc : DWord} {us : List (Nat × Bool)} (hrun : k.run = none) (hnext : g.nextUnits k = some (pc, us)) :
    actorMove s (.scheduler core half) = startMove (gangBegins s core half t g k) t g k pc us := by
  simp only [actorMove, hpick, gangMove, ht, hg, hk, hready, hbegun, hrun, hnext, gangBegins]
  rfl

end

/-- Settles O52: the first turn of the agenda moves; a picked gang inside a run runs the word at the run's offset. -/
theorem stepsRunTheDecodedWord : Obligations.StepsRunTheDecodedWord := by
  refine ⟨?scheduler, ?event, ?off⟩
  case scheduler =>
    intro s dt core half rest t g k r i ha hruns hpick hready
    obtain ⟨hp, ht, hbegun, hg, hk, hrun, w, hw, rfl⟩ := hruns
    apply step_of_nextMove
    rw [nextMove_of_agenda (s := s) hp ha, actorMove_inRun hpick hready ht hbegun hg hk hrun, runMove_eq, wordInstr_of_decodeWord hw]
  case event =>
    intro s i e dt rest hp ha
    exact step_of_nextMove (nextMove_of_agenda hp ha)
  case off =>
    intro s hp
    simp [Machine.step, nextMove, hp]

/-- Settles O53: the picked gang is outside a run, so its word is the one fetched at its PC. -/
theorem runStartsRunTheFetchedWord : Obligations.RunStartsRunTheFetchedWord := by
  intro s dt core half rest s1 t g k pc us w hp ha hs1 hpick ht hready hbegun hg hk hrun hnext hlate hback hfetch
  subst hs1
  refine ⟨wordInstr w, wordInstr_cases w, step_of_nextMove ?_⟩
  rw [nextMove_of_agenda hp ha, actorMove_atStart hpick hready ht hbegun hg hk hrun hnext, startMove_of_fetch hlate hback hfetch]

end Sys2Proof.Machine
end

section
/-! SUPPORT. Reading a claim: what a condition or an effect that asks for the word's team comes to, and operand fields as numbers. -/

namespace Sys2Proof.Machine

variable {s : State} {c : Cur} {g : Group} {run : Run} {t : Team} {p : Team → Cur → Group → Run → State → Bool}

/-- A condition on the issuing team gives the team. -/
theorem exists_team_of_ofTeam (h : ofTeam p c g run s = true) : ∃ t, s.teams.find c.team = some t ∧ p t c g run s = true := by
  simpa [ofTeam, Option.any_eq_true] using h

/-- A condition on a team of one copy gives the team. -/
theorem exists_team_of_soloTeam (h : soloTeam p c g run s = true) :
    ∃ t, s.teams.find c.team = some t ∧ t.copy = .only ∧ p t c g run s = true := by
  simpa [soloTeam, ofTeam, Option.any_eq_true] using h

/-- An effect that depends on the word's team is that of the team there. -/
theorem byTeam_of_find {x : Team → Effect} (h : s.teams.find c.team = some t) : byTeam x c g run s = x t c g run s := by
  simp [byTeam, h]

theorem waitFor_eq (w : Cur → Group → State → Wait) : waitFor w c g run s = s.setWait c (w c g s) := rfl

/-- A field names an odd register when it is odd as a number (R157). -/
theorem odd_eq (r : BitVec 8) : odd r = decide (r.toNat % 2 = 1) := by
  simp [odd, BitVec.getLsbD, Nat.testBit_zero]

/-! ## Claims by the way that their word ends -/

section
variable {i : Instr} {uses : Cur → Group → Run → Uses} {u : Uses} {x : Effect} {q : When} {w : Bool}
variable (own : Cur → Group → Run → State → Eff)

/-- A word is over with the effect that its own effect has where the claim is meant. -/
theorem claim_holds_done (he : ∀ s, exec i s = issueD uses own s)
    (ho : ∀ s c g run, s.curGroup? c = some g → q c g run s = true → own c g run s = .ok (x c g run s)) :
    Claim.Holds i { woken := w, uses := uses, cond := q, effect := x } :=
  Claim.holds_of own he fun _ _ _ _ _ h => ho _ _ _ _ h.ofGroup h.meant

/-- The same of a word that its gang has been waiting at. -/
theorem does_again_holds (he : ∀ s, exec i s = issue u own s)
    (ho : ∀ s c g run, s.curGroup? c = some g → q c g run s = true → own c g run s = .ok (x c g run s)) : (does u x q).again.Holds i :=
  claim_holds_done own he ho

/-- A word ends its run with the effect that its own effect has where the claim is meant. -/
theorem claim_holds_jump (he : ∀ s, exec i s = issueD uses own s)
    (ho : ∀ s c g run, s.curGroup? c = some g → q c g run s = true → own c g run s = .jump (x c g run s)) :
    Claim.Holds i { uses := uses, cond := q, effect := x, ending := .jump } :=
  Claim.holds_of own he fun _ _ _ _ _ h => ho _ _ _ _ h.ofGroup h.meant

/-- A word leaves its gang at it with the effect that its own effect has where the claim is meant. -/
theorem claim_holds_waits (he : ∀ s, exec i s = issueD uses own s)
    (ho : ∀ s c g run, s.curGroup? c = some g → q c g run s = true → own c g run s = .stay (x c g run s)) :
    Claim.Holds i { uses := uses, cond := q, effect := x, ending := .waits } :=
  Claim.holds_of own he fun _ _ _ _ _ h => ho _ _ _ _ h.ofGroup h.meant

/-- A word ends in the state that its own effect makes where the claim is meant. -/
theorem claim_holds_free (he : ∀ s, exec i s = issueD uses own s)
    (ho : ∀ s c g run, s.curGroup? c = some g → q c g run s = true → own c g run s = .free (x c g run s)) :
    Claim.Holds i { uses := uses, cond := q, effect := x, ending := .free } :=
  Claim.holds_of own he fun _ _ _ _ _ h => ho _ _ _ _ h.ofGroup h.meant

/-- A word faults as its own effect does where the claim is meant. -/
theorem claim_holds_fault {f : Cur → Group → Run → State → FaultInfo} (he : ∀ s, exec i s = issueD uses own s)
    (ho : ∀ s c g run, s.curGroup? c = some g → q c g run s = true → own c g run s = .fault (f c g run s) (x c g run s)) :
    Claim.Holds i { uses := uses, cond := q, effect := x, ending := .fault f } :=
  Claim.holds_of own he fun _ _ _ _ _ h => ho _ _ _ _ h.ofGroup h.meant

end

end Sys2Proof.Machine
end

section
/-! SUPPORT. The bytes of a fault record (R185): the number that little-endian bytes stand for, field by field. -/

namespace Sys2Proof.Machine

@[simp] theorem length_bytesLE (n v : Nat) : (bytesLE n v).length = n := by
  induction n generalizing v with
  | zero => rfl
  | succ n ih => simp [bytesLE, ih]

/-- The n low bytes of a number stand for the number modulo 256 ^ n (R4). -/
@[simp] theorem leVal_bytesLE (n v : Nat) : leVal (bytesLE n v) = v % 256 ^ n := by
  induction n generalizing v with
  | zero => simp [bytesLE, leVal, Nat.mod_one]
  | succ n ih =>
    rw [bytesLE, leVal, ih, Nat.pow_succ', Nat.mod_mul]
    simp

/-- The FLAGS byte has four bits (R185). -/
theorem recordFlags_lt (a b c d : Bool) :
    (if a then 1 else 0) + (if b then 2 else 0) + (if c then 4 else 0) + (if d then 8 else 0) < 256 := by
  revert a b c d
  decide

/-- Settles O42: every field's bytes are the little-endian bytes of its value, which fits them. -/
theorem faultRecordsHaveTheirLayout : Obligations.FaultRecordsHaveTheirLayout := by
  intro r hcode hkind
  have hflags := recordFlags_lt r.inrun r.replay r.sysmode r.double
  have hia := r.iaddr.isLt
  have hla := r.lanes.isLt
  have hfa := r.faddr.isLt
  simp [Record.toBytes, List.take_append, List.drop_append, List.drop_of_length_le, List.take_of_length_le, leVal, Nat.mod_eq_of_lt, *]

end Sys2Proof.Machine
end

section
/-! SUPPORT. TRAP, SYSCALL, HALT and ERET (R188 to R190). -/

namespace Sys2Proof.Machine

/-- A group can return from a trap where it keeps a shadow (R189). -/
theorem eret_isSome (g : Group) (skip : Bool) : (g.eret skip).isSome = g.shadow.isSome := by
  cases h : g.shadow <;> simp [Group.eret, h]

theorem trap_holds (n : BitVec 12) : AllHold (.trap n) (trapClaims n) :=
  List.forall_mem_singleton.2 (claim_holds_free _ (fun _ => rfl) fun _ _ _ _ _ _ => rfl)

theorem syscall_holds (a : BitVec 8) (n : BitVec 12) : AllHold (.syscall a n) (syscallClaims a n) := by
  unfold syscallClaims
  rw [← odd_eq]
  refine List.forall_mem_singleton.2 (claim_holds_waits _ (fun _ => rfl) fun s c g run hg _ => ?_)
  obtain ⟨t, ht⟩ := team_of_group hg
  simp only [byTeam_of_find ht, ht]
  rfl

theorem halt_holds : AllHold .halt haltClaims := by
  refine List.forall_mem_singleton.2 (claim_holds_waits _ (fun _ => rfl) fun s c g run hg _ => ?_)
  obtain ⟨t, ht⟩ := team_of_group hg
  simp only [byTeam_of_find ht, ht]
  rfl

theorem eret_holds (sg : BitVec 1) : AllHold (.eret sg) (eretClaims sg) := by
  refine List.forall_mem_cons.2 ⟨claim_holds_free _ (fun _ => rfl) fun s c g run _ hsome => ?returns,
    List.forall_mem_singleton.2 (claim_holds_fault _ (fun _ => rfl) fun s c g run _ hnone => ?illegal)⟩
  case returns =>
    obtain ⟨x, hx⟩ := Option.isSome_iff_exists.1 ((eret_isSome g (sg == 1)).trans hsome)
    simp only [hx]
  case illegal =>
    have hno : (g.eret (sg == 1)).isSome = false := (eret_isSome g _).trans (Option.isSome_eq_false_iff.2 hnone)
    simp only [Option.isNone_iff_eq_none.1 (Option.isSome_eq_false_iff.1 hno)]
    rfl

/-- Settles O8: SYSCALL and HALT find the team of their group, and ERET finds its shadow or none. -/
theorem trapsSaveAndReturn : Obligations.TrapsSaveAndReturn := ⟨trap_holds, syscall_holds, halt_holds, eret_holds⟩

end Sys2Proof.Machine
end

section
/-! SUPPORT. Barriers, events, partitions and register growth (R177 to R183, R190): what an arrival at a barrier makes of the team, and
the claims of each word. -/

namespace Sys2Proof.Machine

variable {s : State} {c : Cur} {t : Team}

/-! ## BAR and BARP (R177, R178) -/

@[simp] theorem Team.barp_setBarp_self (t : Team) (b : Nat) (x : Barp) : (t.setBarp b x).barp b = x := by
  have hlen : b < (t.barps ++ List.replicate (b + 1 - t.barps.length) Barp.fresh).length := by
    rw [List.length_append, List.length_replicate]
    omega
  simp [Team.barp, Team.setBarp, List.getD_eq_getElem?_getD, setAt_get_self _ b x hlen]

/-- An arrival that does not make up the count leaves the generation open (R178). -/
theorem Team.arriveBarp_of_lt {b n i : Nat} (h : (t.barp b).arrived.length + 1 < n) : t.arriveBarp b i n =
    t.setBarp b { t.barp b with expected := some n, arrived := (t.barp b).arrived ++ [i] } := by
  simp [Team.arriveBarp, Team.closeBarp, h]

/-- A count is accepted that lies between one and the team's groups, and that the barrier's earlier arrivals have named (R178). -/
theorem Barp.accepts_eq (x : Barp) (m n : Nat) :
    x.accepts m n = (decide (1 ≤ n) && decide (n ≤ m) && (x.expected.isNone || x.expected == some n)) := by
  simp [Barp.accepts, Nat.one_le_iff_ne_zero, bne, Bool.beq_eq_decide_eq]

/-- What a function makes of the team that is there is what counts. -/
theorem State.onTeam_congr {i : Nat} {f f' : Team → Team} (h : ∀ t, s.teams.find i = some t → f t = f' t) :
    s.onTeam i f = s.onTeam i f' := by
  unfold State.onTeam Map.adjust
  cases ht : s.teams.find i with
  | none => rfl
  | some t => simp only [h t ht]

/-- A gang that begins to wait leaves the barriers of its team as they are. -/
theorem barp_of_setWait {w : Wait} {y : Team} (b : Nat) (ht : s.teams.find c.team = some t)
    (hy : (s.setWait c w).teams.find c.team = some y) : y.barp b = t.barp b := by
  rw [State.setWait, State.onCur, State.find_onGroup, ht] at hy
  cases hy
  rfl

theorem bar_holds : AllHold .bar barClaims :=
  List.forall_mem_singleton.2 (claim_holds_waits _ (fun _ => rfl) fun _ _ _ _ _ _ => rfl)

theorem barp_holds (a : BitVec 8) (b : BitVec 4) : AllHold (.barp a b) (barpClaims a b) := by
  refine List.forall_mem_cons.2 ⟨claim_holds_waits _ (fun _ => rfl) fun s c g run hg hm => ?waits,
    List.forall_mem_cons.2 ⟨claim_holds_waits _ (fun _ => rfl) fun s c g run hg hm => ?arrives,
    List.forall_mem_cons.2 ⟨claim_holds_waits _ (fun _ => rfl) fun s c g run hg hm => ?completes,
    List.forall_mem_singleton.2 (claim_holds_fault _ (fun _ => rfl) fun s c g run hg hm => ?bad)⟩⟩⟩
  all_goals
    obtain ⟨t, ht, hp⟩ := exists_team_of_ofTeam hm
    simp only [waitFor_eq, ← Barp.accepts_eq, Bool.and_eq_true, Bool.not_eq_true', decide_eq_true_eq] at hp
    simp only [byTeam_of_find ht, ht, waitFor_eq]
  case waits => exact if_pos (by simp [hp])
  case arrives =>
    obtain ⟨⟨hlast, hgood⟩, hmore⟩ := hp
    refine (if_neg (by simp [hlast])).trans ((if_neg (by simpa using hgood)).trans (congrArg Eff.stay (State.onTeam_congr fun y hy => ?_)))
    have hbarp := barp_of_setWait b.toNat ht hy
    exact Team.arriveBarp_of_lt (by rw [hbarp]; exact hmore)
  case completes =>
    obtain ⟨⟨hlast, hgood⟩, hmore⟩ := hp
    exact (if_neg (by simp [hlast])).trans (if_neg (by simpa using hgood))
  case bad =>
    obtain ⟨hlast, hbad⟩ := hp
    exact (if_neg (by simp [hlast])).trans (if_pos (by simpa using hbad))

/-! ## SIGEV and WAITEV (R179) -/

/-- A SIGEV names a group when it does not name one beyond the team's (R179). -/
theorem names_group_iff (w : Word) (n : Nat) : (w == 0xFFFFFFFF || decide (w.toNat < n)) = !decide (w ≠ 0xFFFFFFFF ∧ n ≤ w.toNat) := by
  rw [Bool.eq_iff_iff]
  simp [or_iff_not_imp_left]

theorem sigev_holds (a b : BitVec 8) : AllHold (.sigev a b) (sigevClaims a b) := by
  refine List.forall_mem_cons.2 ⟨claim_holds_done _ (fun _ => rfl) fun s c g run hg hm => ?signals,
    List.forall_mem_cons.2 ⟨claim_holds_waits _ (fun _ => rfl) fun s c g run hg hm => ?waits,
    List.forall_mem_singleton.2 (claim_holds_fault _ (fun _ => rfl) fun s c g run hg hm => ?bad)⟩⟩
  all_goals
    obtain ⟨t, ht, hp⟩ := exists_team_of_ofTeam hm
    simp only [names_group_iff, Bool.and_eq_true, Bool.not_eq_true', Bool.not_not, decide_eq_true_eq, decide_eq_false_iff_not] at hp
  case signals => simp only [ht, if_neg hp.1, hp.2]; rfl
  case waits => simp only [ht, if_neg hp.1, hp.2]; rfl
  case bad => simp only [ht, if_pos hp]; rfl

theorem waitev_holds (d a : BitVec 8) : AllHold (.waitev d a) (waitevClaims d a) := by
  refine List.forall_mem_cons.2 ⟨claim_holds_done _ (fun _ => rfl) fun s c g run hg hm => ?takes,
    List.forall_mem_cons.2 ⟨does_again_holds _ (fun _ => rfl) fun s c g run hg hm => ?again,
    List.forall_mem_cons.2 ⟨claim_holds_waits _ (fun _ => rfl) fun s c g run hg hm => ?waits,
    List.forall_mem_singleton.2 (claim_holds_fault _ (fun _ => rfl) fun s c g run hg hm => ?bad)⟩⟩⟩
  all_goals
    obtain ⟨t, ht, hp⟩ := exists_team_of_ofTeam hm
    simp only [Bool.and_eq_true, bne_iff_ne, beq_iff_eq] at hp
  case takes | again => simp only [ht]; exact (if_neg hp.1).trans (if_neg hp.2)
  case waits => simp only [ht]; exact (if_neg hp.1).trans (if_pos hp.2)
  case bad => simp only [ht]; exact if_pos hp

/-! ## SLEEP, YIELD, ELECT and SETPART (R180 to R182) -/

theorem sleep_holds (a : BitVec 8) : AllHold (.sleep a) (sleepClaims a) :=
  List.forall_mem_singleton.2 (claim_holds_waits _ (fun _ => rfl) fun _ _ _ _ _ _ => rfl)

theorem yield_holds : AllHold .yield yieldClaims :=
  List.forall_mem_singleton.2 (claim_holds_done _ (fun _ => rfl) fun _ _ _ _ _ _ => rfl)

theorem elect_holds (d : BitVec 8) (q : BitVec 3) : AllHold (.elect d q) (electClaims d q) :=
  List.forall_mem_singleton.2 (claim_holds_done _ (fun _ => rfl) fun _ _ _ _ _ _ => rfl)

theorem setpart_holds (p : BitVec 4) : AllHold (.setpart p) (setpartClaims p) :=
  List.forall_mem_singleton.2 (claim_holds_done _ (fun _ => rfl) fun _ _ _ _ _ _ => rfl)

/-! ## GROW, SHRINK and ERRINJ (R183, R190) -/

theorem grow_holds (a : BitVec 8) : AllHold (.grow a) (growClaims a) := by
  refine List.forall_mem_cons.2 ⟨claim_holds_done _ (fun _ => rfl) fun s c g run hg hm => ?holds,
    List.forall_mem_cons.2 ⟨claim_holds_done _ (fun _ => rfl) fun s c g run hg hm => ?takes,
    List.forall_mem_cons.2 ⟨does_again_holds _ (fun _ => rfl) fun s c g run hg hm => ?again,
    List.forall_mem_cons.2 ⟨claim_holds_waits _ (fun _ => rfl) fun s c g run hg hm => ?waits,
    List.forall_mem_cons.2 ⟨claim_holds_fault _ (fun _ => rfl) fun s c g run hg hm => ?uneven,
    List.forall_mem_cons.2 ⟨claim_holds_fault _ (fun _ => rfl) fun s c g run hg hm => ?large,
    List.forall_mem_singleton.2 (claim_holds_fault _ (fun _ => rfl) fun s c g run hg hm => ?replaced)⟩⟩⟩⟩⟩⟩
  case holds =>
    simp only [Bool.and_eq_true, decide_eq_true_eq] at hm
    obtain ⟨⟨height, hmax⟩, hless⟩ := hm
    rw [if_neg (by simpa using height), if_neg (by omega), if_pos hless]
    rfl
  case uneven => exact if_pos (of_decide_eq_true hm)
  case large =>
    simp only [Bool.and_eq_true, decide_eq_true_eq] at hm
    exact (if_neg (by simpa using hm.1)).trans (if_pos hm.2)
  all_goals
    obtain ⟨t, ht, hp⟩ := exists_team_of_ofTeam hm
    simp only [Bool.and_eq_true, Bool.not_eq_true', decide_eq_true_eq] at hp
    simp only [ht]
  case takes | again =>
    obtain ⟨⟨⟨⟨height, hmax⟩, hmore⟩, hnew⟩, hfits⟩ := hp
    rw [if_neg (by simpa using height), if_neg (by omega), if_neg (by omega), if_neg (by simpa using hnew), if_pos hfits]
  case waits =>
    obtain ⟨⟨⟨⟨height, hmax⟩, hmore⟩, hnew⟩, hno⟩ := hp
    rw [if_neg (by simpa using height), if_neg (by omega), if_neg (by omega), if_neg (by simpa using hnew), if_neg (by simpa using hno)]
    rfl
  case replaced =>
    obtain ⟨⟨⟨height, hmax⟩, hmore⟩, hold⟩ := hp
    rw [if_neg (by simpa using height), if_neg (by omega), if_neg (by omega), if_pos (by simpa using hold)]

theorem shrink_holds (a : BitVec 8) : AllHold (.shrink a) (shrinkClaims a) := by
  refine List.forall_mem_cons.2 ⟨claim_holds_done _ (fun _ => rfl) fun s c g run hg hm => ?holds,
    List.forall_mem_cons.2 ⟨claim_holds_done _ (fun _ => rfl) fun s c g run hg hm => ?releases,
    List.forall_mem_cons.2 ⟨claim_holds_fault _ (fun _ => rfl) fun s c g run hg hm => ?held,
    List.forall_mem_singleton.2 (claim_holds_fault _ (fun _ => rfl) fun s c g run hg hm => ?bad)⟩⟩⟩
  all_goals simp only [Bool.and_eq_true, Bool.not_eq_true', Bool.and_eq_false_iff, decide_eq_true_eq, decide_eq_false_iff_not] at hm
  case holds =>
    obtain ⟨⟨height, hone⟩, hless⟩ := hm
    rw [if_neg (by omega), if_pos hless]
    rfl
  case releases =>
    obtain ⟨⟨⟨height, hone⟩, hmore⟩, hfree⟩ := hm
    rw [if_neg (by omega), if_neg (by omega), if_neg (by simpa using hfree)]
  case held =>
    obtain ⟨⟨⟨height, hone⟩, hmore⟩, hheld⟩ := hm
    rw [if_neg (by omega), if_neg (by omega), if_pos hheld]
    rfl
  case bad =>
    rw [if_pos (by omega)]
    rfl

theorem errinj_holds (a : BitVec 8) : AllHold (.errinj a) (errinjClaims a) := by
  refine List.forall_mem_cons.2 ⟨claim_holds_done _ (fun _ => rfl) fun s c g run hg hm => ?writes,
    List.forall_mem_singleton.2 (claim_holds_fault _ (fun _ => rfl) fun s c g run hg hm => ?bad)⟩
  all_goals
    obtain ⟨t, ht, hp⟩ := exists_team_of_ofTeam hm
    simp only [ht]
  case writes => exact if_neg (by simpa using hp)
  case bad => exact if_pos hp

/-- Settles O7: each word tests its count, group or bits in the order of its claims, and an arrival at a barrier closes the generation
only where it makes up the count. -/
theorem groupsMeetAndGrow : Obligations.GroupsMeetAndGrow :=
  ⟨bar_holds, barp_holds, sigev_holds, waitev_holds, sleep_holds, yield_holds, elect_holds, setpart_holds,
    grow_holds, shrink_holds, errinj_holds⟩

end Sys2Proof.Machine
end

section
/-! SUPPORT. The special registers (R158 to R165): masks as fields of a number, and what RDSR and WRSR do register by register. -/

namespace Sys2Proof.Machine

/-! ## A word under a mask as the sum of its fields -/

/-- The fields (first bit, width) of a number, each at its place. -/
def fieldSum (w : Nat) : List (Nat × Nat) → Nat
  | [] => 0
  | f :: fs => natBits w f.1 f.2 * 2 ^ f.1 + fieldSum w fs

/-- The fields lie below a bit, the highest first, and do not overlap. -/
def fieldsBelow (k : Nat) : List (Nat × Nat) → Bool
  | [] => true
  | f :: fs => decide (f.1 + f.2 ≤ k) && fieldsBelow f.1 fs

/-- A bit lies in one of the fields. -/
def inFields (fs : List (Nat × Nat)) (i : Nat) : Bool := fs.any (fun f => decide (f.1 ≤ i) && decide (i < f.1 + f.2))

theorem inFields_cons (f : Nat × Nat) (fs : List (Nat × Nat)) (i : Nat) :
    inFields (f :: fs) i = (decide (f.1 ≤ i) && decide (i < f.1 + f.2) || inFields fs i) := rfl

theorem inFields_of_le {fs : List (Nat × Nat)} {k i : Nat} (h : fieldsBelow k fs = true) (hi : k ≤ i) : inFields fs i = false := by
  induction fs generalizing k with
  | nil => rfl
  | cons f fs ih =>
    simp only [fieldsBelow, Bool.and_eq_true, decide_eq_true_eq] at h
    rw [inFields_cons, ih h.2 (by omega), Bool.or_false, Bool.and_eq_false_iff]
    exact .inr (decide_eq_false (by omega))

theorem fieldSum_lt {fs : List (Nat × Nat)} {k : Nat} (w : Nat) (h : fieldsBelow k fs = true) : fieldSum w fs < 2 ^ k := by
  induction fs generalizing k with
  | nil => exact Nat.two_pow_pos k
  | cons f fs ih =>
    simp only [fieldsBelow, Bool.and_eq_true, decide_eq_true_eq] at h
    have hfield : natBits w f.1 f.2 + 1 ≤ 2 ^ f.2 := Nat.mod_lt _ (Nat.two_pow_pos _)
    calc natBits w f.1 f.2 * 2 ^ f.1 + fieldSum w fs
        < natBits w f.1 f.2 * 2 ^ f.1 + 2 ^ f.1 := by have := ih h.2; omega
      _ = (natBits w f.1 f.2 + 1) * 2 ^ f.1 := by ring
      _ ≤ 2 ^ f.2 * 2 ^ f.1 := Nat.mul_le_mul_right _ hfield
      _ = 2 ^ (f.1 + f.2) := by rw [← pow_add, Nat.add_comm]
      _ ≤ 2 ^ k := Nat.pow_le_pow_right (by omega) h.1

/-- A bit of the sum is the number's bit where it lies in a field. -/
theorem testBit_fieldSum {fs : List (Nat × Nat)} {k : Nat} (w : Nat) (h : fieldsBelow k fs = true) (i : Nat) :
    (fieldSum w fs).testBit i = (w.testBit i && inFields fs i) := by
  induction fs generalizing k with
  | nil => simp [fieldSum, inFields]
  | cons f fs ih =>
    simp only [fieldsBelow, Bool.and_eq_true, decide_eq_true_eq] at h
    rw [fieldSum, Nat.mul_comm, Nat.testBit_two_pow_mul_add _ (fieldSum_lt w h.2), ih h.2, natBits, Nat.testBit_mod_two_pow,
      Nat.testBit_div_two_pow, inFields_cons]
    by_cases hi : i < f.1
    · simp [hi, Nat.not_le.2 hi]
    · have hend : i - f.1 < f.2 ↔ i < f.1 + f.2 := by omega
      simp [hi, inFields_of_le h.2 (Nat.not_lt.1 hi), Nat.sub_add_cancel (Nat.not_lt.1 hi), hend, Nat.not_lt.1 hi, Bool.and_comm]

/-- A word under a mask is the sum of the fields that the mask covers. -/
theorem and_eq_fieldSum {m : Word} (w : Word) (fs : List (Nat × Nat)) (h : fieldsBelow 32 fs = true)
    (hm : ∀ i < 32, m.getLsbD i = inFields fs i) : w &&& m = BitVec.ofNat 32 (fieldSum w.toNat fs) := by
  refine BitVec.eq_of_getLsbD_eq fun i hi => ?_
  rw [BitVec.getLsbD_and, hm i hi, BitVec.getLsbD_ofNat, testBit_fieldSum _ h]
  simp [hi, BitVec.getLsbD]

/-! The bits that WRSR writes, register by register. -/

theorem fpctl_mask (w : Word) : w &&& 0xFB = BitVec.ofNat 32 (natBits w.toNat 3 5 * 8 + natBits w.toNat 0 2) := by
  simpa [fieldSum] using and_eq_fieldSum (m := 0xFB) w [(3, 5), (0, 2)] (by decide) (by decide)

theorem fpstat_mask (w : Word) : w &&& 0x1F = BitVec.ofNat 32 (natBits w.toNat 0 5) := by
  simpa [fieldSum] using and_eq_fieldSum (m := 0x1F) w [(0, 5)] (by decide) (by decide)

theorem mdef_mask (w : Word) : w &&& 0x03FFFE00 = BitVec.ofNat 32 (natBits w.toNat 9 17 * 2 ^ 9) := by
  simpa [fieldSum] using and_eq_fieldSum (m := 0x03FFFE00) w [(9, 17)] (by decide) (by decide)

theorem wdcfg_mask (w : Word) : w &&& 0xFFFF = BitVec.ofNat 32 (natBits w.toNat 0 16) := by
  simpa [fieldSum] using and_eq_fieldSum (m := 0xFFFF) w [(0, 16)] (by decide) (by decide)

theorem cmpretry_mask (w : Word) : w &&& 0xF = BitVec.ofNat 32 (natBits w.toNat 0 4) := by
  simpa [fieldSum] using and_eq_fieldSum (m := 0xF) w [(0, 4)] (by decide) (by decide)

theorem errinj_mask (w : Word) : w &&& errinjMask =
    BitVec.ofNat 32 (natBits w.toNat 27 5 * 2 ^ 27 + natBits w.toNat 8 13 * 2 ^ 8 + natBits w.toNat 0 6) := by
  simpa [fieldSum, Nat.add_assoc] using and_eq_fieldSum (m := errinjMask) w [(27, 5), (8, 13), (0, 6)] (by decide) (by decide)

theorem evpend_mask (w : Word) : w &&& 0xFF = BitVec.ofNat 32 (natBits w.toNat 0 8) := by
  simpa [fieldSum] using and_eq_fieldSum (m := 0xFF) w [(0, 8)] (by decide) (by decide)

/-- An ERRINJ value may be written when COPY and KIND are no reserved codes, and COPY is 0 in a team without protection (R445). -/
theorem goodErrinj_eq (p : Nat) (w : Word) : goodErrinj p w =
    (decide (natBits w.toNat 29 2 ≠ 3) && decide (natBits w.toNat 27 2 ≠ 3) &&
      (decide (p ≠ 0) || decide (natBits w.toNat 29 2 = 0))) := by
  simp [goodErrinj, bne, Bool.beq_eq_decide_eq]

/-- A flag that a one clears stays where the word's bit is zero. -/
theorem not_getLsbD_eq (w : Word) (i : Nat) : (!w.getLsbD i) = decide (w.toNat / 2 ^ i % 2 ^ 1 = 0) := by
  rw [BitVec.getLsbD, Nat.testBit_eq_decide_div_mod_eq]
  rcases Nat.mod_two_eq_zero_or_one (w.toNat / 2 ^ i) with h | h <;> simp [h]

/-! ## What WRSR writes -/

/-- What a WRSR does to the team or the context of its group beside the group itself. -/
def SpecialWrite.shared (x : SpecialWrite) (n ctx w : Nat) (c : Cur) (s : State) : State :=
  let s := if n = 0x17 then s.onTeam c.team (x.team w) else s
  if [0x09, 0x1A, 0x1B].contains n then s.putCtx ctx (x.ctx w (s.ctx ctx)) else s

/-- The register of an entry is one that WRSR writes in the way that the entry says. -/
structure SpecialWrite.Says (x : SpecialWrite) (n : Nat) : Prop where
  notReadOnly : roRegister n = false
  may : ∀ w t g, goodSpecial t g n w = x.may w.toNat t g
  group : ∀ w g, g.writeSpecial n w = x.group w.toNat g
  shared : ∀ s c ctx w, s.writeShared c ctx n w = x.shared n ctx w.toNat c s

/-- Every register that WRSR writes is written as its entry says (R102, R103, R134 to R136, R160 to R165, R444, R445). -/
theorem specialWrites_say : ∀ e ∈ specialWrites, e.2.Says e.1 := by
  simp only [specialWrites, List.forall_mem_cons]
  refine ⟨?gstat, ?fpctl, ?fpstat, ?fpcnt0, ?fpcnt1, ?fpcnt2, ?fpcnt3, ?fpcnt4, ?part, ?mdef, ?winbase, ?winlen, ?trapvec, ?faultlo,
    ?faulthi, ?wdcfg, ?cmpretry, ?errinj, ?evpend, List.forall_mem_nil _⟩
  case fpcnt0 | fpcnt1 | fpcnt2 | fpcnt3 | fpcnt4 | winbase | winlen | part =>
    exact ⟨rfl, fun _ _ _ => rfl, fun _ _ => rfl, fun _ _ _ _ => rfl⟩
  case gstat => exact ⟨rfl, fun _ _ _ => rfl, fun w g => by simp only [Group.writeSpecial, not_getLsbD_eq], fun _ _ _ _ => rfl⟩
  case fpctl => exact ⟨rfl, fun _ _ _ => rfl, fun w g => congrArg (fun v : Word => { g with fpctl := v }) (fpctl_mask w),
    fun _ _ _ _ => rfl⟩
  case fpstat => exact ⟨rfl, fun _ _ _ => rfl,
    fun w g => congrArg (fun v : Word => { g with fpstat := g.fpstat &&& ~~~v }) (fpstat_mask w), fun _ _ _ _ => rfl⟩
  case mdef => exact ⟨rfl, fun _ _ _ => rfl, fun w g => congrArg (fun v : Word => { g with mdef := v }) (mdef_mask w),
    fun s _ ctx w => congrArg (fun v : Word => s.putCtx ctx { s.ctx ctx with mdef := v }) (mdef_mask w)⟩
  case trapvec => exact ⟨rfl, fun _ _ _ => rfl, fun _ _ => rfl, fun s c ctx w => by simp [State.writeShared, SpecialWrite.shared]⟩
  case faultlo | faulthi => exact ⟨rfl, fun _ _ _ => rfl, fun w g => by simp [Group.writeSpecial], fun _ _ _ _ => rfl⟩
  case wdcfg => exact ⟨rfl, fun _ _ _ => rfl, fun w g => congrArg (fun v : Word => { g with wdcfg := v }) (wdcfg_mask w),
    fun s _ ctx w => congrArg (fun v : Word => s.putCtx ctx { s.ctx ctx with wdcfg := v }) (wdcfg_mask w)⟩
  case cmpretry => exact ⟨rfl, fun _ _ _ => rfl, fun w g => congrArg (fun v : Word => { g with cmpretry := v }) (cmpretry_mask w),
    fun s _ ctx w => congrArg (fun v : Word => s.putCtx ctx { s.ctx ctx with cmpretry := v }) (cmpretry_mask w)⟩
  case errinj => exact ⟨rfl, fun w t _ => goodErrinj_eq t.desc.protect w,
    fun w g => congrArg (fun v : Word => { g with errinj := v }) (errinj_mask w), fun _ _ _ _ => rfl⟩
  case evpend => exact ⟨rfl, fun _ _ _ => rfl,
    fun w g => congrArg (fun v : Word => { g with evpend := g.evpend &&& ~~~v }) (evpend_mask w), fun _ _ _ _ => rfl⟩

/-- A WRSR uses S(A), in system mode for the registers of access RS, and writes where the value may be written (R158, R159). -/
theorem exec_wrsr (n a : BitVec 8) : ∃ own : Cur → Group → Run → State → Eff,
    (∀ s, exec (.wrsr n a) s = issue { sr := [(a.toNat, 1)], priv := rsRegister n.toNat, bad := roRegister n.toNat } own s) ∧
    ∀ s c g run t, s.teams.find c.team = some t → own c g run s =
      if !goodSpecial t g n.toNat (g.rf.S a.toNat) then .fault { code := 0x03, lanes := c.lanes } s
      else .ok ((s.onCur c (fun x => x.writeSpecial n.toNat (g.rf.S a.toNat))).writeShared c t.ctx n.toNat (g.rf.S a.toNat)) :=
  ⟨_, fun _ => rfl, fun s c g run t ht => by simp only [ht]⟩

theorem wrsr_holds (n a : BitVec 8) : AllHold (.wrsr n a) (wrsrClaims n a) := by
  unfold wrsrClaims
  cases hfind : specialWrites.find? (fun e => e.1 == n.toNat) with
  | none => exact List.forall_mem_nil _
  | some e =>
    obtain ⟨k, x⟩ := e
    obtain rfl : k = n.toNat := by simpa using List.find?_some hfind
    have hx : x.Says n.toNat := specialWrites_say _ (List.mem_of_find?_eq_some hfind)
    obtain ⟨own, he, ho⟩ := exec_wrsr n a
    rw [hx.notReadOnly] at he
    refine List.forall_mem_cons.2 ⟨claim_holds_done own he fun s c g run hg hm => ?writes,
      List.forall_mem_singleton.2 (claim_holds_fault own he fun s c g run hg hm => ?bad)⟩
    all_goals
      obtain ⟨t, ht, hp⟩ := exists_team_of_ofTeam hm
      rw [ho s c g run t ht, hx.may]
    case writes =>
      rw [if_neg (by simpa using hp), hx.shared, byTeam_of_find ht, funext (hx.group (g.rf.S a.toNat))]
      rfl
    case bad => exact if_pos hp

/-- The registers that are read only in every field, and none of access RS is among them (R159). -/
theorem roRegister_of_range {n : Nat} (h : 0x0C ≤ n) (h' : n ≤ 0x16) : roRegister n = true ∧ rsRegister n = false := by
  interval_cases n <;> exact ⟨rfl, rfl⟩

theorem wrsr_readOnly (n a : BitVec 8) : WritesReadOnly n a := by
  intro s c g k run h hwait hop hlow hhigh
  obtain ⟨hro, hrs⟩ := roRegister_of_range hlow hhigh
  have hcheck : checkWord { sr := [(a.toNat, 1)], priv := rsRegister n.toNat, bad := roRegister n.toNat } c g run =
      some { code := 0x03, lanes := c.lanes } := by
    simp [checkWord, hro, hrs, RoleClass.allows, Uses.operandBad]
  obtain ⟨own, he, -⟩ := exec_wrsr n a
  rw [he, issue, issueD_check h hwait hop hcheck]
  rfl

/-! ## What RDSR reads -/

theorem ofNat_toNat_word (w : Word) : BitVec.ofNat 32 w.toNat = w := by simp

/-- RBDEPTH by its fields: the joined level, the innermost level's routine and retries, and the depth (R411). -/
theorem rbdepth_eq (t : Team) : t.rbdepth = BitVec.ofNat 32 (
    (match t.levels.findIdx? (·.joined) with | some j => 2 ^ 24 + (j + 1) * 2 ^ 20 | none => 0) +
    (match t.levels.getLast? with | some l => l.routine % 16 * 2 ^ 16 + l.retry % 16 * 2 ^ 12 | none => 0) + t.levels.length) := by
  unfold Team.rbdepth
  cases t.levels.findIdx? (·.joined) <;> cases t.levels.getLast? <;> simp [Nat.add_assoc]

/-- RDSR reads of every register in the table the word that the table lays out (R159 to R165, R411). -/
theorem readSpecial_eq (t : Team) (g : Group) : ∀ e ∈ specialWords t g, BitVec.ofNat 32 e.2 = readSpecial t g e.1 := by
  simp only [specialWords, List.forall_mem_append, List.forall_mem_map, List.forall_mem_cons]
  refine ⟨⟨⟨?gstat, ofNat_toNat_word _, ofNat_toNat_word _, List.forall_mem_nil _⟩, ?fpcnt⟩, rfl, ofNat_toNat_word _, rfl, rfl,
    rfl, rfl, rfl, rfl, rfl, rfl, ?paramLow, ?paramHigh, ?rbdepth, ofNat_toNat_word _, ofNat_toNat_word _, ofNat_toNat_word _,
    ofNat_toNat_word _, ofNat_toNat_word _, ofNat_toNat_word _, ofNat_toNat_word _, ofNat_toNat_word _, List.forall_mem_nil _⟩
  case gstat => rfl
  case fpcnt =>
    intro i hi
    have hi := List.mem_range.1 hi
    interval_cases i <;> rfl
  case paramLow => exact BitVec.eq_of_toNat_eq (by simp [readSpecial])
  case paramHigh => exact BitVec.eq_of_toNat_eq (by simp [readSpecial, Nat.shiftRight_eq_div_pow])
  case rbdepth => exact (rbdepth_eq t).symm

/-- The table names every register up to 0x1D but CLOCK (R159). -/
theorem specialWords_keys (t : Team) (g : Group) : (specialWords t g).map (·.1) = (List.range 0x1E).filter (· != 0x0C) := rfl

/-- RDSR reads the word that the table lays out. -/
theorem readSpecial_of_table (t : Team) (g : Group) {n : Nat} (h : n ≤ 0x1D) (hclock : n ≠ 0x0C) :
    BitVec.ofNat 32 (((specialWords t g).find? (fun e => e.1 == n)).map (·.2) |>.getD 0) = readSpecial t g n := by
  have hkey : n ∈ (specialWords t g).map (·.1) := by
    rw [specialWords_keys]
    simpa using ⟨by omega, hclock⟩
  obtain ⟨e, he, rfl⟩ := List.mem_map.1 hkey
  obtain ⟨x, hx⟩ := Option.isSome_iff_exists.1 (List.find?_isSome (p := fun x => x.1 == e.1) |>.2 ⟨e, he, beq_self_eq_true e.1⟩)
  have hsame : x.1 = e.1 := by simpa using List.find?_some hx
  rw [hx, ← hsame]
  exact readSpecial_eq t g x (List.mem_of_find?_eq_some hx)

theorem withChannel_of_only {s : State} {c : Cur} {t : Team} (vals : List Nat) (ready : List Nat → Bool) (own : List Nat → State → Eff)
    (ht : s.teams.find c.team = some t) (hcopy : t.copy = .only) : withChannel c vals ready own s = own vals s := by
  simp [withChannel, ht, hcopy]

theorem rdsr_holds (d n : BitVec 8) (h : n.toNat ≤ 0x1D) : AllHold (.rdsr d n) (rdsrClaims d n) := by
  by_cases hclock : n = 0x0C
  · subst hclock
    rw [rdsrClaims, if_pos rfl, ← odd_eq]
    refine List.forall_mem_singleton.2 (claim_holds_done _ (fun s => rfl) fun s c g run hg hm => ?_)
    obtain ⟨t, ht, hcopy, -⟩ := exists_team_of_soloTeam hm
    exact withChannel_of_only _ _ _ ht hcopy
  · have hne : n.toNat ≠ 0x0C := fun e => hclock (BitVec.eq_of_toNat_eq e)
    rw [rdsrClaims, if_neg hclock]
    refine List.forall_mem_singleton.2 (claim_holds_done _ (fun s => (if_neg hclock).trans rfl) fun s c g run hg _ => ?_)
    obtain ⟨t, ht⟩ := team_of_group hg
    simp only [ht, byTeam_of_find ht, readSpecial_of_table t g h hne]

/-- Settles O3: RDSR reads the entry of its register in specialWords, and WRSR writes as the entry of its register in specialWrites says. -/
theorem specialRegistersAreReadAndWritten : Obligations.SpecialRegistersAreReadAndWritten := ⟨rdsr_holds, wrsr_holds, wrsr_readOnly⟩

end Sys2Proof.Machine
end

section
/-! SUPPORT. The scalar words (R155 to R157): each word's function as the spec's tables write it, in terms of integers, and the words'
encodings. -/

namespace Sys2Proof.Machine

/-! ## Words that change the group's register files only -/

/-- A word that changes the files by a function that is the claim's, written in another way. -/
theorem files_holds {i : Instr} {u : Uses} {f f' : RegFile → RegFile} (he : ∀ s, exec i s = issueFiles u f s) (hf : ∀ r, f r = f' r) :
    (does u (onFiles (fun _ _ => f'))).Holds i :=
  claim_holds_done _ he fun _ _ _ _ _ _ => by rw [funext hf]; rfl

/-- A word computes S(D) = f(S(A), S(B)) (R155). -/
def Computes3 (i : Word3) (f : Word → Word → Word) : Prop :=
  ∃ f', (∀ d a b s, exec (i d a b) s = scalarOp f' d a b s) ∧ ∀ x y, f' x y = f x y

/-- A word computes S(D) = f(S(A)) (R157). -/
def Computes2 (i : Word2) (f : Word → Word) : Prop := ∃ f', (∀ d a s, exec (i d a) s = scalarUnary f' d a s) ∧ ∀ x, f' x = f x

/-! ## The functions of the words -/

theorem sub_eq_ofInt (x y : Word) : x - y = BitVec.ofInt 32 (x.toInt - y.toInt) :=
  BitVec.eq_of_toInt_eq (by simp [BitVec.toInt_sub])

theorem shiftLeft_eq_ofNat {n : Nat} (x : BitVec n) (k : Nat) : x <<< k = BitVec.ofNat n (x.toNat * 2 ^ k) :=
  BitVec.eq_of_toNat_eq (by simp [Nat.shiftLeft_eq])

theorem ushiftRight_eq_ofNat {n : Nat} (x : BitVec n) (k : Nat) : x >>> k = BitVec.ofNat n (x.toNat / 2 ^ k) := by
  refine BitVec.eq_of_toNat_eq ?_
  rw [BitVec.toNat_ushiftRight, Nat.shiftRight_eq_div_pow, BitVec.toNat_ofNat, Nat.mod_eq_of_lt]
  exact (Nat.div_le_self _ _).trans_lt x.isLt

theorem sshiftRight_eq_ofInt {n : Nat} (x : BitVec n) (k : Nat) : x.sshiftRight k = BitVec.ofInt n (x.toInt / 2 ^ k) := by
  rw [BitVec.sshiftRight, Int.shiftRight_eq_div_pow]
  norm_cast

/-- A word that is smaller or larger as a number is the word of the smaller or larger number. -/
theorem ite_toInt_eq_min (x y : Word) : (if x.toInt ≤ y.toInt then x else y) = BitVec.ofInt 32 (min x.toInt y.toInt) := by
  rw [min_def]
  split <;> simp

theorem ite_toInt_eq_max (x y : Word) : (if x.toInt ≤ y.toInt then y else x) = BitVec.ofInt 32 (max x.toInt y.toInt) := by
  rw [max_def]
  split <;> simp

theorem ite_toNat_eq_min (x y : Word) : (if x.toNat ≤ y.toNat then x else y) = BitVec.ofNat 32 (min x.toNat y.toNat) := by
  rw [min_def]
  split <;> simp

theorem ite_toNat_eq_max (x y : Word) : (if x.toNat ≤ y.toNat then y else x) = BitVec.ofNat 32 (max x.toNat y.toNat) := by
  rw [max_def]
  split <;> simp

theorem boolWord_decide (p : Prop) [Decidable p] : boolWord (decide p) = if p then 1 else 0 := by
  by_cases hp : p <;> simp [boolWord, hp]

/-- The leading zeros of a word (R157). -/
theorem leadZeros_word (x : Word) : leadZeros 32 x.toNat = if x.toNat = 0 then 32 else 31 - Nat.log2 x.toNat := by
  simp [leadZeros, Nat.mod_eq_of_lt x.isLt]

/-- The reversed bits of a number, as the sum of its bits at their new places (R157). -/
theorem bitRev_eq_sum (n w : Nat) : bitRev n w = ((List.range n).map (fun i => w / 2 ^ i % 2 * 2 ^ (n - 1 - i))).sum := by
  have hbit (i : Nat) : (if natBit w i then 2 ^ (n - 1 - i) else 0) = w / 2 ^ i % 2 * 2 ^ (n - 1 - i) := by
    rcases Nat.mod_two_eq_zero_or_one (w / 2 ^ i) with h | h <;> simp [natBit, h]
  rw [List.sum_eq_foldl, List.foldl_map, bitRev]
  simp only [hbit]

/-- A word with its low half kept and a new high half (R156). -/
theorem low_or_high_eq (x : Word) (i : BitVec 16) :
    (x &&& 0xFFFF) ||| (i.setWidth 32 <<< 16) = BitVec.ofNat 32 (x.toNat % 65536 + 65536 * i.toNat) := by
  have hx : x.toNat % 65536 < 2 ^ 16 := Nat.mod_lt _ (by decide)
  have hi := i.isLt
  have hlow : (x &&& (0xFFFF : Word)).toNat = x.toNat % 65536 := by
    rw [wdcfg_mask, natBits, BitVec.toNat_ofNat]
    omega
  have hhigh : (i.setWidth 32 <<< 16 : Word).toNat = 2 ^ 16 * i.toNat := by
    rw [BitVec.toNat_shiftLeft, BitVec.toNat_setWidth, Nat.shiftLeft_eq]
    omega
  refine BitVec.eq_of_toNat_eq ?_
  change (x &&& (0xFFFF : Word) ||| (i.setWidth 32 <<< 16 : Word)).toNat = _
  rw [BitVec.toNat_or, hlow, hhigh, Nat.or_comm, ← Nat.two_pow_add_eq_or_of_lt hx, BitVec.toNat_ofNat]
  omega

theorem add_signExtend_eq (x : Word) (i : BitVec 16) : x + i.signExtend 32 = BitVec.ofInt 32 (x.toInt + i.toInt) :=
  BitVec.eq_of_toInt_eq (by simp [BitVec.toInt_add, BitVec.signExtend])

/-- The field that the pending immediate names (R157). -/
theorem fieldOf_eq (run : Run) : fieldOf run = fieldImm run := by
  unfold fieldOf fieldImm
  cases run.imm with
  | none => rfl
  | some i =>
    have hi := i.isLt
    have hiff : (i.toNat < 2048 ∧ 1 ≤ i.toNat / 32 ∧ i.toNat % 32 + i.toNat / 32 ≤ 32) ↔
        ¬(natBits i.toNat 11 21 ≠ 0 ∨ natBits i.toNat 5 6 = 0 ∨ 32 < natBits i.toNat 5 6 ∨
          32 < natBits i.toNat 0 5 + natBits i.toNat 5 6) := by
      simp only [natBits]
      omega
    simp only [hiff, ite_not]
    split
    · rfl
    next hfit =>
      have hpos : natBits i.toNat 0 5 = i.toNat % 32 := by simp [natBits]
      have hlen : natBits i.toNat 5 6 = i.toNat / 32 := by
        have := (hiff.2 hfit).1
        simp only [natBits]
        omega
      rw [hpos, hlen]

theorem shiftRight_by_kind (v : DWord) (k : Nat) (x : BitVec 1) : (if x = 1 then v.sshiftRight k else v >>> k) =
    BitVec.ofInt 64 ((if x = 1 then v.toInt else (v.toNat : Int)) / 2 ^ k) := by
  split
  · exact sshiftRight_eq_ofInt v k
  · rw [ushiftRight_eq_ofNat]
    norm_cast

/-! ### The tables -/

/-- Every word of one source computes its function (R157). -/
theorem scalar2_computes : ∀ e ∈ scalar2, Computes2 e.1 e.2 := by
  simp only [scalar2, List.forall_mem_cons]
  refine ⟨?spopc, ?sclz, ?sbrev, List.forall_mem_nil _⟩
  case spopc => exact ⟨_, fun d a s => show execSpopc d a s = _ from rfl, fun x => rfl⟩
  case sclz => exact ⟨_, fun d a s => show execSclz d a s = _ from rfl, fun x => congrArg (BitVec.ofNat 32) (leadZeros_word x)⟩
  case sbrev => exact ⟨_, fun d a s => show execSbrev d a s = _ from rfl, fun x => congrArg (BitVec.ofNat 32) (bitRev_eq_sum 32 x.toNat)⟩

/-- Every word of two sources computes its function (R155). -/
theorem scalar3_computes : ∀ e ∈ scalar3, Computes3 e.1 e.2 := by
  simp only [scalar3, List.forall_mem_cons]
  refine ⟨?sadd, ?ssub, ?smul, ?smulh, ?sand, ?sor, ?sxor, ?sandn, ?sshl,
    ?sshr, ?ssar, ?srot, ?smin, ?smax, ?sminu, ?smaxu, ?sseq,
    ?ssne, ?sslt, ?ssltu, ?ssle, ?ssleu, List.forall_mem_nil _⟩
  case sadd => exact ⟨_, fun d a b s => show execSadd d a b s = _ from rfl, fun x y => BitVec.eq_of_toNat_eq (by simp)⟩
  case ssub => exact ⟨_, fun d a b s => show execSsub d a b s = _ from rfl, fun x y => sub_eq_ofInt x y⟩
  case smul => exact ⟨_, fun d a b s => show execSmul d a b s = _ from rfl, fun x y => BitVec.eq_of_toNat_eq (by simp)⟩
  case smulh => exact ⟨_, fun d a b s => show execSmulh d a b s = _ from rfl, fun x y => rfl⟩
  case sand => exact ⟨_, fun d a b s => show execSand d a b s = _ from rfl, fun x y => rfl⟩
  case sor => exact ⟨_, fun d a b s => show execSor d a b s = _ from rfl, fun x y => rfl⟩
  case sxor => exact ⟨_, fun d a b s => show execSxor d a b s = _ from rfl, fun x y => rfl⟩
  case sandn => exact ⟨_, fun d a b s => show execSandn d a b s = _ from rfl, fun x y => rfl⟩
  case sshl => exact ⟨_, fun d a b s => show execSshl d a b s = _ from rfl, fun x y => shiftLeft_eq_ofNat x _⟩
  case sshr => exact ⟨_, fun d a b s => show execSshr d a b s = _ from rfl, fun x y => ushiftRight_eq_ofNat x _⟩
  case ssar => exact ⟨_, fun d a b s => show execSsar d a b s = _ from rfl, fun x y => sshiftRight_eq_ofInt x _⟩
  case srot => exact ⟨_, fun d a b s => show execSrot d a b s = _ from rfl, fun x y => rfl⟩
  case smin => exact ⟨_, fun d a b s => show execSmin d a b s = _ from rfl, fun x y => ite_toInt_eq_min x y⟩
  case smax => exact ⟨_, fun d a b s => show execSmax d a b s = _ from rfl, fun x y => ite_toInt_eq_max x y⟩
  case sminu => exact ⟨_, fun d a b s => show execSminu d a b s = _ from rfl, fun x y => ite_toNat_eq_min x y⟩
  case smaxu => exact ⟨_, fun d a b s => show execSmaxu d a b s = _ from rfl, fun x y => ite_toNat_eq_max x y⟩
  case sseq => exact ⟨_, fun d a b s => show execSseq d a b s = _ from rfl, fun x y => boolWord_decide (x = y)⟩
  case ssne => exact ⟨_, fun d a b s => show execSsne d a b s = _ from rfl, fun x y => by by_cases h : x = y <;> simp [boolWord, h]⟩
  case sslt => exact ⟨_, fun d a b s => show execSslt d a b s = _ from rfl, fun x y => boolWord_decide _⟩
  case ssltu => exact ⟨_, fun d a b s => show execSsltu d a b s = _ from rfl, fun x y => boolWord_decide _⟩
  case ssle => exact ⟨_, fun d a b s => show execSsle d a b s = _ from rfl, fun x y => boolWord_decide _⟩
  case ssleu => exact ⟨_, fun d a b s => show execSsleu d a b s = _ from rfl, fun x y => boolWord_decide _⟩

/-! ### The words beside the tables -/

theorem scalarPairs_hold : ∀ e ∈ scalarPairs, ∀ d a, (does (pairUses d a)
    (onFiles (fun _ _ r => r.setS64 d.toNat (BitVec.ofNat 64 (e.2 (r.S64 d.toNat) (r.S64 a.toNat)))))).Holds (e.1 d a) := by
  have huses (d a : BitVec 8) : pairUses d a =
      { sr := [(a.toNat, 2), (d.toNat, 2)], sw := [(d.toNat, 2)], bad := odd d || odd a } := by
    simp [pairUses, odd_eq]
  simp only [scalarPairs, List.forall_mem_cons, huses]
  refine ⟨fun d a => files_holds (fun s => show execSadd64 d a s = _ from rfl) fun r => ?sadd64,
    fun d a => files_holds (fun s => show execSsub64 d a s = _ from rfl) fun r => ?ssub64, List.forall_mem_nil _⟩
  all_goals refine congrArg (r.setS64 d.toNat) (BitVec.eq_of_toNat_eq ?_)
  case sadd64 => simp
  case ssub64 => simp [BitVec.toNat_sub, Nat.add_comm]

theorem smov_holds (d a b : BitVec 8) : AllHold (.smov d a b) (smovClaims d a b) :=
  List.forall_mem_singleton.2 (claim_holds_done _ (fun s => show execSmov d a b s = _ from rfl) fun _ _ _ _ _ _ => rfl)

theorem sbfe_holds (d a : BitVec 8) (x : BitVec 1) : AllHold (.sbfe d a x) (sbfeClaims d a x) := by
  unfold sbfeClaims
  simp only [fieldOf_eq]
  refine List.forall_mem_singleton.2 (claim_holds_done _ (fun s => show execSbfe d a x s = _ from rfl) fun s c g run _ hm => ?_)
  simp [onFiles, extractField, natBits]

theorem sbfi_holds (d a : BitVec 8) : AllHold (.sbfi d a) (sbfiClaims d a) := by
  unfold sbfiClaims
  simp only [fieldOf_eq]
  refine List.forall_mem_singleton.2 (claim_holds_done _ (fun s => show execSbfi d a s = _ from rfl) fun s c g run _ hm => ?_)
  simp [onFiles, insertField, natBits]

theorem ssel_holds (d a b : BitVec 8) : AllHold (.ssel d a b) (sselClaims d a b) :=
  List.forall_mem_singleton.2 (files_holds (fun s => show execSsel d a b s = _ from rfl) fun r => by rw [ite_not])

theorem sli_holds (d : BitVec 8) (i : BitVec 16) : AllHold (.sli d i) (sliClaims d i) :=
  List.forall_mem_singleton.2 (files_holds (fun s => show execSli d i s = _ from rfl) fun _ => rfl)

theorem sliu_holds (d : BitVec 8) (i : BitVec 16) : AllHold (.sliu d i) (sliuClaims d i) :=
  List.forall_mem_singleton.2 (files_holds (fun s => show execSliu d i s = _ from rfl) fun r => by rw [BitVec.ofNat_toNat])

theorem slih_holds (d : BitVec 8) (i : BitVec 16) : AllHold (.slih d i) (slihClaims d i) :=
  List.forall_mem_singleton.2 (files_holds (fun s => show execSlih d i s = _ from rfl) fun r => by rw [low_or_high_eq])

theorem saddi_holds (d : BitVec 8) (i : BitVec 16) : AllHold (.saddi d i) (saddiClaims d i) :=
  List.forall_mem_singleton.2 (files_holds (fun s => show execSaddi d i s = _ from rfl) fun r => by rw [add_signExtend_eq])

theorem smovh_holds (h a : BitVec 8) : AllHold (.smovh h a) (smovhClaims h a) :=
  List.forall_mem_singleton.2 (files_holds (fun s => show execSmovh h a s = _ from rfl) fun _ => rfl)

theorem smovl_holds (d h : BitVec 8) : AllHold (.smovl d h) (smovlClaims d h) :=
  List.forall_mem_singleton.2 (files_holds (fun s => show execSmovl d h s = _ from rfl) fun _ => rfl)

theorem sshl64_holds (d a : BitVec 8) : AllHold (.sshl64 d a) (sshl64Claims d a) := by
  rw [sshl64Claims, ← odd_eq]
  exact List.forall_mem_singleton.2 (files_holds (fun s => show execSshl64 d a s = _ from rfl) fun r => by rw [shiftLeft_eq_ofNat])

theorem sshr64_holds (d a : BitVec 8) (x : BitVec 1) : AllHold (.sshr64 d a x) (sshr64Claims d a x) := by
  rw [sshr64Claims, ← odd_eq]
  exact List.forall_mem_singleton.2 (files_holds (fun s => show execSshr64 d a x s = _ from rfl) fun r =>
    congrArg (r.setS64 d.toNat) (shiftRight_by_kind _ _ x))

theorem smulw_holds (d a : BitVec 8) (x : BitVec 1) : AllHold (.smulw d a x) (smulwClaims d a x) := by
  rw [smulwClaims, ← odd_eq]
  exact List.forall_mem_singleton.2 (files_holds (fun s => show execSmulw d a x s = _ from rfl) fun _ => rfl)

/-! ## Encodings (R155, R156) -/

/-- A word of three register fields is put together from its top byte and the fields. -/
theorem decodeWord_wordA {i : Instr} {top : Nat} {d a b : BitVec 8} (hword : i.isWord = true) (hwf : WellFormed i)
    (h : encodeWord i = asm (top * 2 ^ 24) [(d.toNat, 16), (a.toNat, 8), (b.toNat, 0)]) : decodeWord (wordA top d a b) = .ok i := by
  rw [← decodeWord_encodeWord hword hwf, h]
  simp [asm, wordA]

/-- A word of a register field and an immediate is put together from its top byte and the fields. -/
theorem decodeWord_imm {i : Instr} {top : Nat} {d : BitVec 8} {k : BitVec 16} (hword : i.isWord = true) (hwf : WellFormed i)
    (h : encodeWord i = asm (top * 2 ^ 24) [(d.toNat, 16), (k.toNat, 0)]) :
    decodeWord (top * 2 ^ 24 + d.toNat * 2 ^ 16 + k.toNat) = .ok i := by
  rw [← decodeWord_encodeWord hword hwf, h]
  simp [asm]

theorem decodeWord_scalar3 : ∀ e ∈ scalar3.zipIdx, ∀ d a b, decodeWord (wordA (0x20 + e.2) d a b) = .ok (e.1.1 d a b) := by
  intro e he d a b
  fin_cases he
  all_goals exact decodeWord_wordA rfl rfl rfl

theorem decodeWord_scalarImms : ∀ e ∈ scalarImms.zipIdx, ∀ (d : BitVec 8) (k : BitVec 16),
    decodeWord ((0x38 + e.2) * 2 ^ 24 + d.toNat * 2 ^ 16 + k.toNat) = .ok (e.1 d k) := by
  intro e he d k
  fin_cases he
  all_goals exact decodeWord_imm rfl rfl rfl

theorem decodeWord_ssel_smov (d a b : BitVec 8) :
    decodeWord (wordA 0x36 d a b) = .ok (.ssel d a b) ∧ decodeWord (wordA 0x37 d a b) = .ok (.smov d a b) :=
  ⟨decodeWord_wordA rfl rfl rfl, decodeWord_wordA rfl rfl rfl⟩

/-- Settles O1: every word changes the files alone, by the function that its table gives; the encodings come from decodeWord_encodeWord. -/
theorem scalarWordsWriteTheirResult : Obligations.ScalarWordsWriteTheirResult := by
  refine ⟨fun e he d a b => ?scalar3, fun e he d a => ?scalar2, scalarPairs_hold, smov_holds, sbfe_holds, sbfi_holds, ssel_holds,
    sli_holds, sliu_holds, slih_holds, saddi_holds, smovh_holds, smovl_holds, sshl64_holds, sshr64_holds, smulw_holds,
    decodeWord_scalar3, decodeWord_ssel_smov, decodeWord_scalarImms⟩
  case scalar3 =>
    obtain ⟨f, hexec, hf⟩ := scalar3_computes e he
    exact files_holds (hexec d a b) fun r => by rw [hf]
  case scalar2 =>
    obtain ⟨f, hexec, hf⟩ := scalar2_computes e he
    exact files_holds (hexec d a) fun r => by rw [hf]

end Sys2Proof.Machine
end

section
/-! SUPPORT. Delivery of a fault: what the translation of the record's address and the operations that are left behind leave to the
teams, and a group at trap entry (R187, R189). -/

namespace Sys2Proof.Machine

/-! ## What a translation leaves to the teams -/

theorem wakeSliceBank_teams (s : State) (b : Nat) : (s.wakeSliceBank b).2.teams = s.teams := by
  unfold State.wakeSliceBank
  cases s.sliceRet.getD b .active <;> rfl

theorem wakeAll_teams (s : State) (vc : Nat) (pas : List Nat) : (s.wakeAll vc pas).2.teams = s.teams :=
  List.foldlRecOn (motive := fun (x : Bool × State) => x.2.teams = s.teams) pas _ rfl
    fun x hx pa _ => (wakeSliceBank_teams x.2 (bankOf x.2 vc pa)).trans hx

theorem tlbHit_teams (s : State) (core ctx : Nat) (va : DWord) : (tlbHit s core ctx va).2.teams = s.teams := by
  have hf : s.free.2.teams = s.teams := rfl
  simp only [tlbHit]
  split
  · rfl
  · rcases hx : s.free with ⟨n, x⟩
    rw [hx] at hf
    by_cases hn : n % 2 = 0 <;> simpa [hn] using hf

/-- A walk writes the pointer cache of its cluster, takes a free value, and wakes banks. -/
theorem clusterWalk_teams (s : State) (cluster ctx : Nat) (va : DWord) (need : Need) :
    (clusterWalk s cluster ctx va need).2.teams = s.teams := by
  have hfree : ∀ b : Bool, (if b then (0, s) else s.free).2.teams = s.teams := by rintro (_ | _) <;> rfl
  simp only [clusterWalk]
  split
  · rfl
  · split
    all_goals
      rename_i hwake
      have hteams := congrArg (·.2.teams) hwake
      simp only [wakeAll_teams, hfree] at hteams
      exact hteams.symm

theorem translate_teams (s : State) (core ctx : Nat) (va : DWord) (need : Need) :
    (translate s core ctx va need).2.teams = s.teams := by
  have ht := tlbHit_teams s core ctx va
  unfold translate
  rcases htlb : tlbHit s core ctx va with ⟨_ | e, x⟩ <;> rw [htlb] at ht
  · have hw := clusterWalk_teams x (walkerOf core) ctx va need
    rcases hwalk : clusterWalk x (walkerOf core) ctx va need with ⟨_ | ⟨w, b⟩, y⟩ <;> rw [hwalk] at hw
    · simpa [hwalk] using hw.trans ht
    · cases w <;> simpa [hwalk, State.keepLeaf] using hw.trans ht
  · exact ht

/-! ## What the operations that are left behind leave to the teams (R187 step 1) -/

/-- What becomes of one operation that a dropped gang waited at. -/
def abandonOp (s : State) (op : Nat) : State :=
  match s.ops.find op with
  | some o => (match o.body with
    | .mem m => s.putOp { o with body := .mem m.abandon }
    | .fetch _ => { s with ops := s.ops.del op }
    | _ => s)
  | none => s

/-- The operations that one dropped gang waited at. -/
def abandonGang (s : State) (k : Gang) : State :=
  let s := match k.run.bind (·.op) with | some op => abandonOp s op | none => s
  match k.wait with
  | .translate op => abandonOp s op
  | .replay op => abandonOp s op
  | .parked op => abandonOp s op
  | .timer op _ => abandonOp s op
  | _ => s

theorem abandonOps_eq (s : State) (g : Group) : s.abandonOps g = g.gangs.foldl abandonGang s := rfl

theorem abandonOp_teams (s : State) (op : Nat) : (abandonOp s op).teams = s.teams := by
  unfold abandonOp
  split
  · split <;> rfl
  · rfl

theorem abandonGang_teams (s : State) (k : Gang) : (abandonGang s k).teams = s.teams := by
  have hrun : (match k.run.bind (·.op) with | some op => abandonOp s op | none => s).teams = s.teams := by
    split
    · exact abandonOp_teams s _
    · rfl
  unfold abandonGang
  cases k.wait
  case translate | replay | parked | timer => exact (abandonOp_teams _ _).trans hrun
  all_goals exact hrun

theorem abandonOps_teams (s : State) (g : Group) : (s.abandonOps g).teams = s.teams := by
  rw [abandonOps_eq]
  exact List.foldlRecOn (motive := fun x => x.teams = s.teams) g.gangs _ rfl fun x hx k _ => (abandonGang_teams x k).trans hx

/-! ## A group at trap entry (R187 steps 1, 3 and 4, R189) -/

/-- What a run that is abandoned will still write, as pending ranges of its group (R88, R187 step 1). -/
def Group.leftPending (g : Group) (k : Gang) : List PendRange :=
  match k.run with
  | some r => if g.flagCount r.fa = 0 then [] else r.dests.map (fun d => ⟨r.fa, d.scalar, d.reg, 1⟩)
  | none => []

/-- The group without the runs of its gangs. -/
def Group.dropRuns (g : Group) : Group :=
  g.gangs.foldl (fun g k => match k.run with | some r => g.abandonRun r | none => g) g

theorem foldl_abandonRun (ks : List Gang) (g : Group) :
    ks.foldl (fun g k => match k.run with | some r => g.abandonRun r | none => g) g =
      { g with loose := g.loose ++ ks.flatMap g.leftPending } := by
  induction ks generalizing g with
  | nil => simp
  | cons k ks ih =>
    rw [List.foldl_cons, ih]
    rcases hr : k.run with _ | r
    · simp [Group.leftPending, hr]
    · by_cases hf : g.flagCount r.fa = 0
      · simp [Group.leftPending, Group.abandonRun, hr, hf]
      · simp only [Group.leftPending, Group.abandonRun, hr, hf, List.flatMap_cons, List.append_assoc, if_false]
        rfl

theorem dropRuns_eq (g : Group) : g.dropRuns = { g with loose := g.loose ++ g.gangs.flatMap g.leftPending } :=
  foldl_abandonRun g.gangs g

/-- A slice at the handler: one unit with every lane that has not finished. -/
def Slice.atHandler (sl : Slice) (pc via : DWord) (gang : Nat) : Slice :=
  { dual := false, b := PathUnit.empty, rj := 0, stack := [],
    a := { pc := pc, via := via, mask := sl.live, ret := [], st := if sl.live = 0 then .finished else .ready, gang := gang } }

/-- A group that starts again has one gang; it drops its runs unless a shadow keeps them. -/
theorem restart_eq (g : Group) (pc via : DWord) (now : Nat) (kept : Bool) :
    ∃ n, g.restart pc via now kept =
      { (if kept then g else g.dropRuns) with
        slices := g.slices.map (fun sl => sl.atHandler pc via g.gangCtr), gangCtr := g.gangCtr + 1,
        gangs := [Gang.new g.gangCtr n] } := ⟨_, rfl⟩

/-- The group that `deliver` leaves at the handler. -/
def Group.enterTrap (g : Group) (pc : DWord) (gang now : Nat) (r : Record) : Group :=
  { g.restart pc r.iaddr now g.sysmode with
    intrap := true, shadow := if g.sysmode then some (g.toShadow gang r.iaddr r.lanes) else g.shadow }

/-- A group that takes a trap meets the statement's predicate, whatever its FIFO has taken before. -/
theorem trapEntered_enterTrap (t : Team) (g : Group) (fifo : List Block) (gang now : Nat) (r : Record) :
    TrapEntered t g (({ g with fifo := fifo } : Group).enterTrap t.handler gang now r) gang r.lanes r.iaddr ∧
      (({ g with fifo := fifo } : Group).enterTrap t.handler gang now r).fifo = fifo := by
  obtain ⟨n, hn⟩ := restart_eq { g with fifo := fifo } t.handler r.iaddr now g.sysmode
  simp only [Group.enterTrap, hn, dropRuns_eq]
  cases hs : g.sysmode with
  | true => exact ⟨⟨rfl, ⟨n, rfl⟩, rfl, by rw [hs]; rfl, by rw [hs]; rfl, by rw [hs]; rfl⟩, rfl⟩
  | false => exact ⟨⟨rfl, ⟨n, rfl⟩, rfl, by rw [hs]; rfl, by rw [hs]; rfl, by rw [hs]; rfl⟩, rfl⟩

theorem enterTrap_id (g : Group) (pc : DWord) (gang now : Nat) (r : Record) : (g.enterTrap pc gang now r).id = g.id := by
  obtain ⟨n, hn⟩ := restart_eq g pc r.iaddr now g.sysmode
  simp only [Group.enterTrap, hn, dropRuns_eq]
  split <;> rfl

/-! ## Delivery by the state of the group (R187, R189) -/

section
variable {s : State} {t : Team} {g : Group} {gang : Nat} {r : Record}

theorem group?_of_team (ht : s.teams.find t.id = some t) (hg : t.group? g.id = some g) : s.group? t.id g.id = some g := by
  simp [State.group?, ht, hg]

theorem group?_of_teams {x : State} (h : x.teams = s.teams) (i j : Nat) : x.group? i j = s.group? i j := by
  simp [State.group?, h]

/-- A group with one more block in its FIFO. -/
def Group.pushBlock (g : Group) (b : Block) : Group := { g with fifo := g.fifo ++ [b] }

/-- The record of a team of one copy goes into the group's FIFO (R187 step 2). -/
theorem storeRecord_of_only {l : Leaf} {s1 : State} (hr : r.group = g.id) (hc : t.copy = .only)
    (htr : translate s g.core t.ctx g.recordAddr .store = (.ok l, s1)) :
    storeRecord s t g r = some (({ s1 with opCtr := s1.opCtr + 1 } : State).onGroup t.id g.id
      (fun x => x.pushBlock (recordBlock t l g.recordAddr r s1.opCtr s1.clock))) := by
  simp only [storeRecord, htr, Team.paired, hc, recordBlock, hr]
  rfl

/-- A usable handler is entered when the record's store goes out (R187 steps 1 to 4). -/
theorem deliver_of_stored {x : State} (ht : s.teams.find t.id = some t) (hg : t.group? g.id = some g)
    (hsh : g.sysmode = true → g.shadow = none) (hv : t.trapvec ≠ 0) (hi : g.intrap = false) (ha : g.recordAddr ≠ 0)
    (hx : storeRecord s t g r = some x) :
    ∃ y : State, y.teams = x.teams ∧ deliver s t.id g.id gang r =
      y.onGroup t.id g.id (fun z => z.enterTrap t.handler gang y.now r) := by
  have hno : ¬ (g.sysmode = true ∧ g.shadow.isSome = true) := fun h => by simp [hsh h.1] at h
  refine ⟨if g.sysmode then x else x.abandonOps g, ?_, ?_⟩
  · split
    · rfl
    · exact abandonOps_teams x g
  · simp only [deliver, ht, group?_of_team ht hg, hno, hv, hi, ha, hx, if_false, ne_eq, not_false_eq_true,
      Bool.false_eq_true, and_self, if_true]
    rfl

/-- Without a usable handler the team ends and the record is posted, with DOUBLE where a handler was running (R187). -/
theorem deliver_of_unusable (ht : s.teams.find t.id = some t) (hg : t.group? g.id = some g)
    (hsh : g.sysmode = true → g.shadow = none) (hu : t.trapvec = 0 ∨ g.intrap = true ∨ g.recordAddr = 0) :
    deliver s t.id g.id gang r =
      terminateTeam (postTeam (s.onGroup t.id g.id (fun x => x.onGang gang (fun k => { k with wait := .halted })))
        t 0 { r with double := g.intrap }) t.id := by
  have hno : ¬ (g.sysmode = true ∧ g.shadow.isSome = true) := fun h => by simp [hsh h.1] at h
  have hunusable : ¬ (t.trapvec ≠ 0 ∧ ¬ g.intrap = true ∧ g.recordAddr ≠ 0) := by tauto
  simp only [deliver, ht, group?_of_team ht hg, hno, hunusable, if_false, decide_false, Bool.or_false]

/-- A fault in system mode while a shadow is held halts the command core (R189). -/
theorem deliver_of_shadow (ht : s.teams.find t.id = some t) (hg : t.group? g.id = some g) (hs : g.sysmode = true)
    (hsh : g.shadow.isSome = true) :
    deliver s t.id g.id gang r =
      ({ s with mgmt := { s.mgmt with halted := insertRising s.mgmt.halted t.core } } : State).watchCommand t.core := by
  simp only [deliver, ht, group?_of_team ht hg, hs, hsh, and_self, if_true]

end

/-- Settles O41: a usable handler is entered behind the record's store, whatever the translation and the abandoned operations do
beside the teams; otherwise the team ends, and under a shadow the command core halts. -/
theorem faultsAreDelivered : Obligations.FaultsAreDelivered := by
  refine ⟨fun s t g gang r l s1 ht hg hr hsh hv hi ha hc htr => ?_, fun s t g gang r ht hg hsh hu => ?_,
    fun s t g gang r ht hg hs hsh => ?_⟩
  · obtain ⟨y, hy, hd⟩ := deliver_of_stored (gang := gang) ht hg hsh hv hi ha (storeRecord_of_only hr hc htr)
    have hs1 : ({ s1 with opCtr := s1.opCtr + 1 } : State).teams = s.teams := by
      simpa [htr] using translate_teams s g.core t.ctx g.recordAddr .store
    have hstored : y.group? t.id g.id = some (g.pushBlock (recordBlock t l g.recordAddr r s1.opCtr s1.clock)) := by
      rw [group?_of_teams hy, State.group_onGroup _ _ _ (fun x => x.pushBlock _) (fun _ h => h), group?_of_teams hs1,
        group?_of_team ht hg]
      rfl
    refine ⟨_, ?_, trapEntered_enterTrap t g (g.fifo ++ [recordBlock t l g.recordAddr r s1.opCtr s1.clock]) gang y.now r⟩
    rw [hd, State.group_onGroup _ _ _ _ (fun z hz => (enterTrap_id z _ _ _ _).trans hz), hstored]
    rfl
  · exact deliver_of_unusable ht hg hsh hu
  · rw [deliver_of_shadow ht hg hs hsh]
    exact ⟨rfl, rfl⟩

end Sys2Proof.Machine
end

section
/-! SUPPORT. EXIT where its group's number is no other group's: the claim that O6 states is then what the model does (R175). -/

namespace Sys2Proof.Machine

theorem Map.put_put {α : Type} (m : Map α) (k : Nat) (v w : α) : (m.put k v).put k w = m.put k w := by
  induction m with
  | nil => simp [Map.put]
  | cons e m ih =>
    obtain ⟨j, x⟩ := e
    by_cases hk : k = j
    · simp [Map.put, hk]
    · by_cases hl : k < j <;> simp [Map.put, hk, hl, ih]

/-- The claim of an EXIT outside every level whose slots rejoin well. -/
def exitClaim : Claim :=
  jumps {} (fun c g _ s => s.onCur c (fun _ =>
    { g.exitUnits c.units with slices := (g.exitUnits c.units).slices.map (fun (sl : Slice) => sl.merge.getD sl) }))
    (soloTeam (fun t c g _ _ => t.levels.isEmpty && decide ((g.exitUnits c.units).badMerge = 0)))

theorem exitClaim_mem : exitClaim ∈ exitClaims := List.mem_cons_self

variable {s : State} {c : Cur} {g : Group} {k : Gang} {run : Run}

/-- Two changes of the issuing group after one another are one. -/
theorem State.onCur_onCur (f h : Group → Group) (hf : ∀ x, x.id = c.group → (f x).id = c.group) :
    (s.onCur c f).onCur c h = s.onCur c (fun x => h (f x)) := by
  cases ht : s.teams.find c.team with
  | none => simp [State.onCur, State.onGroup, ht]
  | some t =>
    simp only [State.onCur, State.onGroup, ht, State.putTeam, Map.find_put_self, Map.put_put, List.map_map]
    congr 4
    funext x
    by_cases hx : x.id = c.group <;> simp [hx, hf]

/-- A change of the issuing group is what it makes of the groups with its number. -/
theorem State.onCur_congr {f h : Group → Group}
    (hfh : ∀ t x, s.teams.find c.team = some t → x ∈ t.groups → x.id = c.group → f x = h x) : s.onCur c f = s.onCur c h := by
  cases ht : s.teams.find c.team with
  | none => simp [State.onCur, State.onGroup, ht]
  | some t =>
    simp only [State.onCur, State.onGroup, ht]
    congr 2
    refine List.map_congr_left fun x hx => ?_
    by_cases hid : x.id = c.group <;> simp [hid, hfh t x ht hx]

theorem exitUnits_id (g : Group) (us : List (Nat × Bool)) : (g.exitUnits us).id = g.id :=
  List.foldlRecOn (motive := fun (x : Group) => x.id = g.id) us _ rfl fun x hx u _ => by
    split
    · exact hx
    · exact hx

/-- EXIT's own effect (R175). -/
def exitEffect (c : Cur) (s : State) : Eff :=
  if s.levelOpen c then .fault { code := 0x03, datum := 0x81, lanes := c.lanes } s
  else markEvent c eventEnd [] (fun s =>
    let s := s.onCur c (fun g => g.exitUnits c.units)
    match s.curGroup? c with
    | none => .jump s
    | some g =>
      if g.badMerge ≠ 0 then .fault { code := 0x0D, lanes := g.badMerge } s
      else .jump (s.onCur c (fun g => { g with slices := g.slices.map (fun (sl : Slice) => sl.merge.getD sl) }))) s

theorem exec_exit_eq (s : State) : exec .exit s = issueD exitClaim.uses (fun c _ _ s => exitEffect c s) s := rfl

/-- An EXIT whose group is the only one of its number does what its claim says. -/
theorem exec_exit_of_one_group {y : State} (ha : exitClaim.Applies s c g k run)
    (hone : ∀ t x, s.teams.find c.team = some t → x ∈ t.groups → x.id = c.group → x = g)
    (hy : keepWrites (exitClaim.uses c g run) c g (exitClaim.effect c g run s) = some y) (hroom : g.rangeRoom c.gang = true) :
    exec .exit s = .next (runOver c s y) := by
  have hm : MayIssue (exitClaim.uses c g run) s c g k run := ha.starts
  have hcond : soloTeam (fun t c g _ _ => t.levels.isEmpty && decide ((g.exitUnits c.units).badMerge = 0)) c g run s = true :=
    ha.meant
  obtain ⟨t, ht, hcopy, hp⟩ := exists_team_of_soloTeam hcond
  obtain ⟨hlevels, hmerge⟩ : t.levels.isEmpty = true ∧ (g.exitUnits c.units).badMerge = 0 := by simpa using hp
  have hexit : (s.onCur c (fun x => x.exitUnits c.units)).curGroup? c = some (g.exitUnits c.units) := by
    rw [State.curGroup?, State.onCur, State.group_onGroup _ _ _ _ (fun x hx => (exitUnits_id x _).trans hx)]
    simpa [State.curGroup?] using congrArg (Option.map _) hm.ofGroup
  have hown : (s.onCur c (fun x => x.exitUnits c.units)).onCur c
      (fun x => { x with slices := x.slices.map (fun (sl : Slice) => sl.merge.getD sl) }) = exitClaim.effect c g run s := by
    rw [State.onCur_onCur _ _ (fun x hx => (exitUnits_id x _).trans hx)]
    exact State.onCur_congr fun t x ht hx hid => by rw [hone t x ht hx hid]
  have heffect : exitEffect c s = .jump (exitClaim.effect c g run s) := by
    simp [exitEffect, markEvent, State.levelOpen, Team.paired, ht, hcopy, hlevels, hexit, hmerge, hown]
  refine (exec_exit_eq s).trans ((issueD_jump hm heffect hy).trans ?_)
  simp [settle, hm.ofGroup, hroom, runOver]

end Sys2Proof.Machine
end

section
/-! SUPPORT. EXIT in a team that holds two groups of one number: the model lets each finish the issuing units in its own slices,
where the claim makes both the issuing group (R175). -/

namespace Sys2Proof.Machine

/-- A group in a run of one word, EXIT. -/
def exitGroup : Group := probeGroup [encodeWord .exit] 0 true

/-- The run that the group is in. -/
def exitRun : Run :=
  { clause := 0x10000, words := [encodeWord .exit], off := 0, fa := 0, fb := 1, ranges := [⟨0, false, 0, 128⟩, ⟨0, true, 0, 512⟩],
    units := (List.range 16).map (fun i => (i, false)), imm := none, hopnd := none, mpfx := none, temps := 0xFF, dests := [],
    yield := false, op := none, replay := none }

/-- The gang of the run. -/
def exitGang : Gang := { id := 0, last := 0, wait := .none, tried := none, run := some exitRun }

/-- The word of the run, as it issues. -/
def exitIssuer : Cur :=
  { team := 0, group := 0, gang := 0, units := exitRun.units, lanes := BitVec.allOnes 64, addr := 0x10004, word := encodeWord .exit }

/-- EXIT about to issue in a team that holds the group twice, the second time with another FPSTAT. -/
def twinGroups : State :=
  { State.reset with
    teams := [(0, { probeTeam exitGroup with groups := [exitGroup, { exitGroup with fpstat := 1 }] })]
    cur := some exitIssuer }

theorem exitClaim_applies : exitClaim.Applies twinGroups exitIssuer exitGroup exitGang exitRun where
  starts := ⟨⟨rfl, by decide +kernel, by decide +kernel, rfl⟩, rfl, rfl, by decide +kernel, by decide +kernel, by decide +kernel⟩
  meant := by decide +kernel

/-- What the claim says EXIT makes of the state. -/
def twinsClaimed : Option State :=
  keepWrites {} exitIssuer exitGroup (exitClaim.effect exitIssuer exitGroup exitRun twinGroups)

/-- FPSTAT of the two groups. -/
def fpstats (s : State) : Option (List Word) := (s.teams.find 0).map (fun t => t.groups.map (·.fpstat))

/-- The claim writes the issuing group over its twin. -/
theorem twinsClaimed_fpstats : twinsClaimed.bind (fun y => fpstats (runOver exitIssuer twinGroups y)) = some [0, 0] := by
  decide +kernel

/-- FPSTAT of the groups after a word; none where it has no next state. -/
def fpstatsAfter (i : Instr) (s : State) : Option (List Word) :=
  match exec i s with
  | .next u => fpstats u
  | _ => none

/-- EXIT leaves the twin its FPSTAT. -/
theorem twinGroups_fpstatsAfter_exit : fpstatsAfter .exit twinGroups = some [0, 1] := by decide +kernel

/-- Refutes O6: the statement leaves open that a team holds two groups of one number. Then EXIT's claim makes both the issuing group,
while the model lets each group with that number finish the units in its own slices, so the second keeps its FPSTAT.
exec_exit_of_one_group proves the claim where the group's number is no other group's. -/
theorem not_branchesGoToTheirTargets : ¬ Obligations.BranchesGoToTheirTargets := by
  rintro ⟨-, -, -, -, -, -, hexit, -⟩
  obtain ⟨y, hy, hclaimed⟩ := Option.bind_eq_some_iff.1 twinsClaimed_fpstats
  have hnext := hexit exitClaim exitClaim_mem _ _ _ _ _ exitClaim_applies y hy (by decide +kernel)
  have hkept := twinGroups_fpstatsAfter_exit
  rw [fpstatsAfter, hnext] at hkept
  exact absurd (hclaimed.symm.trans hkept) (by decide)

end Sys2Proof.Machine
end

section
/-! SUPPORT. What a lane-local word makes of its group where every active lane is clean and no injection is armed (R194 to R196,
R446). -/

namespace Sys2Proof.Machine

/-! ## Injections and units -/

section
variable {g : Group}

/-- Without an armed injection nothing is injected (R446). -/
theorem injection_of_unarmed (h : g.errinj.getLsbD 31 = false) (cp : CopyRole) (ls : List Nat) :
    g.injection cp ls = (none, g.errinj) := by
  have hbit : natBit g.errinj.toNat 31 = false := by
    rw [BitVec.getLsbD, Nat.testBit_eq_decide_div_mod_eq] at h
    simpa [natBit] using h
  simp [Group.injection, hbit]

/-- A write without an injection stores the word with its residue (R194). -/
theorem Dst.write_none (d : Dst) (g : Group) (sh : Bool) (l : Nat) (w : Word) (rf : RegFile) :
    d.write g none sh l w rf = d.put g l w rf := by
  cases d <;> rfl

/-- A word leaves the units alone where none of the lanes that it uses has one to go wrong (R194). -/
theorem unitBadAfter_of_sound {used : Bool} {ls : List Nat} (h : used = true → ∀ l ∈ ls, l ∉ g.unitBad) :
    g.unitBadAfter used ls = g.unitBad := by
  cases used with
  | false => rfl
  | true => exact List.filter_eq_self.2 fun l hl => by simpa using fun hm => h rfl l hm hl

end

/-! ## A clean lane -/

variable {s : State} {c : Cur} {g : Group} {run : Run} {op : LaneOp} {l t : Nat}

/-- The slice of a lane goes by a tag when its unit issues the word and its lanes agree on the tag (R121, R122). -/
theorem LaneOp.tagOf_eq_some : op.tagOf c g l = some t ↔
    g.sliceOf l ∈ unitSlices c.units ∧ op.slice g (mates c g l) = (t, none) := by
  rcases hs : op.slice g (mates c g l) with ⟨u, _ | f⟩ <;> simp [LaneOp.tagOf, hs]

/-- What LaneOp.clean says of one lane and the tag of its slice. -/
structure LaneOp.CleanAt (op : LaneOp) (c : Cur) (g : Group) (run : Run) (l t : Nat) : Prop where
  tagged : op.tagOf c g l = some t
  within : op.within g t l = true
  intact : op.damaged g t l = none
  untrapped : flagsMeet (flagsOr (op.value g run g.rf t l).2) g.traps = false
  sound : (op.unit && g.unitBad.contains l) = false

/-- The tag that the slice of a lane goes by, 0 where there is none. -/
def LaneOp.tagAt (op : LaneOp) (c : Cur) (g : Group) (l : Nat) : Nat := (op.tagOf c g l).getD 0

theorem LaneOp.cleanAt_of_clean (h : op.clean c g run = true) (hl : l ∈ lanesOf c.lanes) :
    op.CleanAt c g run l (op.tagAt c g l) := by
  have hlane := List.all_eq_true.1 h l hl
  rw [Bool.and_eq_true] at hlane
  obtain ⟨hreach, htag⟩ := hlane
  obtain ⟨t, ht, hrest⟩ := (Option.any_eq_true _ _).1 htag
  simp only [Bool.and_eq_true, Bool.not_eq_true', Option.isNone_iff_eq_none] at hrest
  obtain ⟨⟨⟨hmore, hintact⟩, htraps⟩, hunit⟩ := hrest
  have hat : op.tagAt c g l = t := by rw [LaneOp.tagAt, ht, Option.getD_some]
  rw [hat]
  exact ⟨ht, by simp [LaneOp.within, LaneOp.reaches, hreach, hmore], hintact, htraps, hunit⟩

/-- The results of a clean lane: its tag, its word in the group's file and in the shadows', its flags. -/
def LaneOp.result (op : LaneOp) (c : Cur) (g : Group) (run : Run) (l : Nat) : Nat × Word × Word × List Nat :=
  let x := op.value g run g.rf (op.tagAt c g l) l
  (op.tagAt c g l, x.1, (match g.sh with | some sh => (op.value g run sh (op.tagAt c g l) l).1 | none => x.1), x.2)

theorem LaneOp.lane_of_cleanAt (h : op.CleanAt c g run l (op.tagAt c g l)) :
    op.lane g run (op.tagAt c g l, none) l = (.ok (op.result c g run l), (op.result c g run l).2.2.2) := by
  simp only [LaneOp.lane, LaneOp.result, h.within, h.intact, h.untrapped, h.sound]
  rfl

theorem find?_map_key {α : Type} (f : Nat → α) {k : Nat} {ks : List Nat} (h : k ∈ ks) :
    (ks.map (fun x => (x, f x))).find? (fun x => x.1 == k) = some (k, f k) := by
  induction ks with
  | nil => cases h
  | cons j ks ih =>
    by_cases hj : j = k
    · simp [hj]
    · simpa [hj] using ih (List.mem_of_ne_of_mem (Ne.symm hj) h)


/-- What the instruction looks up for the slice of a clean lane is the slice's tag without a fault. -/
theorem LaneOp.slice_found (h : op.tagOf c g l = some (op.tagAt c g l)) :
    ((((unitSlices c.units).map (fun sl => (sl, op.slice g ((lanesOf c.lanes).filter (fun m => g.sliceOf m == sl))))).find?
      (fun x => x.1 == g.sliceOf l)).map (·.2)).getD (0, none) = (op.tagAt c g l, none) := by
  obtain ⟨hmem, hslice⟩ := LaneOp.tagOf_eq_some.1 h
  rw [find?_map_key _ hmem]
  exact hslice

/-! ## The writes of the lanes -/

/-- The tag of the slice of a lane at the register that a destination names (R122). -/
def Dst.retag (d : Dst) (g : Group) (l t : Nat) (h : Group) : Group :=
  match d with
  | .vec code => match g.regAt g.rf code l with
    | some r => h.setTag r (g.sliceOf l) t
    | none => h
  | _ => h

/-- A lane and its results. -/
abbrev LaneResult := Nat × Nat × Word × Word × List Nat

/-- A lane's results as the instruction writes them: the words to the files, then the tag. -/
def LaneOp.storeWith (op : LaneOp) (g : Group) (inj : Option Injection) (h : Group) (x : LaneResult) : Group :=
  op.dst.retag g x.1 (op.resTag x.2.1)
    { h with rf := op.dst.write g inj false x.1 x.2.2.1 h.rf, sh := h.sh.map (op.dst.write g inj true x.1 x.2.2.2.1) }

/-- The same without an injection. -/
def LaneOp.store (op : LaneOp) (g h : Group) (x : LaneResult) : Group :=
  op.dst.retag g x.1 (op.resTag x.2.1)
    { h with rf := op.dst.put g x.1 x.2.2.1 h.rf, sh := h.sh.map (op.dst.put g x.1 x.2.2.2.1) }

theorem LaneOp.storeWith_none (op : LaneOp) (g : Group) : op.storeWith g none = op.store g := by
  funext h x
  simp only [LaneOp.storeWith, LaneOp.store, funext (Dst.write_none op.dst g _ _ _)]

section
variable (d : Dst) (g h : Group) (l t : Nat)

/-- A tag write changes the tags alone. -/
theorem Dst.retag_eq : d.retag g l t h = { h with tags := (d.retag g l t h).tags } := by
  unfold Dst.retag
  split
  · split <;> rfl
  · rfl

/-- What a tag write makes of the tags depends on them alone. -/
theorem Dst.retag_tags {h' : Group} (htags : h.tags = h'.tags) : (d.retag g l t h).tags = (d.retag g l t h').tags := by
  unfold Dst.retag
  split
  · split
    · simp [Group.setTag, htags]
    · exact htags
  · exact htags

theorem LaneOp.store_eq (op : LaneOp) (x : LaneResult) :
    op.store g h x = { h with
      rf := op.dst.put g x.1 x.2.2.1 h.rf, sh := h.sh.map (op.dst.put g x.1 x.2.2.2.1),
      tags := (op.dst.retag g x.1 (op.resTag x.2.1) h).tags } := by
  rw [LaneOp.store, Dst.retag_eq]
  congr 1
  exact Dst.retag_tags _ _ _ _ _ rfl

end

theorem LaneOp.foldl_retag_tags (op : LaneOp) (g : Group) (xs : List (LaneResult)) {h h' : Group}
    (htags : h.tags = h'.tags) :
    (xs.foldl (fun k x => op.dst.retag g x.1 (op.resTag x.2.1) k) h).tags =
      (xs.foldl (fun k x => op.dst.retag g x.1 (op.resTag x.2.1) k) h').tags := by
  induction xs generalizing h h' with
  | nil => exact htags
  | cons x xs ih => exact ih (Dst.retag_tags _ _ _ _ _ htags)

/-- The writes of lanes after one another, file by file. -/
theorem LaneOp.foldl_store (op : LaneOp) (g : Group) (xs : List (LaneResult)) (h : Group) :
    xs.foldl (op.store g) h = { h with
      rf := xs.foldl (fun rf x => op.dst.put g x.1 x.2.2.1 rf) h.rf
      sh := h.sh.map (fun sh => xs.foldl (fun rf x => op.dst.put g x.1 x.2.2.2.1 rf) sh)
      tags := (xs.foldl (fun k x => op.dst.retag g x.1 (op.resTag x.2.1) k) h).tags } := by
  induction xs generalizing h with
  | nil => simp
  | cons x xs ih =>
    rw [List.foldl_cons, ih, LaneOp.store_eq]
    simp only [List.foldl_cons, Option.map_map, Function.comp_def]
    congr 1
    exact op.foldl_retag_tags g xs (Dst.retag_tags _ _ _ _ _ rfl)


/-! ## The word -/

/-- No unit of an active lane is to go wrong in a group of the issuer's number, where the word uses them. -/
def UnitsSound (used : Bool) (c : Cur) (s : State) : Prop :=
  ∀ t x, s.teams.find c.team = some t → x ∈ t.groups → x.id = c.group → used = true → ∀ l ∈ lanesOf c.lanes, l ∉ x.unitBad

/-- What comes of each active lane: its fault or its results, and its flags. -/
def LaneOp.outcomes (op : LaneOp) (c : Cur) (g : Group) (run : Run) :
    List (Nat × Except (Nat × Nat) (Nat × Word × Word × List Nat) × List Nat) :=
  let sts := (unitSlices c.units).map (fun sl => (sl, op.slice g ((lanesOf c.lanes).filter (fun l => g.sliceOf l == sl))))
  (lanesOf c.lanes).map (fun l => (l, op.lane g run (((sts.find? (fun x => x.1 == g.sliceOf l)).map (·.2)).getD (0, none)) l))

theorem LaneOp.outcomes_of_clean (hc : op.clean c g run = true) : op.outcomes c g run =
    ((lanesOf c.lanes).map (fun l => (l, op.result c g run l))).map (fun x => (x.1, .ok x.2, x.2.2.2.2)) := by
  rw [List.map_map]
  refine List.map_congr_left fun l hl => ?_
  have hat := LaneOp.cleanAt_of_clean hc hl
  simp only [LaneOp.slice_found hat.tagged, LaneOp.lane_of_cleanAt hat, Function.comp_apply]

/-- The issuing group's files, tags and flags after a column word, and the units that it has used. -/
def columnDone (c : Cur) (used : Bool) (ej : Word) (g : Group) (s : State) : State :=
  s.onCur c (fun h => { h with rf := g.rf, sh := g.sh, tags := g.tags, fpstat := g.fpstat, fpcnt := g.fpcnt, errinj := ej,
                               unitBad := h.unitBadAfter used (lanesOf c.lanes) })

/-- A lane-local word of which every active lane has results (R195). -/
theorem LaneOp.run_of_outcomes {xs : List LaneResult} (h : op.outcomes c g run = xs.map (fun x => (x.1, .ok x.2, x.2.2.2.2)))
    (hi : g.errinj.getLsbD 31 = false) : op.run c g run s =
      .ok (columnDone c op.unit g.errinj ((xs.foldl (op.store g) g).record (xs.flatMap (fun x => x.2.2.2.2))) s) := by
  have hrun : op.run c g run s =
      let res := op.outcomes c g run
      let good := res.filterMap (fun x => match x.2.1 with | .ok r => some (x.1, r) | .error _ => none)
      let inj := g.injection (s.copyRole c) (good.map (·.1))
      let s1 := columnDone c op.unit inj.2 ((good.foldl (op.storeWith g inj.1) g).record (res.flatMap (fun x => x.2.2))) s
      match laneFaultInfo columnOrder (res.filterMap (fun x => match x.2.1 with | .error f => some (x.1, f) | .ok _ => none)) with
      | some f => .fault f s1
      | none => .ok s1 := rfl
  rw [hrun, h]
  simp only [injection_of_unarmed hi, LaneOp.storeWith_none, List.filterMap_map, Function.comp_def, List.flatMap_map,
    List.filterMap_none, Prod.mk.eta, List.filterMap_some]
  rfl

/-- A lane-local word whose active lanes are all clean does what laneEffect says (R195, R196). -/
theorem LaneOp.run_of_clean (hc : op.clean c g run = true) (hi : g.errinj.getLsbD 31 = false) (hu : UnitsSound op.unit c s) :
    op.run c g run s = .ok (laneEffect (fun _ _ _ => op) c g run s) := by
  rw [LaneOp.run_of_outcomes (LaneOp.outcomes_of_clean hc) hi, LaneOp.foldl_store, columnDone]
  refine congrArg Eff.ok (State.onCur_congr fun t x ht hx hid => ?_)
  rw [unitBadAfter_of_sound (hu t x ht hx hid)]
  simp only [List.foldl_map, List.flatMap_map]
  cases hsh : g.sh with
  | none => simp only [LaneOp.result, hsh]; rfl
  | some sh => simp only [LaneOp.result, hsh]; rfl

end Sys2Proof.Machine
end

section
/-! SUPPORT. The claims of lane-local words: from a word's operation to its claim, with the words that use no unit of a lane apart from
those that do (R194). -/

namespace Sys2Proof.Machine

variable {s : State} {c : Cur} {g : Group} {run : Run}

/-- The issuer's number is no other group's in its team. -/
def soleGroup : When := fun c g _ s =>
  (s.teams.find c.team).all (fun t => t.groups.all (fun x => x.id != c.group || x == g))

/-- The claim where the issuer's number is no other group's. -/
def Claim.inSoleGroup (x : Claim) : Claim := { x with cond := fun c g run s => x.cond c g run s && soleGroup c g run s }

theorem UnitsSound.of_unused : UnitsSound false c s := fun _ _ _ _ _ h => absurd h (by decide)

/-- The issuing group's own units are sound, so those of its number are where it is the only one. -/
theorem UnitsSound.of_soleGroup {used : Bool} (hown : used = true → ∀ l ∈ lanesOf c.lanes, l ∉ g.unitBad)
    (hsole : soleGroup c g run s = true) : UnitsSound used c s := by
  intro t x ht hx hid
  have hxg : x = g := by simpa [soleGroup, ht, hid] using List.all_eq_true.1 ((Option.all_eq_true _ _).1 hsole t ht) x hx
  rw [hxg]
  exact hown

/-- Clean lanes have sound units where the operation uses them. -/
theorem LaneOp.sound_of_clean {op : LaneOp} (hc : op.clean c g run = true) (hused : op.unit = true) :
    ∀ l ∈ lanesOf c.lanes, l ∉ g.unitBad := fun l hl => by
  simpa [hused] using (LaneOp.cleanAt_of_clean hc hl).sound

section
variable {i : Instr} {u : Cur → Group → Run → Uses} {o : Group → Run → LaneOp}

/-- A word that runs a lane-local operation without a unit meets the operation's claim (R195). -/
theorem laneClaim_holds (he : ∀ s, exec i s = issueD u (fun c g run s => (o g run).run c g run s) s)
    (hunit : ∀ g run, (o g run).unit = false) : (laneClaim u o).Holds i :=
  claim_holds_done _ he fun s c g run _ hm => by
    obtain ⟨hc, hi⟩ : (o g run).clean c g run = true ∧ g.errinj.getLsbD 31 = false := by simpa using hm
    exact LaneOp.run_of_clean hc hi (by rw [hunit]; exact .of_unused)

/-- A word that runs a lane-local operation meets the operation's claim where its group is the only one of its number (R195). -/
theorem laneClaim_holds_in_sole_group (he : ∀ s, exec i s = issueD u (fun c g run s => (o g run).run c g run s) s) :
    (laneClaim u o).inSoleGroup.Holds i :=
  claim_holds_done _ he fun s c g run _ hm => by
    obtain ⟨⟨hc, hi⟩, hs⟩ : ((o g run).clean c g run = true ∧ g.errinj.getLsbD 31 = false) ∧ soleGroup c g run s = true := by
      simpa [laneClaim] using hm
    exact LaneOp.run_of_clean hc hi (.of_soleGroup (LaneOp.sound_of_clean hc) hs)

end

/-! ## Predicate words (R205) -/

theorem predUses_eq (d a b : BitVec 8) : predUses d a b = { role := .vector, bad := badPred d || badPred a || badPred b } := by
  simp [predUses, badPred, Bool.or_assoc]

/-- A predicate word combines its two predicates by its function. -/
theorem exec_preds3 : ∀ e ∈ preds3, ∀ d a b s, exec (e.1 d a b) s = predOp e.2 d a b s := by
  simp only [preds3, List.forall_mem_cons]
  exact ⟨fun _ _ _ _ => rfl, fun _ _ _ _ => rfl, fun _ _ _ _ => rfl, fun _ _ _ _ => rfl, List.forall_mem_nil _⟩

theorem preds3_hold : ∀ e ∈ preds3, ∀ d a b, (laneClaim (plain (predUses d a b)) (fun _ _ =>
    { prim := [], preds := [a.toNat, b.toNat], accept := fun _ => true, resTag := id, dst := .pred d.toNat,
      f := fun rf _ l _ => (boolWord (e.2 (rf.Q a.toNat l) (rf.Q b.toNat l)), []) })).Holds (e.1 d a b) := fun e he d a b =>
  laneClaim_holds (fun s => by rw [exec_preds3 e he, predUses_eq]; rfl) fun _ _ => rfl

theorem decodeWord_preds3 : ∀ e ∈ preds3.zipIdx, ∀ d a b, decodeWord (wordA (0x84 + e.2) d a b) = .ok (e.1.1 d a b) := by
  intro e he d a b
  fin_cases he
  all_goals exact decodeWord_wordA rfl rfl rfl

/-- Settles O2: the words are encoded as the table says, each runs its function over every active lane, and q7 reads true. -/
theorem predicateWordsFollowTheirRule : Obligations.PredicateWordsFollowTheirRule := by
  refine ⟨decodeWord_preds3, preds3_hold, fun rf l b => ⟨rf.Q_seven l, rf.setQ_seven l b⟩, ?pandn, ?word⟩
  case pandn =>
    intro e he x
    obtain rfl := Option.some.inj he
    exact Bool.true_and _
  case word => exact decodeWord_wordA (top := 0x87) (d := 2) (a := 7) (b := 1) rfl rfl rfl

end Sys2Proof.Machine
end

section
/-! SUPPORT. The lane-local words (R197 to R204, R206 to R209, R215, R217): each runs the operation of its claim. The words without a unit
meet their claims, the others where their group is the only one of its number. -/

namespace Sys2Proof.Machine

/-! ## Operations element by element -/

/-- An element of an operand is that of the word there. -/
theorem el_map_elem (t i : Nat) (vs : List Word) (k : Nat) : el (vs.map (fun v => elem t v i)) k = elem t (ar vs k) i := by
  have hzero : elem t 0 i = 0 := by simp [elem, natBits]
  rw [el, ar, ← hzero, List.getD_map]

theorem elems1_eq (t : Nat) (vs : List Word) (f : Nat → ER) : elems1 t (arg vs 0) f = byElems (fun _ es => f (el es 0)) t vs := by
  simp only [byElems, el_map_elem]
  rfl

theorem elems2_eq (t : Nat) (vs : List Word) (f : Nat → Nat → ER) :
    elems2 t (arg vs 0) (arg vs 1) f = byElems (fun _ es => f (el es 0) (el es 1)) t vs := by
  simp only [byElems, el_map_elem]
  rfl

theorem elems3_eq (t : Nat) (vs : List Word) (f : Nat → Nat → Nat → ER) :
    elems3 t (arg vs 0) (arg vs 1) (arg vs 2) f = byElems (fun _ es => f (el es 0) (el es 1) (el es 2)) t vs := by
  simp only [byElems, el_map_elem]
  rfl

/-! ## The tables -/

/-- A word computes its elements from the elements of A and B by a function of the spec's table (R197, R201). -/
def ComputesElems (i : Word3) (accept : Nat → Bool) (f : Nat → Nat → List Nat → ER) : Prop :=
  ∃ f', (∀ d a b s, exec (i d a b) s = binaryOp accept f' d a b s) ∧ ∀ rm t es, f' rm t (el es 0) (el es 1) = f rm t es

theorem least_eq (wantMax : Bool) (t : Nat) (es : List Nat) : mmElem wantMax t (el es 0) (el es 1) = least wantMax t es := by
  unfold mmElem least
  cases wantMax <;> simp

theorem vec3_compute : ∀ e ∈ vec3, ComputesElems e.1 e.2.1 e.2.2 := by
  simp only [vec3, List.forall_mem_cons]
  refine ⟨?vadd, ?vsub, ?vmul, ?vmin, ?vmax, ?vmulh, ?vsadd, ?vssub, List.forall_mem_nil _⟩
  case vadd => exact ⟨_, fun d a b s => show execVadd d a b s = _ from rfl, fun _ _ _ => rfl⟩
  case vsub => exact ⟨_, fun d a b s => show execVsub d a b s = _ from rfl, fun _ _ _ => rfl⟩
  case vmul => exact ⟨_, fun d a b s => show execVmul d a b s = _ from rfl, fun _ _ _ => rfl⟩
  case vmin => exact ⟨_, fun d a b s => show execVmin d a b s = _ from rfl, fun _ => least_eq false⟩
  case vmax => exact ⟨_, fun d a b s => show execVmax d a b s = _ from rfl, fun _ => least_eq true⟩
  case vmulh => exact ⟨_, fun d a b s => show execVmulh d a b s = _ from rfl, fun _ _ _ => rfl⟩
  case vsadd => exact ⟨_, fun d a b s => show execVsadd d a b s = _ from rfl, fun _ _ _ => rfl⟩
  case vssub => exact ⟨_, fun d a b s => show execVssub d a b s = _ from rfl, fun _ _ _ => rfl⟩

theorem vec3_hold_in_sole_group : ∀ e ∈ vec3, ∀ d a b, (laneClaim (plain (vecUses d a b)) (fun g _ =>
    { prim := [src a 1, src b 2], unit := true, accept := e.2.1, resTag := id, dst := .vec d.toNat,
      f := fun _ t _ vs => byElems (e.2.2 g.rm) t vs })).inSoleGroup.Holds (e.1 d a b) := fun e he d a b => by
  obtain ⟨f, hexec, hf⟩ := vec3_compute e he
  refine laneClaim_holds_in_sole_group fun s => ?_
  simp only [hexec, binaryOp, elems2_eq, hf]
  rfl

theorem exec_logic3 : ∀ e ∈ logic3, ∀ d a b s, exec (e.1 d a b) s = logicOp e.2 d a b s := by
  simp only [logic3, List.forall_mem_cons]
  exact ⟨fun _ _ _ _ => rfl, fun _ _ _ _ => rfl, fun _ _ _ _ => rfl, fun _ _ _ _ => rfl, List.forall_mem_nil _⟩

theorem logic3_hold : ∀ e ∈ logic3, ∀ d a b, (laneClaim (plain (vecUses d a b)) (fun _ _ =>
    { prim := [src a 1, src b 2], accept := logicTag, resTag := id, dst := .vec d.toNat,
      f := fun _ _ _ vs => (e.2 (ar vs 0) (ar vs 1), []) })).Holds (e.1 d a b) := fun e he d a b =>
  laneClaim_holds (fun s => exec_logic3 e he d a b s) fun _ _ => rfl

theorem exec_vec2 : ∀ e ∈ vec2, ∀ d a s, exec (e.1 d a) s = unaryOp e.2.1 e.2.2 d a s := by
  simp only [vec2, List.forall_mem_cons]
  exact ⟨fun _ _ _ => rfl, fun _ _ _ => rfl, fun _ _ _ => rfl, fun _ _ _ => rfl, fun _ _ _ => rfl, fun _ _ _ => rfl, fun _ _ _ => rfl,
    fun _ _ _ => rfl, fun _ _ _ => rfl, fun _ _ _ => rfl, fun _ _ _ => rfl, fun _ _ _ => rfl, fun _ _ _ => rfl, fun _ _ _ => rfl,
    List.forall_mem_nil _⟩

theorem vec2_hold_in_sole_group : ∀ e ∈ vec2, ∀ d a, (laneClaim (plain (vecUses1 d a)) (fun _ _ =>
    { prim := [src a 1], unit := true, accept := e.2.1, resTag := id, dst := .vec d.toNat,
      f := fun _ t _ vs => byElems (fun t es => e.2.2 t (el es 0)) t vs })).inSoleGroup.Holds (e.1 d a) := fun e he d a =>
  laneClaim_holds_in_sole_group fun s => by
    simp only [exec_vec2 e he, unaryOp, elems1_eq]
    rfl

theorem exec_identities : ∀ e ∈ identities, ∀ d s, exec (e.1 d) s = laneWord {} d (fun _ g _ _ l => BitVec.ofNat 32 (e.2 g l)) s := by
  simp only [identities, List.forall_mem_cons]
  exact ⟨fun _ _ => rfl, fun _ _ => rfl, fun _ _ => rfl, List.forall_mem_nil _⟩

theorem identities_hold : ∀ e ∈ identities, ∀ d, (laneClaim (plain { role := .vector, vw := [d.toNat] }) (fun g _ =>
    { prim := [], accept := fun _ => true, resTag := fun _ => 0, dst := .vec d.toNat,
      f := fun _ _ l _ => (BitVec.ofNat 32 (e.2 g l), []) })).Holds (e.1 d) := fun e he d =>
  laneClaim_holds (fun s => exec_identities e he d s) fun _ _ => rfl

/-! ## The words without a unit -/

theorem vsel_holds (n : BitVec 2) (d a b : BitVec 8) : AllHold (.vsel n d a b) (vselClaims n d a b) :=
  List.forall_mem_singleton.2 (laneClaim_holds (fun s => show execVsel n d a b s = _ from rfl) fun _ _ => rfl)

theorem vretag_holds (t : BitVec 4) (d a : BitVec 8) : AllHold (.vretag t d a) (vretagClaims t d a) :=
  List.forall_mem_singleton.2 (laneClaim_holds (fun s => show execVretag t d a s = _ from rfl) fun _ _ => rfl)

theorem vmov_holds (d a : BitVec 8) : AllHold (.vmov d a) (vmovClaims d a) :=
  List.forall_mem_singleton.2 (laneClaim_holds (fun s => show execVmov d a s = _ from rfl) fun _ _ => rfl)

theorem vmovs_holds (d : BitVec 8) (n : BitVec 9) : AllHold (.vmovs d n) (vmovsClaims d n) :=
  List.forall_mem_singleton.2 (laneClaim_holds (fun s => show execVmovs d n s = _ from rfl) fun _ _ => rfl)

theorem vli_holds (d : BitVec 8) (i : BitVec 12) : AllHold (.vli d i) (vliClaims d i) :=
  List.forall_mem_singleton.2 (laneClaim_holds (fun s => show execVli d i s = _ from rfl) fun _ _ => rfl)

/-- VACTIVE's operation depends on who issues it. -/
theorem vactive_holds (d : BitVec 8) : AllHold (.vactive d) (vactiveClaims d) := by
  refine List.forall_mem_singleton.2 (claim_holds_done _ (fun s => show execVactive d s = _ from rfl) fun s c g run _ hm => ?_)
  obtain ⟨hc, hi⟩ : (activeOp d.toNat c).clean c g run = true ∧ g.errinj.getLsbD 31 = false := by simpa using hm
  exact LaneOp.run_of_clean hc hi .of_unused

theorem vclass_holds (d a : BitVec 8) : AllHold (.vclass d a) (vclassClaims d a) := by
  refine List.forall_mem_singleton.2 (laneClaim_holds (fun s => ?_) fun _ _ => rfl)
  simp only [List.sum_eq_foldl, List.foldl_map]
  rfl

theorem vnot_holds (d a : BitVec 8) : AllHold (.vnot d a) (vnotClaims d a) :=
  List.forall_mem_singleton.2 (laneClaim_holds (fun s => show execVnot d a s = _ from rfl) fun _ _ => rfl)

theorem xset_holds (k : BitVec 2) (a : BitVec 8) : AllHold (.xset k a) (xsetClaims k a) :=
  List.forall_mem_singleton.2 (laneClaim_holds (fun s => show execXset k a s = _ from rfl) fun _ _ => rfl)

theorem xwin_holds (b l : BitVec 8) : AllHold (.xwin b l) (xwinClaims b l) :=
  List.forall_mem_singleton.2 (claim_holds_done _ (fun s => show execXwin b l s = _ from rfl) fun _ _ _ _ _ _ => rfl)

/-! ## The words with a unit -/

/-- Every claim of a list holds of an instruction where its group is the only one of its number. -/
def AllHoldInSoleGroup (i : Instr) (l : List Claim) : Prop := ∀ x ∈ l, x.inSoleGroup.Holds i

theorem vma_holds_in_sole_group (d a b : BitVec 8) : AllHoldInSoleGroup (.vma d a b) (vmaClaims d a b) :=
  List.forall_mem_singleton.2 (laneClaim_holds_in_sole_group fun s => show execVma d a b s = _ by
    simp only [execVma, elems3_eq]; rfl)

theorem vmad_holds_in_sole_group (d a b : BitVec 8) : AllHoldInSoleGroup (.vmad d a b) (vmadClaims d a b) :=
  List.forall_mem_singleton.2 (laneClaim_holds_in_sole_group fun s => show execVmad d a b s = _ by
    simp only [execVmad, elems3_eq]; rfl)

theorem vshl_holds_in_sole_group (d a b : BitVec 8) : AllHoldInSoleGroup (.vshl d a b) (vshlClaims d a b) :=
  List.forall_mem_singleton.2 (laneClaim_holds_in_sole_group fun _ => rfl)

theorem vshr_holds_in_sole_group (d a b : BitVec 8) : AllHoldInSoleGroup (.vshr d a b) (vshrClaims d a b) :=
  List.forall_mem_singleton.2 (laneClaim_holds_in_sole_group fun _ => rfl)

theorem fieldAt_eq (w : Word) : fieldAt w = laneField w := by simp [fieldAt, laneField, natBits]

theorem vbfe_holds_in_sole_group (d a b : BitVec 8) : AllHoldInSoleGroup (.vbfe d a b) (vbfeClaims d a b) := by
  refine List.forall_mem_singleton.2 (laneClaim_holds_in_sole_group fun s => ?_)
  simp only [fieldAt_eq]
  rfl

theorem insertField_eq (p n : Nat) (old x : Word) : insertField p n old x =
    BitVec.ofNat 32 (old.toNat - old.toNat / 2 ^ p % 2 ^ n * 2 ^ p + x.toNat % 2 ^ n * 2 ^ p) := by
  simp [insertField, natBits]

theorem vbfi_holds_in_sole_group (d a b : BitVec 8) : AllHoldInSoleGroup (.vbfi d a b) (vbfiClaims d a b) := by
  refine List.forall_mem_singleton.2 (laneClaim_holds_in_sole_group fun s => ?_)
  simp only [fieldAt_eq, ← insertField_eq]
  rfl

theorem sum_map_eq_foldl (n : Nat) (f : Nat → Int) : ((List.range n).map f).sum = (List.range n).foldl (fun x i => x + f i) 0 := by
  rw [List.sum_eq_foldl, List.foldl_map]

theorem vdot2_holds_in_sole_group (d a b : BitVec 8) : AllHoldInSoleGroup (.vdot2 d a b) (vdot2Claims d a b) := by
  refine List.forall_mem_singleton.2 (laneClaim_holds_in_sole_group fun s => ?_)
  simp only [sum_map_eq_foldl]
  rfl

theorem vdot4_holds_in_sole_group (d a b : BitVec 8) : AllHoldInSoleGroup (.vdot4 d a b) (vdot4Claims d a b) := by
  refine List.forall_mem_singleton.2 (laneClaim_holds_in_sole_group fun s => ?_)
  simp only [sum_map_eq_foldl]
  rfl

theorem vcmp_holds_in_sole_group (k : BitVec 5) (q : BitVec 3) (a b : BitVec 8) : AllHoldInSoleGroup (.vcmp k q a b) (vcmpClaims k q a b) :=
  List.forall_mem_singleton.2 (laneClaim_holds_in_sole_group fun s => show execVcmp k q a b s = _ from rfl)

theorem vcmpa_holds_in_sole_group (k : BitVec 5) (q : BitVec 3) (a b : BitVec 8) : AllHoldInSoleGroup (.vcmpa k q a b) (vcmpaClaims k q a b) :=
  List.forall_mem_singleton.2 (laneClaim_holds_in_sole_group fun s => show execVcmpa k q a b s = _ from rfl)

theorem vcmpo_holds_in_sole_group (k : BitVec 5) (q : BitVec 3) (a b : BitVec 8) : AllHoldInSoleGroup (.vcmpo k q a b) (vcmpoClaims k q a b) :=
  List.forall_mem_singleton.2 (laneClaim_holds_in_sole_group fun s => show execVcmpo k q a b s = _ from rfl)

theorem vround_holds_in_sole_group (d a : BitVec 8) (r : BitVec 2) : AllHoldInSoleGroup (.vround d a r) (vroundClaims d a r) :=
  List.forall_mem_singleton.2 (laneClaim_holds_in_sole_group fun s => show execVround d a r s = _ by
    simp only [execVround, unaryOp, elems1_eq]; rfl)

/-- An index register moves by the immediate, modulo 256 (R215). -/
theorem setWidth_add_eq (x i : BitVec 8) : (x + i).setWidth 32 = BitVec.ofNat 32 ((x.toNat + i.toNat) % 256) :=
  BitVec.eq_of_toNat_eq (by simp [BitVec.toNat_add])

theorem xadd_holds_in_sole_group (k : BitVec 2) (i : BitVec 8) : AllHoldInSoleGroup (.xadd k i) (xaddClaims k i) := by
  refine List.forall_mem_singleton.2 (laneClaim_holds_in_sole_group fun s => ?_)
  simp only [← setWidth_add_eq]
  rfl

theorem vrand_holds_in_sole_group (d a : BitVec 8) (k : BitVec 4) : AllHoldInSoleGroup (.vrand d a k) (vrandClaims d a k) :=
  List.forall_mem_singleton.2 (laneClaim_holds_in_sole_group fun s => show execVrand d a k s = _ from rfl)

theorem vrandu_holds_in_sole_group (d a : BitVec 8) (k : BitVec 4) : AllHoldInSoleGroup (.vrandu d a k) (vranduClaims d a k) :=
  List.forall_mem_singleton.2 (laneClaim_holds_in_sole_group fun s => show execVrandu d a k s = _ from rfl)

end Sys2Proof.Machine
end

section
/-! SUPPORT. What a cross-lane word makes of its group where no lane of its partitions faults and no injection is armed (R210 to R214,
R446). -/

namespace Sys2Proof.Machine

variable {s : State} {c : Cur} {g : Group} {op : CrossOp}

/-! ## Partitions -/

/-- A partition of which no lane faults has a word for its uniform register, unless it is empty (R213). -/
theorem CrossOp.uni_of_no_fault {active : List Nat} {b : Nat} {p : PartOut} (hp : op.part g active b = p) (hf : p.faults = []) :
    (p.members.isEmpty || p.uniOk) = true := by
  unfold CrossOp.part at hp
  extract_lets files inPart ms out inr tags t main shadow f7 at hp
  split at hp
  next htags =>
    subst hp
    obtain ⟨hout, hinr⟩ : out = [] ∧ inr = [] := by simpa [f7] using hf
    have hms : ms = [] := by simpa [inr, hout] using hinr
    exact absurd hms (by simpa using htags.1)
  next htags =>
    subst hp
    simp only [List.append_eq_nil_iff, List.map_eq_nil_iff] at hf
    obtain ⟨⟨⟨⟨hwindow, -⟩, hdamage⟩, htrap⟩, hunit⟩ := hf
    simp only [hwindow, hdamage, htrap, hunit]
    simp

/-- What comes of a partition: no lane faults, so every member writes. -/
structure PartOut.Whole (p : PartOut) : Prop where
  all : p.good = p.members
  uni : (p.members.isEmpty || p.uniOk) = true

theorem whole_of_partition {p : PartOut} (hp : p ∈ partitions op c g) (hf : p.faults = []) (hg : p.good = p.members) : p.Whole := by
  obtain ⟨b, -, rfl⟩ := List.mem_map.1 hp
  exact ⟨hg, CrossOp.uni_of_no_fault rfl hf⟩

/-! ## The writes -/

/-- The words of a lane as the instruction writes them to one file (R210). -/
def CrossOp.put (op : CrossOp) (g : Group) (sh : Bool) (p : PartOut) (rf : RegFile) (l : Nat) : RegFile :=
  let ws := (if sh then p.shadow else p.main).vals l
  let rf := op.vdst.zipIdx.foldl (fun (x : RegFile) d => match g.regAt x d.1 l with
    | some k => x.setV k l (ws.getD d.2 0)
    | none => x) rf
  match op.pdst with
  | some q => rf.setQ q l ((ws.getD 0 0).getLsbD 0)
  | none => rf

theorem CrossOp.writeLanes_none (g : Group) (sh : Bool) (p : PartOut) (rf : RegFile) :
    op.writeLanes g none sh p rf = p.good.foldl (op.put g sh p) rf := rfl

/-- The word of a partition's uniform register, the identity of an empty one (R213). -/
def CrossOp.uniWord (op : CrossOp) (c : Cur) (g : Group) (sh : Bool) (p : PartOut) : Word :=
  if p.members.isEmpty then
    op.identity (match (unitSlices c.units).find? (fun sl =>
        decide (p.base < (sl + 1) * g.perSlice) && decide (sl * g.perSlice < p.base + op.size)) with
      | some sl => (match op.srcs with | code :: _ => (g.srcTag code (max p.base (sl * g.perSlice))).getD 0 | [] => 0)
      | none => 0)
  else (if sh then p.shadow else p.main).uni

/-- A partition's writes to one file, where every member writes. -/
def CrossOp.store (op : CrossOp) (c : Cur) (g : Group) (sh : Bool) (rf : RegFile) (p : PartOut) : RegFile :=
  match op.sdst with
  | some d => rf.setS (d + p.base / max 1 op.size) (op.uniWord c g sh p)
  | none => p.members.foldl (op.put g sh p) rf

/-- A partition's writes to one file as the instruction makes them. -/
def CrossOp.storeWith (op : CrossOp) (c : Cur) (g : Group) (inj : Option Injection) (sh : Bool) (rf : RegFile) (p : PartOut) : RegFile :=
  match op.sdst with
  | some d => if p.members.isEmpty || p.uniOk then rf.setS (d + p.base / max 1 op.size) (op.uniWord c g sh p) else rf
  | none => op.writeLanes g inj sh p rf

theorem CrossOp.storeWith_of_whole {p : PartOut} (hp : p.Whole) (sh : Bool) (rf : RegFile) :
    op.storeWith c g none sh rf p = op.store c g sh rf p := by
  unfold CrossOp.storeWith CrossOp.store
  split
  · exact if_pos hp.uni
  · rw [CrossOp.writeLanes_none, hp.all]

/-- The writes of whole partitions to one file. -/
theorem CrossOp.foldl_storeWith {ps : List PartOut} (hps : ∀ p ∈ ps, p.Whole) (sh : Bool) (rf : RegFile) :
    ps.foldl (op.storeWith c g none sh) rf = ps.foldl (op.store c g sh) rf :=
  List.foldl_ext _ _ rf fun x p hp => CrossOp.storeWith_of_whole (hps p hp) sh x

/-- A lane's tags as the instruction writes them (R122). -/
def CrossOp.retag (op : CrossOp) (g : Group) (p : PartOut) (h : Group) (l : Nat) : Group :=
  op.vdst.foldl (fun (h : Group) code => match g.regAt g.rf code l with
    | some r => h.setTag r (g.sliceOf l) (op.resTag p.tag)
    | none => h) h

/-- Tag writes change the tags alone. -/
theorem CrossOp.foldl_retag_eq (ps : List PartOut) (ls : PartOut → List Nat) (h : Group) :
    ps.foldl (fun h p => (ls p).foldl (op.retag g p) h) h =
      { h with tags := (ps.foldl (fun h p => (ls p).foldl (op.retag g p) h) h).tags } := by
  refine List.foldlRecOn (motive := fun (x : Group) => x = { h with tags := x.tags }) ps _ rfl fun x hx p _ => ?_
  refine List.foldlRecOn (motive := fun (x : Group) => x = { h with tags := x.tags }) (ls p) _ hx fun x hx l _ => ?_
  refine List.foldlRecOn (motive := fun (x : Group) => x = { h with tags := x.tags }) op.vdst _ hx fun x hx code _ => ?_
  split
  · rw [hx]; rfl
  · exact hx

/-! ## The word -/

/-- A cross-lane word of whose partitions no lane faults does what crossEffect says (R210). -/
theorem CrossOp.run_of_whole (run : Run) (hf : ∀ p ∈ partitions op c g, p.faults = [] ∧ p.good = p.members) (hi : g.errinj.getLsbD 31 = false)
    (hu : UnitsSound op.unit c s) : op.run c g s = .ok (crossEffect (fun _ _ _ => op) c g run s) := by
  have hwhole : ∀ p ∈ partitions op c g, p.Whole := fun p hp => whole_of_partition hp (hf p hp).1 (hf p hp).2
  have hrun : op.run c g s =
      let ps := partitions op c g
      let inj := g.injection (s.copyRole c) (if op.sdst.isSome then [] else ps.flatMap (·.good))
      let g1 := ps.foldl (fun h p => p.good.foldl (op.retag g p) h) g
      let g1 := g1.record (ps.flatMap (fun p => if p.members.isEmpty then [] else p.flags))
      let s1 := s.onCur c (fun h => { h with
        rf := ps.foldl (op.storeWith c g inj.1 false) g.rf, sh := g.sh.map (ps.foldl (op.storeWith c g inj.1 true)), tags := g1.tags,
        fpstat := g1.fpstat, fpcnt := g1.fpcnt, errinj := inj.2, unitBad := h.unitBadAfter op.unit (lanesOf c.lanes),
        empty := h.empty || (op.marksEmpty && !(ps.filter (fun p => p.members.isEmpty)).isEmpty) })
      match laneFaultInfo columnOrder (ps.flatMap (·.faults)) with
      | some f => .fault f s1
      | none => .ok s1 := rfl
  have hfaults : (partitions op c g).flatMap (·.faults) = [] := List.flatMap_eq_nil_iff.2 fun p hp => (hf p hp).1
  have htags : (partitions op c g).foldl (fun h p => p.good.foldl (op.retag g p) h) g =
      (partitions op c g).foldl (fun h p => p.members.foldl (op.retag g p) h) g :=
    List.foldl_ext _ _ _ fun h p hp => by rw [(hwhole p hp).all]
  have hempty : (!((partitions op c g).filter (fun p => p.members.isEmpty)).isEmpty) = (partitions op c g).any (·.members.isEmpty) := by
    rw [Bool.eq_iff_iff]
    simp
  rw [hrun]
  simp only [injection_of_unarmed hi, hfaults, CrossOp.foldl_storeWith hwhole]
  rw [htags, CrossOp.foldl_retag_eq]
  refine congrArg Eff.ok (State.onCur_congr fun t x ht hx hid => ?_)
  rw [unitBadAfter_of_sound (hu t x ht hx hid), hempty]
  rfl
end Sys2Proof.Machine
end

section
/-! SUPPORT. The claims of cross-lane words (R146, R210 to R214), with the words that use no unit of a lane apart from those that do (R194). -/

namespace Sys2Proof.Machine

variable {s : State} {c : Cur} {g : Group} {run : Run}

/-! ## From a word's operation to its claim -/

section
variable {i : Instr} {u : Cur → Group → Run → Uses} {o : Group → Run → CrossOp}

/-- What the claim of a cross-lane word asks for. -/
theorem crossClaim_cond (u : Cur → Group → Run → Uses) (h : (crossClaim u o).cond c g run s = true) :
    (∀ p ∈ partitions (o g run) c g, p.faults = [] ∧ p.good = p.members) ∧ g.errinj.getLsbD 31 = false ∧
      ((o g run).unit = true → ∀ l ∈ lanesOf c.lanes, l ∉ g.unitBad) := by
  simp only [crossClaim, Bool.and_eq_true, List.all_eq_true, List.isEmpty_iff, beq_iff_eq, Bool.not_eq_true', Bool.and_eq_false_imp,
    List.any_eq_false, List.contains_iff_mem] at h
  obtain ⟨⟨hparts, harmed⟩, hunits⟩ := h
  exact ⟨hparts, harmed, hunits⟩

/-- A word that runs a cross-lane operation without a unit meets the operation's claim (R210). -/
theorem crossClaim_holds (he : ∀ s, exec i s = issueD u (fun c g run s => (o g run).run c g s) s)
    (hunit : ∀ g run, (o g run).unit = false) : (crossClaim u o).Holds i :=
  claim_holds_done _ he fun s c g run _ hm => by
    obtain ⟨hparts, harmed, -⟩ := crossClaim_cond (s := s) u hm
    exact CrossOp.run_of_whole run hparts harmed (by rw [hunit]; exact .of_unused)

/-- A word that runs a cross-lane operation meets the operation's claim where its group is the only one of its number (R210). -/
theorem crossClaim_holds_in_sole_group (he : ∀ s, exec i s = issueD u (fun c g run s => (o g run).run c g s) s) :
    (crossClaim u o).inSoleGroup.Holds i :=
  claim_holds_done _ he fun s c g run _ hm => by
    obtain ⟨hcond, hsole⟩ := Bool.and_eq_true_iff.1 hm
    obtain ⟨hparts, harmed, hunits⟩ := crossClaim_cond u hcond
    exact CrossOp.run_of_whole run hparts harmed (.of_soleGroup hunits hsole)

end

/-! ## Shuffles, votes and interleaving (R211, R212, R214) -/

theorem exec_shuffles : ∀ e ∈ shuffles, ∀ d a s, exec (e.1 d a) s = shuffle e.2.1 e.2.2 d a s := by
  simp only [shuffles, List.forall_mem_cons]
  exact ⟨fun _ _ _ => rfl, fun _ _ _ => rfl, fun _ _ _ => rfl, fun _ _ _ => rfl, fun _ _ _ => rfl, List.forall_mem_nil _⟩

theorem shuffles_hold : ∀ e ∈ shuffles, ∀ d a, (crossClaim (fun _ _ run =>
      { vecUses1 d a with hopnd := .needs, bad := e.2.1 && !(run.hop == 0x8F || decide (0xC0 ≤ run.hop)) })
    (fun g run => shuffleOp e.2.2 d a g run)).Holds (e.1 d a) := fun e he d a =>
  crossClaim_holds (fun s => exec_shuffles e he d a s) fun _ _ => rfl

theorem voteUses_eq (d a : BitVec 8) : ({ role := .vector, bad := decide (8 ≤ d.toNat ∨ 8 ≤ a.toNat) } : Uses) =
    { role := .vector, bad := badPred d || badPred a } := by
  simp [badPred]

theorem vvoteany_holds (d a : BitVec 8) : AllHold (.vvoteany d a) (vvoteanyClaims d a) := by
  simp only [vvoteanyClaims, voteUses_eq]
  exact List.forall_mem_singleton.2 (crossClaim_holds (fun s => show execVvoteany d a s = _ from rfl) fun _ _ => rfl)

theorem vvoteall_holds (d a : BitVec 8) : AllHold (.vvoteall d a) (vvoteallClaims d a) := by
  simp only [vvoteallClaims, voteUses_eq]
  exact List.forall_mem_singleton.2 (crossClaim_holds (fun s => show execVvoteall d a s = _ from rfl) fun _ _ => rfl)

theorem vballot_holds (d a : BitVec 8) : AllHold (.vballot d a) (vballotClaims d a) :=
  List.forall_mem_singleton.2 (crossClaim_holds (fun s => show execVballot d a s = _ from rfl) fun _ _ => rfl)

theorem vzip_holds (n : BitVec 2) (d a : BitVec 8) : AllHold (.vzip n d a) (vzipClaims n d a) :=
  List.forall_mem_singleton.2 (crossClaim_holds (fun s => show execVzip n d a s = _ from rfl) fun _ _ => rfl)

theorem vunzip_holds (n : BitVec 2) (d a : BitVec 8) : AllHold (.vunzip n d a) (vunzipClaims n d a) :=
  List.forall_mem_singleton.2 (crossClaim_holds (fun s => show execVunzip n d a s = _ from rfl) fun _ _ => rfl)

/-! ## Reductions and scans (R213) -/

theorem exec_reductions : ∀ e ∈ reductions, ∀ d a q u s, exec (e.1 d a q u) s = reduce e.2 d a q u s := by
  simp only [reductions, List.forall_mem_cons]
  exact ⟨fun _ _ _ _ _ => rfl, fun _ _ _ _ _ => rfl, fun _ _ _ _ _ => rfl, fun _ _ _ _ _ => rfl, fun _ _ _ _ _ => rfl,
    fun _ _ _ _ _ => rfl, List.forall_mem_nil _⟩

theorem reductions_hold_in_sole_group : ∀ e ∈ reductions, ∀ d a (q : BitVec 2) (u : BitVec 1),
    (crossClaim (fun c g _ => reduceUses d a u c g) (fun g run => reduceOp e.2 d a q u g run)).inSoleGroup.Holds (e.1 d a q u) :=
  fun e he d a q u => crossClaim_holds_in_sole_group fun s => exec_reductions e he d a q u s

/-- The reductions without an adder (R194). -/
theorem reductions_hold : ∀ e ∈ reductions, e.2.units = false → ∀ d a (q : BitVec 2) (u : BitVec 1),
    (crossClaim (fun c g _ => reduceUses d a u c g) (fun g run => reduceOp e.2 d a q u g run)).Holds (e.1 d a q u) :=
  fun e he hunits d a q u => crossClaim_holds (fun s => exec_reductions e he d a q u s) fun _ _ => hunits

theorem exec_scans : ∀ e ∈ scans, ∀ d a q x s, exec (e.1 d a q x) s = scan e.2 d a q x s := by
  simp only [scans, List.forall_mem_cons]
  exact ⟨fun _ _ _ _ _ => rfl, fun _ _ _ _ _ => rfl, fun _ _ _ _ _ => rfl, List.forall_mem_nil _⟩

theorem scans_hold_in_sole_group : ∀ e ∈ scans, ∀ d a (q : BitVec 2) (x : BitVec 1), (crossClaim (plain (vecUses1 d a)) (fun g run =>
    { srcs := [a.toNat], qual := if q = 0 then none else some q.toNat, accept := e.2.accepts, resTag := id, size := 2 ^ g.part,
      vdst := [d.toNat], marksEmpty := true, unit := e.2.units, identity := e.2.identWord,
      f := scanPart e.2 (x == 1) g run a (2 ^ g.part) })).inSoleGroup.Holds (e.1 d a q x) := fun e he d a q x =>
  crossClaim_holds_in_sole_group fun s => exec_scans e he d a q x s

/-! ## Conversions (R130, R131, R146) -/

theorem mem_srcTags {a : BitVec 8} {ls : List Nat} {t : Nat} :
    t ∈ g.srcTags [src a 1] ls ↔ ∃ l ∈ ls, g.srcTag a.toNat l = some t := by
  simp [Group.srcTags, src]

theorem srcTag_of_register {a l : Nat} (hreg : isRegCode a = true) (h : g.inWindow a l = true) : ∃ t, g.srcTag a l = some t := by
  simp only [Group.inWindow, hreg, Bool.not_true, Bool.false_or, List.all_cons, Bool.and_eq_true] at h
  exact Option.isSome_iff_exists.1 (by simpa [Group.srcTag, hreg] using h.1)

/-- Whether a conversion widens for some lane: of a register by the lanes' tags, of an immediate or broadcast as from INT32 (R80). -/
theorem widens_lanes (t : Nat) (a : BitVec 8) {ls : List Nat} (h : ∀ l ∈ ls, g.inWindow a.toNat l = true) :
    (!ls.isEmpty && (if isRegCode a.toNat then (g.srcTags [src a 1] ls).any (widens · t) else widens 0 t)) =
      ls.any (fun l => widens ((g.srcTag a.toNat l).getD 0) t) := by
  cases hreg : isRegCode a.toNat with
  | false => cases ls <;> simp [Group.srcTag, hreg]
  | true =>
    rw [Bool.eq_iff_iff]
    simp only [Bool.and_eq_true, if_true, List.any_eq_true, mem_srcTags]
    constructor
    · rintro ⟨-, x, ⟨l, hl, hx⟩, hw⟩
      exact ⟨l, hl, by rwa [hx]⟩
    · rintro ⟨l, hl, hw⟩
      obtain ⟨x, hx⟩ := srcTag_of_register hreg (h l hl)
      rw [hx] at hw
      exact ⟨by simpa using List.ne_nil_of_mem hl, x, ⟨l, hl, hx⟩, hw⟩

/-- Whether a slice of an issuing unit wants a HOPND is whether one of its lanes does (R130). -/
theorem cvtWidens_eq (t : BitVec 4) (a : BitVec 8) (c : Cur) (g : Group) : cvtWidens t a c g = wants t a c g := by
  have hslice (sl : Nat) := widens_lanes (g := g) t.toNat a
    (ls := (lanesOf c.lanes).filter (fun l => g.sliceOf l == sl && g.inWindow a.toNat l)) (by simp)
  rw [Bool.eq_iff_iff]
  simp only [cvtWidens, wants, hslice]
  simp only [List.any_eq_true, List.mem_filter, Bool.and_eq_true, beq_iff_eq, List.contains_iff_mem, widens]
  constructor
  · rintro ⟨_, hsl, l, ⟨hl, rfl, hwin⟩, hw⟩
    exact ⟨l, hl, ⟨hsl, hwin⟩, hw⟩
  · rintro ⟨l, hl, ⟨hsl, hwin⟩, hw⟩
    exact ⟨_, hsl, l, ⟨hl, rfl, hwin⟩, hw⟩

theorem vcvt_holds_in_sole_group (t : BitVec 4) (r : BitVec 2) (sg : BitVec 1) (d a : BitVec 8) :
    AllHoldInSoleGroup (.vcvt t r sg d a) (vcvtClaims t r sg d a) := by
  unfold vcvtClaims
  split
  next ht =>
    subst ht
    exact List.forall_mem_singleton.2 (crossClaim_holds_in_sole_group fun s => show execVcvt 8 r sg d a s = _ from rfl)
  next ht =>
    have hexec (s : State) : exec (.vcvt t r sg d a) s = cvtLane t r sg d a s := if_neg ht
    simp only [cvtLane, cvtWidens_eq] at hexec
    refine List.forall_mem_cons.2 ⟨?converts, List.forall_mem_singleton.2 ?missing⟩
    case converts =>
      refine claim_holds_done _ hexec fun s c g run _ hm => ?_
      obtain ⟨⟨⟨hgiven, hc⟩, hi⟩, hsole⟩ : (((run.hopnd.isNone && wants t a c g) = false ∧
          (conversion t r sg d a run s.freeCtr).clean c g run = true) ∧ g.errinj.getLsbD 31 = false) ∧
          soleGroup c g run s = true := by simpa only [Bool.and_eq_true, Bool.not_eq_true'] using hm
      have hsound : UnitsSound true c s := .of_soleGroup (fun _ => LaneOp.sound_of_clean hc rfl) hsole
      rw [hgiven]
      exact LaneOp.run_of_clean (s := { s with freeCtr := s.freeCtr + 256 }) hc hi hsound
    case missing =>
      refine claim_holds_fault _ hexec fun s c g run _ hm => ?_
      exact if_pos (Bool.and_eq_true_iff.1 hm).1

end Sys2Proof.Machine
end

section
/-! SUPPORT. Words that use a unit of each lane in a team that holds two groups of one number: the model lets the word use up the units
that are to go wrong in both, where a claim leaves them as they are (R194). -/

namespace Sys2Proof.Machine

/-! ## The state -/

/-- A group in a run of one word. -/
def unitGroup (i : Instr) : Group := probeGroup [encodeWord i] 0 true

/-- The run that the group is in. -/
def unitRun (i : Instr) : Run := { exitRun with words := [encodeWord i] }

/-- The gang of the run. -/
def unitGang (i : Instr) : Gang := { exitGang with run := some (unitRun i) }

/-- The word of the run as it issues, with lane 5 active. -/
def unitIssuer (i : Instr) : Cur := { exitIssuer with lanes := 0x20, word := encodeWord i }

/-- The word about to issue in a team that holds the group twice, the second time with the unit of lane 5 to go wrong. -/
def unitTwins (i : Instr) : State :=
  { State.reset with
    teams := [(0, { probeTeam (unitGroup i) with groups := [unitGroup i, { unitGroup i with unitBad := [5] }] })]
    cur := some (unitIssuer i) }

/-- A claim applies to the word that is about to issue. -/
abbrev Claim.AppliesToTwins (x : Claim) (i : Instr) : Prop := x.Applies (unitTwins i) (unitIssuer i) (unitGroup i) (unitGang i) (unitRun i)

/-! ## The units that are to go wrong -/

/-- The lanes whose units are to go wrong, by group. -/
def unitsBad (s : State) : Option (List (List Nat)) := (s.teams.find 0).map (fun t => t.groups.map (·.unitBad))

/-- The same after a word; none where it has no next state. -/
def unitsBadAfter (i : Instr) (s : State) : Option (List (List Nat)) :=
  match exec i s with
  | .next u => unitsBad u
  | _ => none

/-- The same after a word that does what a claim of it says. -/
def unitsBadClaimed (i : Instr) (x : Claim) : Option (List (List Nat)) :=
  (keepWrites (x.uses (unitIssuer i) (unitGroup i) (unitRun i)) (unitIssuer i) (unitGroup i)
    (x.effect (unitIssuer i) (unitGroup i) (unitRun i) (unitTwins i))).bind
    (fun y => unitsBad (wordOver (unitIssuer i) (unitTwins i) false y))

/-- A claim that leaves the second group its unit fails where the word uses it up. -/
theorem not_holds_of_unitTwins {i : Instr} {x : Claim} (hdone : x.ending = .done) (happlies : x.AppliesToTwins i)
    (hclaimed : unitsBadClaimed i x = some [[], [5]]) (hafter : unitsBadAfter i (unitTwins i) = some [[], []]) : ¬ x.Holds i := by
  intro h
  obtain ⟨y, hy, hleft⟩ := Option.bind_eq_some_iff.1 hclaimed
  have hnext := h _ _ _ _ _ happlies
  rw [hdone] at hnext
  rw [unitsBadAfter, hnext y hy] at hafter
  exact absurd (hafter.symm.trans hleft) (by decide)

/-! ## VADD and VREDADD -/

/-- VADD of v4, v8 and v12. -/
def vaddWord : Instr := .vadd 4 8 12

/-- The claim of VADD. -/
def vaddClaim : Claim := laneClaim (plain (vecUses 4 8 12)) (fun g _ =>
  { prim := [src 8 1, src 12 2], unit := true, accept := arithTag, resTag := id, dst := .vec 4,
    f := fun _ t _ vs => byElems (mixed (· + ·) (fun f x y => f.addV g.rm x y)) t vs })

theorem vaddClaim_applies : vaddClaim.AppliesToTwins vaddWord where
  starts := ⟨⟨rfl, by decide +kernel, by decide +kernel, rfl⟩, rfl, rfl, by decide +kernel, by decide +kernel, by decide +kernel⟩
  meant := by decide +kernel

theorem vaddClaim_leaves_units : unitsBadClaimed vaddWord vaddClaim = some [[], [5]] := by decide +kernel
theorem vaddWord_uses_up_units : unitsBadAfter vaddWord (unitTwins vaddWord) = some [[], []] := by decide +kernel

/-- VREDADD of v8 into v4. -/
def vreduceWord : Instr := .vredadd 4 8 0 0

/-- The claim of VREDADD. -/
def vreduceClaim : Claim := crossClaim (fun c g _ => reduceUses 4 8 0 c g) (fun g run => reduceOp .add 4 8 0 0 g run)

theorem vreduceClaim_applies : vreduceClaim.AppliesToTwins vreduceWord where
  starts := ⟨⟨rfl, by decide +kernel, by decide +kernel, rfl⟩, rfl, rfl, by decide +kernel, by decide +kernel, by decide +kernel⟩
  meant := by decide +kernel

theorem vreduceClaim_leaves_units : unitsBadClaimed vreduceWord vreduceClaim = some [[], [5]] := by decide +kernel
theorem vreduceWord_uses_up_units : unitsBadAfter vreduceWord (unitTwins vreduceWord) = some [[], []] := by decide +kernel

/-- Refutes O9: the statement leaves open that a team holds two groups of one number. Then a word with a unit uses up the second group's
unit that is to go wrong in an active lane, where its claim leaves it. logic3_hold, preds3_hold, identities_hold and vsel_holds to
xwin_holds prove the claims of the words without a unit, vec3_hold_in_sole_group to vrandu_holds_in_sole_group those of the others where
the group's number is no other group's. -/
theorem not_laneWordsWriteEveryActiveLane : ¬ Obligations.LaneWordsWriteEveryActiveLane := by
  rintro ⟨hvec3, -⟩
  exact not_holds_of_unitTwins rfl vaddClaim_applies vaddClaim_leaves_units vaddWord_uses_up_units (hvec3 _ List.mem_cons_self 4 8 12)

/-- Refutes O10: the statement leaves open the same two groups, and the claim of a reduction that adds leaves the second its unit, too.
shuffles_hold, vvoteany_holds to vunzip_holds and reductions_hold prove the claims of the words without a unit,
reductions_hold_in_sole_group, scans_hold_in_sole_group and vcvt_holds_in_sole_group those of the others where the group's number is no
other group's. -/
theorem not_crossLaneWordsExchangePartitions : ¬ Obligations.CrossLaneWordsExchangePartitions := by
  rintro ⟨-, hreductions, -⟩
  exact not_holds_of_unitTwins rfl vreduceClaim_applies vreduceClaim_leaves_units vreduceWord_uses_up_units
    (hreductions _ List.mem_cons_self 4 8 0 0)

end Sys2Proof.Machine
end

section
/-! SUPPORT. The claims of words with a unit are met in a group that is the only one of its number. -/

namespace Sys2Proof.Tests

open Sys2Proof Sys2Proof.Machine

theorem test_vec3_met_in_sole_group : vec3.all (fun e => metTagged (laneClaim (plain (vecUses 4 8 12)) (fun g _ =>
    { prim := [src 8 1, src 12 2], unit := true, accept := e.2.1, resTag := id, dst := .vec 4,
      f := fun _ t _ vs => byElems (e.2.2 g.rm) t vs })).inSoleGroup (e.1 4 8 12)) = true := by decide +kernel

theorem test_vec2_met_in_sole_group : vec2.all (fun e => metTagged (laneClaim (plain (vecUses1 4 8)) (fun _ _ =>
    { prim := [src 8 1], unit := true, accept := e.2.1, resTag := id, dst := .vec 4,
      f := fun _ t _ vs => byElems (fun t es => e.2.2 t (el es 0)) t vs })).inSoleGroup (e.1 4 8)) = true := by decide +kernel

theorem test_reductions_met_in_sole_group : reductions.all (fun e => metTagged (crossClaim (fun c g _ => reduceUses 4 8 0 c g)
    (fun g run => reduceOp e.2 4 8 0 0 g run)).inSoleGroup (e.1 4 8 0 0)) = true := by decide +kernel

theorem test_scans_met_in_sole_group : scans.all (fun e => metTagged (crossClaim (plain (vecUses1 4 8)) (fun g run =>
    { srcs := [8], qual := none, accept := e.2.accepts, resTag := id, size := 2 ^ g.part, vdst := [4], marksEmpty := true,
      unit := e.2.units, identity := e.2.identWord, f := scanPart e.2 false g run 8 (2 ^ g.part) })).inSoleGroup
    (e.1 4 8 0 0)) = true := by decide +kernel

theorem test_unit_words_met_in_sole_group : allMet [
   ((vmaClaims 4 8 12).map Claim.inSoleGroup, 0, after [oneLane] (.vma 4 8 12)),
   ((vcmpClaims 1 1 12 16).map Claim.inSoleGroup, 0, after [oneLane] (.vcmp 1 1 12 16)),
   ((xaddClaims 1 8).map Claim.inSoleGroup, 0, after [oneLane] (.xadd 1 8)),
   ((vcvtClaims 1 1 1 16 20).map Claim.inSoleGroup, 0, after [] (.vcvt 1 1 1 16 20)),
   ((vcvtClaims 3 2 1 1 1).map Claim.inSoleGroup, 1, after [oneLane] (.vcvt 3 2 1 1 1))] = true := by decide +kernel

end Sys2Proof.Tests
end

section
/-! SUPPORT. LOAD_REPLY (R219 to R236, R250): the lane that it is about, and where that lane's bytes are at hand. -/

namespace Sys2Proof.Machine

/-- The lane that LOAD_REPLY is about: neither over nor being translated, of a memory operation of a resident team's group. -/
structure ReplyLane (s : State) (o : Op) (m : MemOp) (t : Team) (g : Group) (a : LaneAcc) : Prop where
  op : s.ops.find s.subject.a = some o
  mem : o.body = .mem m
  team : s.teams.find o.team = some t
  group : s.group? o.team o.group = some g
  resident : t.phase = .resident
  lane : m.accs.find? (fun (a : LaneAcc) => a.lane == s.subject.b && (a.st == .ready || a.st == .miss)) = some a

/-- A step about a lane does what its claim says when it does so wherever that lane is there. -/
theorem laneStep_holds {p : Op → MemOp → Team → Group → LaneAcc → State → Bool} {f : Op → MemOp → Team → Group → LaneAcc → State → State}
    (h : ∀ s o m t g a, ReplyLane s o m t g a → p o m t g a s = true →
      exec .loadReply s = .next { f o m t g a s with subject := {} }) : (laneStep p f).Holds .loadReply := by
  intro s hdue
  simp only [laneStep, Option.any_eq_true] at hdue
  obtain ⟨o, ho, hdue⟩ := hdue
  cases hbody : o.body
  case mem m =>
    simp only [hbody, Option.any_eq_true, Bool.and_eq_true, beq_iff_eq] at hdue
    obtain ⟨t, ht, g, hg, hres, a, ha, hp⟩ := hdue
    simp only [h s o m t g a ⟨ho, hbody, ht, hg, hres, ha⟩ hp, laneStep, ho, hbody, ht, hg, ha]
  all_goals simp [hbody] at hdue

/-- A load's lane that may be performed, in its operation's space (R218). -/
def loadAt (s : State) (t : Team) (g : Group) (o : Op) (m : MemOp) (a : LaneAcc) : State :=
  match m.space with
  | .tile => if tileWaits s t (a.pa / 2 ^ 15) o.id then s else
      bindData s o m a (tileBytes (s.tileOf t (a.pa / 2 ^ 15) (g.core - t.core)) (a.pa % 2 ^ 15) m.bytes)
  | .scratch => loadScratch s t g o m a
  | .sync => loadScratch s t g o m a
  | .drawer => loadDrawer s t g o m a
  | .remote => s
  | .global => if 2 ^ 40 ≤ a.pa then loadDevice s t g o m a else loadGlobal s t g o m a

section
variable {s : State} {o : Op} {m : MemOp} {t : Team} {g : Group} {a : LaneAcc} (h : ReplyLane s o m t g a)
include h

theorem loadReply_probe (hk : m.kind = .probe) : exec .loadReply s = .next { bindData s o m a a.data with subject := {} } := by
  change execLoadReply s = _
  simp [execLoadReply, onEvent, h.op, h.mem, h.team, h.group, h.resident, h.lane, hk]

theorem loadReply_load (hl : loads s t g o m a = true) : exec .loadReply s = .next { loadAt s t g o m a with subject := {} } := by
  change execLoadReply s = _
  simp only [loads, Bool.and_eq_true, Bool.or_eq_true, beq_iff_eq] at hl
  obtain ⟨hk | hk, hr⟩ := hl <;>
    simp only [execLoadReply, onEvent, h.op, h.mem, h.team, h.group, h.lane, h.resident, hk, hr, ne_eq, not_true_eq_false, Bool.not_true,
      Bool.false_eq_true, if_false] <;> rfl

end

/-! ## Where the bytes are -/

section
variable {s : State} {o : Op} {m : MemOp} {t : Team} {g : Group} {a : LaneAcc} {fs : List (Option Byte)}

theorem loadAt_tile (hsp : m.space = .tile) (hw : tileWaits s t (a.pa / 2 ^ 15) o.id = false) : loadAt s t g o m a =
    bindData s o m a (tileBytes (s.tileOf t (a.pa / 2 ^ 15) (g.core - t.core)) (a.pa % 2 ^ 15) m.bytes) := by
  simp only [loadAt, hsp, hw, Bool.false_eq_true, if_false]

theorem loadAt_scratch (hsp : m.space = .scratch) : loadAt s t g o m a = loadScratch s t g o m a := by simp only [loadAt, hsp]

theorem loadAt_global (hsp : m.space = .global) (hpa : a.pa < 2 ^ 40) : loadAt s t g o m a = loadGlobal s t g o m a := by
  simp only [loadAt, hsp, Nat.not_le.2 hpa, if_false]

/-- A load at a bank that serves it takes the bank's bytes with those forwarded laid over them (R235, R267, R268). -/
theorem loadScratch_of_serves (hf : forward s t g o m a = some fs) (hb : bankServes s t m a = true) :
    loadScratch s t g o m a =
      bindData ((s.wakeBank t.pool (a.pa / 32768)).2.correctBank t.pool (a.pa / 32768) (a.pa % 32768) m.bytes) o m a
        (overBytes fs (Memory.readN (((s.wakeBank t.pool (a.pa / 32768)).2.cluster t.pool).bank (a.pa / 32768)).mem m.bytes (a.pa % 32768))) := by
  unfold bankServes at hb
  unfold loadScratch
  rw [hf]
  dsimp only
  generalize s.wakeBank t.pool (a.pa / 32768) = r at hb ⊢
  obtain ⟨awake, x⟩ := r
  rw [Bool.and_eq_true, Bool.not_eq_true', ← Bool.not_eq_true] at hb
  obtain ⟨rfl, hgood⟩ := hb
  exact if_neg hgood

/-- A load whose bytes are all forwarded to it takes those (R235). -/
theorem loadGlobal_of_forwarded (hr : replyFor s o.id (a.pa / 256) = none) (hf : forward s t g o m a = some fs)
    (hall : fs.all (·.isSome) = true) : loadGlobal s t g o m a = bindData s o m a (overBytes fs []) := by
  simp only [loadGlobal, hr, hf, hall, if_true]

theorem of_globalMiss (h : (globalMiss s t g o m a).isSome = true) : ∃ fs, globalMiss s t g o m a = some fs ∧
    loads s t g o m a = true ∧ m.space = .global ∧ a.pa < 2 ^ 40 ∧ replyFor s o.id (a.pa / 256) = none ∧
    forward s t g o m a = some fs ∧ fs.all (·.isSome) = false := by
  obtain ⟨fs, hfs⟩ := Option.isSome_iff_exists.1 h
  obtain ⟨⟨hl, hsp, hpa, hr⟩, hfs'⟩ := Option.ite_none_right_eq_some.1 hfs
  obtain ⟨hf, hall⟩ := Option.filter_eq_some_iff.1 hfs'
  exact ⟨fs, hfs, hl, hsp, hpa, Option.isNone_iff_eq_none.1 hr, hf, by simpa using hall⟩

/-- A load finds the bytes that are not forwarded to it in L1 (R229). -/
theorem loadGlobal_of_l1 (hr : replyFor s o.id (a.pa / 256) = none) (hf : forward s t g o m a = some fs)
    (hall : fs.all (·.isSome) = false) (hskip : skipsL1 t m = false) {bs : List Byte} (hbs : (l1Read s g m a).1 = some bs) :
    loadGlobal s t g o m a = bindData (l1Read s g m a).2 o m a (overBytes fs bs) := by
  unfold skipsL1 at hskip
  have hread : l1Read s g m a = (some bs, (l1Read s g m a).2) := Prod.ext hbs rfl
  simp only [loadGlobal, hr, hf, hall, hskip, Bool.false_eq_true, if_false]
  rw [hread]

/-- A load that does not look into L1 finds a clean sector at the home slice, and fills it into L1 (R229, R236). -/
theorem loadGlobal_of_home (hr : replyFor s o.id (a.pa / 256) = none) (hf : forward s t g o m a = some fs)
    (hall : fs.all (·.isSome) = false) (hskip : skipsL1 t m = true) (hv : (s.vcs.find a.vc).isSome = true)
    (hprov : provBlocked s t.id (homeKey a.vc a.pa) = false) (hawake : (s.wakeSlice a.vc a.pa).1 = true)
    (hhere : present (s.wakeSlice a.vc a.pa).2 a.vc a.pa = true) (hgood : homePoison (s.wakeSlice a.vc a.pa).2 a.vc a.pa = false) :
    loadGlobal s t g o m a =
      bindData (fillL1 (touchHome ((s.wakeSlice a.vc a.pa).2.correct a.vc a.pa) a.vc a.pa m.mods.cpol) g.core a.vc a.pa a.sealed m.mods.cpol
        g.acqt true) o m a
        (overBytes fs (homeBytes (touchHome ((s.wakeSlice a.vc a.pa).2.correct a.vc a.pa) a.vc a.pa m.mods.cpol) a.vc m.bytes a.pa)) := by
  unfold skipsL1 at hskip
  obtain ⟨v, hv⟩ := Option.isSome_iff_exists.1 hv
  simp only [loadGlobal, hr, hf, hall, hskip, hv, hprov, Bool.false_eq_true, if_false, if_true]
  generalize s.wakeSlice a.vc a.pa = r at hawake hhere hgood ⊢
  obtain ⟨awake, x⟩ := r
  obtain rfl : awake = true := hawake
  simp only [hhere, hgood, Bool.not_true, Bool.false_eq_true, if_false]

end

theorem loadReply_takes : AllTake .loadReply loadReplyClaims := by
  simp only [AllTake, loadReplyClaims, List.forall_mem_cons, List.not_mem_nil, false_imp_iff, implies_true, and_true]
  refine ⟨laneStep_holds ?probe, laneStep_holds ?tile, laneStep_holds ?bank, laneStep_holds ?forwarded, laneStep_holds ?l1,
    laneStep_holds ?home⟩
  all_goals
    intro s o m t g a h hp
    simp only [Bool.and_eq_true, Bool.not_eq_true', beq_iff_eq] at hp
  case probe => exact loadReply_probe h hp
  case tile =>
    obtain ⟨⟨hl, hsp⟩, hw⟩ := hp
    rw [loadReply_load h hl, loadAt_tile hsp hw]
  case bank =>
    obtain ⟨⟨⟨hl, hsp⟩, hf⟩, hb⟩ := hp
    obtain ⟨fs, hf⟩ := Option.isSome_iff_exists.1 hf
    rw [loadReply_load h hl, loadAt_scratch hsp, loadScratch_of_serves hf hb, hf, Option.getD_some]
  case forwarded =>
    obtain ⟨⟨⟨⟨hl, hsp⟩, hpa⟩, hr⟩, hf⟩ := hp
    obtain ⟨fs, hf, hall⟩ := (Option.any_eq_true _ _).1 hf
    rw [loadReply_load h hl, loadAt_global hsp (of_decide_eq_true hpa),
      loadGlobal_of_forwarded (Option.isNone_iff_eq_none.1 hr) hf hall, hf, Option.getD_some]
  case l1 =>
    obtain ⟨⟨hmiss, hskip⟩, hbs⟩ := hp
    obtain ⟨fs, hfs, hl, hsp, hpa, hr, hf, hall⟩ := of_globalMiss hmiss
    obtain ⟨bs, hbs⟩ := Option.isSome_iff_exists.1 hbs
    rw [loadReply_load h hl, loadAt_global hsp hpa, loadGlobal_of_l1 hr hf hall hskip hbs, hfs, hbs, Option.getD_some, Option.getD_some]
  case home =>
    obtain ⟨⟨⟨⟨⟨⟨hmiss, hskip⟩, hv⟩, hprov⟩, hawake⟩, hhere⟩, hgood⟩ := hp
    obtain ⟨fs, hfs, hl, hsp, hpa, hr, hf, hall⟩ := of_globalMiss hmiss
    rw [loadReply_load h hl, loadAt_global hsp hpa, loadGlobal_of_home hr hf hall hskip hv hprov hawake hhere hgood, hfs, Option.getD_some]

/-- Settles O23: a probe's lane takes its word, and a load's lane takes its bytes from its tile, its bank, what is forwarded to it, L1 or
its home slice, wherever the claim finds them. -/
theorem loadsBindTheirBytes : Obligations.LoadsBindTheirBytes := loadReply_takes

end Sys2Proof.Machine
end

section
/-! SUPPORT. The steps of the slices and of translation (R226, R236 to R245, R286, R294, R297, R303): walks, monitors, fills, retention
and reservations. -/

namespace Sys2Proof.Machine

/-! ## TRANSLATION_WALK (R226, R239) -/

/-- The lane that TRANSLATION_WALK is about: being translated, of a memory operation of a resident team's group. -/
def walkLane (e : Subject) (s : State) : Option (Op × MemOp × Team × Group × LaneAcc) :=
  match s.ops.find e.a with
  | none => none
  | some o => match o.body, s.teams.find o.team, s.group? o.team o.group with
    | .mem m, some t, some g => if t.phase ≠ .resident then none else
        (m.accs.find? (fun (a : LaneAcc) => a.lane == e.b && a.st == .walk)).map (fun a => (o, m, t, g, a))
    | _, _, _ => none

/-- A lane's last-page register covers its address (R240). -/
def ownPage (t : Team) (g : Group) (x : LaneAcc) : Bool :=
  match g.lastPage.find x.lane with
  | some p => p.covers t.ctx x.va.toNat
  | none => false

theorem ownPage_eq (t : Team) (g : Group) (x : LaneAcc) : ownPage t g x = (g.lastPage.find x.lane).any (fun p => p.covers t.ctx x.va.toNat) := by
  unfold ownPage
  cases g.lastPage.find x.lane <;> rfl

/-- The lanes whose translation ends with that of a lane: those of its block, but for what a last-page register answers (R226). -/
def endsWith (m : MemOp) (t : Team) (g : Group) (a : LaneAcc) (own : Bool) (x : LaneAcc) : Bool :=
  x.st == .walk && (x.lane == a.lane || (m.kind != MemKind.probe && !own && !ownPage t g x && x.va.toNat / 256 == a.va.toNat / 256))

theorem endsWith_eq (m : MemOp) (t : Team) (g : Group) (a : LaneAcc) (own : Bool) : endsWith m t g a own = fun x =>
    x.st == .walk && (x.lane == a.lane || (m.kind != MemKind.probe && !own &&
      !(g.lastPage.find x.lane).any (fun p => p.covers t.ctx x.va.toNat) && x.va.toNat / 256 == a.va.toNat / 256)) := by
  funext x
  rw [← ownPage_eq]
  rfl

/-- The last-page registers of a group after a translation that has come to a leaf (R240). -/
def keptPages (m : MemOp) (t : Team) (g : Group) (a : LaneAcc) (own : Bool) (l : Leaf) : Map Tlb :=
  (m.accs.filter (endsWith m t g a own)).foldl (fun (p : Map Tlb) (x : LaneAcc) => p.put x.lane (l.asTlb t.ctx)) g.lastPage

/-- A translation that has ended leaves the group's last-page registers and the operation's lanes. -/
def translated (s : State) (o : Op) (m : MemOp) (t : Team) (g : Group) (a : LaneAcc) (w : Walk) (reached own : Bool) : State :=
  (match w with
    | .ok l => if m.kind = MemKind.probe then s else s.onGroup t.id g.id (fun (h : Group) => { h with lastPage := keptPages m t g a own l })
    | _ => s).setBody o.id (.mem { m with accs := m.accs.map (fun (x : LaneAcc) =>
      if endsWith m t g a own x then translatedLane m x w reached else x) })

/-- The step about a lane: its translation ends, or goes on waiting. -/
def walkStep (e : Subject) (s : State) : State :=
  match walkLane e s with
  | none => s
  | some (o, m, t, g, a) => match laneWalk s g t.ctx a.lane a.va m.kind.need with
    | (none, x) => x
    | (some (w, reached, own), x) => translated x o m t g a w reached own

theorem exec_translationWalk (s : State) : exec .translationWalk s = onEvent walkStep s := by
  change execTranslationWalk s = _
  unfold execTranslationWalk onEvent
  congr 2
  unfold walkStep walkLane
  dsimp only
  cases s.ops.find s.subject.a with
  | none => rfl
  | some o =>
    dsimp only
    cases o.body
    case mem m =>
      cases s.teams.find o.team <;> cases s.group? o.team o.group
      case some.some t g =>
        by_cases hres : t.phase = .resident
        · simp only [hres, ne_eq, not_true_eq_false, if_false]
          cases m.accs.find? (fun (a : LaneAcc) => a.lane == s.subject.b && a.st == .walk) with
          | none => rfl
          | some a =>
            dsimp only [Option.map_some]
            obtain ⟨_ | ⟨w, reached, own⟩, x⟩ := laneWalk s g t.ctx a.lane a.va m.kind.need
            · rfl
            · cases w <;> rfl
        · simp only [hres, ne_eq, not_false_eq_true, if_true]
          split <;> rfl
      all_goals rfl
    all_goals rfl

/-- What the claims say of a translation that has ended: the lane, the outcome and the state. -/
def walkEnd (e : Subject) (s : State) : Option ((Op × MemOp × Team × Group × LaneAcc) × (Walk × Bool × Bool) × State) :=
  (walkLane e s).bind (fun y => match laneWalk s y.2.2.2.1 y.2.2.1.ctx y.2.2.2.2.lane y.2.2.2.2.va y.2.1.kind.need with
    | (some r, s1) => some (y, r, s1)
    | (none, _) => none)

theorem walkStep_of_end {e : Subject} {s s1 : State} {o : Op} {m : MemOp} {t : Team} {g : Group} {a : LaneAcc} {w : Walk} {reached own : Bool}
    (h : walkEnd e s = some ((o, m, t, g, a), (w, reached, own), s1)) : walkStep e s = translated s1 o m t g a w reached own := by
  obtain ⟨⟨o, m, t, g, a⟩, hlane, h⟩ := Option.bind_eq_some_iff.1 h
  unfold walkStep
  rw [hlane]
  dsimp only at h ⊢
  generalize laneWalk s g t.ctx a.lane a.va m.kind.need = r at h ⊢
  obtain ⟨_ | ⟨w, reached, own⟩, x⟩ := r
  · cases h
  · cases h
    rfl

theorem walkStep_of_waits {e : Subject} {s : State} {o : Op} {m : MemOp} {t : Team} {g : Group} {a : LaneAcc}
    (hlane : walkLane e s = some (o, m, t, g, a)) (h : walkEnd e s = none) :
    walkStep e s = (laneWalk s g t.ctx a.lane a.va m.kind.need).2 := by
  unfold walkEnd at h
  unfold walkStep
  rw [hlane] at h ⊢
  dsimp only [Option.bind_some] at h ⊢
  generalize laneWalk s g t.ctx a.lane a.va m.kind.need = r at h ⊢
  obtain ⟨_ | ⟨w, reached, own⟩, x⟩ := r
  · rfl
  · cases h

theorem walkStep_of_none {e : Subject} {s : State} (h : walkLane e s = none) : walkStep e s = s := by
  unfold walkStep
  rw [h]

theorem translationWalk_takes : AllTake .translationWalk translationWalkClaims := by
  simp only [AllTake, translationWalkClaims, List.forall_mem_cons, List.not_mem_nil, false_imp_iff, implies_true, and_true]
  refine ⟨Event.holds_of _ exec_translationWalk fun e s hp => ?ok, Event.holds_of _ exec_translationWalk fun e s hp => ?stops,
    Event.holds_of _ exec_translationWalk fun e s hp => ?waits, Event.holds_of _ exec_translationWalk fun e s hp => ?idle⟩
  case ok =>
    obtain ⟨⟨⟨o, m, t, g, a⟩, ⟨w, reached, own⟩, x⟩, hend, hp⟩ := (Option.any_eq_true _ _).1 hp
    rw [walkStep_of_end hend]
    dsimp only
    simp only [hend]
    obtain ⟨hk, hw⟩ := Bool.and_eq_true_iff.1 hp
    cases w with
    | ok l => simp only [translated, keptPages, endsWith_eq, bne_iff_ne.1 hk, if_false]
    | _ => cases hw
  case stops =>
    obtain ⟨⟨⟨o, m, t, g, a⟩, ⟨w, reached, own⟩, x⟩, hend, hp⟩ := (Option.any_eq_true _ _).1 hp
    rw [walkStep_of_end hend]
    dsimp only
    simp only [hend]
    cases w with
    | ok l =>
      have hk : m.kind = .probe := by simpa using hp
      simp only [translated, endsWith_eq, if_pos hk]
    | _ => simp only [translated, endsWith_eq]
  case waits =>
    obtain ⟨hlane, hend⟩ := Bool.and_eq_true_iff.1 hp
    obtain ⟨⟨o, m, t, g, a⟩, hlane⟩ := Option.isSome_iff_exists.1 hlane
    rw [walkStep_of_waits hlane (Option.isNone_iff_eq_none.1 hend)]
    dsimp only
    simp only [hlane]
  case idle => exact walkStep_of_none (Option.isNone_iff_eq_none.1 hp)

/-! ## Monitors, fills, migrations, clearing (R236, R245, R294, R297) -/

theorem pageMonitorWake_takes : AllTake .pageMonitorWake pageMonitorWakeClaims :=
  List.forall_mem_singleton.2 (Event.holds_of _ (fun _ => rfl) fun _ _ _ => rfl)

theorem walkRetryTimer_takes : AllTake .walkRetryTimer walkRetryTimerClaims := by
  refine List.forall_mem_singleton.2 fun s hdue => ?_
  change execWalkRetryTimer s = _
  obtain ⟨g, hg⟩ := Option.isSome_iff_exists.1 hdue
  simp only [execWalkRetryTimer, onEvent, hg]

theorem lineHandover_takes : AllTake .lineHandover lineHandoverClaims :=
  List.forall_mem_singleton.2 (Event.holds_of _ (fun _ => rfl) fun _ _ _ => rfl)

@[simp] theorem State.allLinks_homes (s : State) (f : Link → Link) : (s.allLinks f).homes = s.homes := rfl

theorem sectorFillReturn_takes : AllTake .sectorFillReturn sectorFillReturnClaims := by
  simp only [AllTake, sectorFillReturnClaims, List.forall_mem_cons, List.not_mem_nil, false_imp_iff, implies_true, and_true]
  refine ⟨fun s hdue => ?fills, fun s hdue => ?nobodyWaits, fun s hdue => ?noReply⟩
  all_goals change execSectorFillReturn s = _
  case noReply => simp only [execSectorFillReturn, onEvent, Option.isNone_iff_eq_none.1 hdue]
  all_goals
    obtain ⟨hr, hwait⟩ := Bool.and_eq_true_iff.1 hdue
    obtain ⟨r, hr⟩ := Option.isSome_iff_exists.1 hr
    rw [State.allLinks_homes] at hwait
    cases hx : s.homes.find (homeKey s.subject.a (64 * s.subject.b))
  case fills.none => simp [hx] at hwait
  case fills.some x =>
    cases hst : x.st with
    | pending w => simp only [execSectorFillReturn, onEvent, hr, State.allLinks_homes, hx, hst]
    | _ => simp [hx, hst] at hwait
  case nobodyWaits.none => simp only [execSectorFillReturn, onEvent, hr, State.allLinks_homes, hx]
  case nobodyWaits.some x =>
    cases hst : x.st with
    | pending w => simp [hx, hst] at hwait
    | _ => simp only [execSectorFillReturn, onEvent, hr, State.allLinks_homes, hx, hst]

theorem shareClearingDone_takes : AllTake .shareClearingDone shareClearingDoneClaims := by
  simp only [AllTake, shareClearingDoneClaims, whenDue, List.forall_mem_cons, List.not_mem_nil, false_imp_iff, implies_true, and_true]
  refine ⟨fun s hdue => ?clears, fun s hdue => ?waits⟩
  all_goals
    change execShareClearingDone s = _
    dsimp only at hdue ⊢
  case clears =>
    obtain ⟨v, hv, hdue⟩ := (Option.any_eq_true _ _).1 hdue
    obtain ⟨c, hc, hdue⟩ := (Option.any_eq_true _ _).1 hdue
    simp only [execShareClearingDone, onEvent, hv, hc, Nat.not_lt.2 (of_decide_eq_true hdue), if_false]
  case waits =>
    cases hv : s.vcs.find s.subject.a with
    | none => simp only [execShareClearingDone, onEvent, hv]
    | some v =>
      cases hc : v.clearing.find? (fun c => c.1 == s.subject.b) with
      | none => simp only [execShareClearingDone, onEvent, hv, hc]
      | some c =>
        have hlate : s.clock < c.2 := by simpa [hv, hc] using hdue
        simp only [execShareClearingDone, onEvent, hv, hc, hlate, if_true]

/-! ## Retention and reservations (R286, R303) -/

theorem sliceRetentionEntry_takes : AllTake .sliceRetentionEntry sliceRetentionEntryClaims := by
  simp only [AllTake, sliceRetentionEntryClaims, List.forall_mem_cons, List.not_mem_nil, false_imp_iff, implies_true, and_true]
  refine ⟨fun s hdue => ?begins, fun s hdue => ?ends, fun s hdue => ?stands⟩
  all_goals
    change execSliceRetentionEntry s = _
    dsimp only [idleWhen] at hdue ⊢
  case begins =>
    simp only [Bool.and_eq_true, beq_iff_eq, decide_eq_true_eq, Bool.not_eq_true'] at hdue
    obtain ⟨⟨⟨⟨hactive, hon⟩, hidle⟩, hclear⟩, hlong⟩ := hdue
    simp only [execSliceRetentionEntry, onEvent, hactive]
    rw [if_neg]
    have hbits (n : Nat) : natBits n 0 16 = n % 2 ^ 16 := by simp [natBits]
    simp only [hon, hbits, hclear, Bool.not_true, Bool.false_eq_true, false_or, not_or, Nat.not_lt]
    exact ⟨Nat.one_le_iff_ne_zero.1 hidle, hlong⟩
  case ends =>
    cases hret : s.sliceRet.getD (s.subject.a * 12 + s.subject.b) .active with
    | entering since =>
      simp only [hret, decide_eq_true_eq] at hdue
      simp only [execSliceRetentionEntry, onEvent, hret, Nat.not_lt.2 hdue, if_false]
    | _ => simp [hret] at hdue
  case stands =>
    cases hret : s.sliceRet.getD (s.subject.a * 12 + s.subject.b) .active with
    | active =>
      simp only [hret] at hdue
      simp only [execSliceRetentionEntry, onEvent, hret, hdue, true_or, if_true]
    | entering since =>
      simp only [hret, decide_eq_true_eq] at hdue
      simp only [execSliceRetentionEntry, onEvent, hret, hdue, if_true]
    | _ => simp only [execSliceRetentionEntry, onEvent, hret]

theorem sliceRetentionExitDone_takes : AllTake .sliceRetentionExitDone sliceRetentionExitDoneClaims := by
  simp only [AllTake, sliceRetentionExitDoneClaims, List.forall_mem_cons, List.not_mem_nil, false_imp_iff, implies_true, and_true]
  refine ⟨fun s hdue => ?ends, fun s hdue => ?stands⟩
  all_goals
    change execSliceRetentionExitDone s = _
    dsimp only [idleWhen] at hdue ⊢
  case ends =>
    cases hret : s.sliceRet.getD (s.subject.a * 12 + s.subject.b) .active with
    | leaving due =>
      simp only [hret, decide_eq_true_eq] at hdue
      simp only [execSliceRetentionExitDone, onEvent, hret, Nat.not_lt.2 hdue, if_false]
    | _ => simp [hret] at hdue
  case stands =>
    cases hret : s.sliceRet.getD (s.subject.a * 12 + s.subject.b) .active with
    | leaving due =>
      simp only [hret, decide_eq_true_eq] at hdue
      simp only [execSliceRetentionExitDone, onEvent, hret, hdue, if_true]
    | _ => simp only [execSliceRetentionExitDone, onEvent, hret]

/-- A reservation is lost from the clock on at which its time is over (R303). -/
theorem cmlrReservationTimeout_takes : AllTake .cmlrReservationTimeout cmlrReservationTimeoutClaims := by
  refine List.forall_mem_singleton.2 (Event.holds_of (fun e s => s.onGroup e.a e.b (fun (g : Group) =>
    { g with resv := g.resv.map (fun (r : Resv) => if r.due ≤ s.clock then { r with lost := true } else r) })) (fun _ => rfl) fun e s _ => ?_)
  have hlost (r : Resv) : (if r.due ≤ s.clock then { r with lost := true } else r) = { r with lost := r.lost || decide (r.due ≤ s.clock) } := by
    by_cases hdue : r.due ≤ s.clock <;> simp [hdue]
  simp only [hlost]

/-- Settles O26: each step does what its claims say, a walk with the lanes whose translation ends with it, the others as their own
functions do. -/
theorem slicesAndWalksGoOn : Obligations.SlicesAndWalksGoOn :=
  ⟨translationWalk_takes, pageMonitorWake_takes, walkRetryTimer_takes, sectorFillReturn_takes, lineHandover_takes, shareClearingDone_takes,
    sliceRetentionEntry_takes, sliceRetentionExitDone_takes, cmlrReservationTimeout_takes⟩

end Sys2Proof.Machine
end

section
/-! The issue of the memory words (R218 to R251). While a word issues, the state differs from the one before it in the word's operation and
in the issuing team only (`Underway`); the first half of this part says so of each step of the issue, the second reads the words' ends from it. -/

namespace Sys2Proof.Machine

/-! ## The issuing group -/

/-- The register files, the FIFO and the place of a gang in its run. -/
structure Group.At (h : Group) (gang : Nat) (rf : RegFile) (fifo : List Block) (w : Wait) (off : Nat) : Prop where
  files : h.rf = rf
  blocks : h.fifo = fifo
  place : ∃ q r, h.gang? gang = some q ∧ q.wait = w ∧ q.run = some r ∧ r.off = off

section
variable {h : Group} {gang : Nat} {rf : RegFile} {fifo : List Block} {w : Wait} {off : Nat}

theorem Group.gang?_onGang (h : Group) (gang : Nat) {f : Gang → Gang} (hf : ∀ q, (f q).id = q.id) :
    (h.onGang gang f).gang? gang = (h.gang? gang).map f := by
  simp only [Group.gang?, Group.onGang, Group.mapGangs]
  induction h.gangs with
  | nil => rfl
  | cons q l ih => by_cases hq : q.id = gang <;> simp [hq, hf, ih]

/-- A change to the gang that keeps its number changes its place. -/
theorem Group.At.onGang (ha : h.At gang rf fifo w off) {f : Gang → Gang} (hf : ∀ q, (f q).id = q.id) {w' : Wait} {off' : Nat}
    (hplace : ∀ q r, q.wait = w → q.run = some r → r.off = off → (f q).wait = w' ∧ ∃ r', (f q).run = some r' ∧ r'.off = off') :
    (h.onGang gang f).At gang rf fifo w' off' := by
  obtain ⟨hfiles, hblocks, q, r, hq, hw, hr, hoff⟩ := ha
  obtain ⟨hw', r', hr', hoff'⟩ := hplace q r hw hr hoff
  exact ⟨hfiles, hblocks, f q, r', by rw [Group.gang?_onGang h gang hf, hq]; rfl, hw', hr', hoff'⟩

theorem Group.At.onRun (ha : h.At gang rf fifo w off) {f : Run → Run} (hf : ∀ r, (f r).off = r.off) :
    (h.onGang gang (fun q => { q with run := q.run.map f })).At gang rf fifo w off :=
  ha.onGang (f := fun q => { q with run := q.run.map f }) (fun _ => rfl) fun q r hw hr hoff => ⟨hw, f r, by rw [hr]; rfl, (hf r).trans hoff⟩

theorem Group.At.setWait (ha : h.At gang rf fifo w off) (w' : Wait) :
    (h.onGang gang (fun q => { q with wait := w' })).At gang rf fifo w' off :=
  ha.onGang (f := fun q => { q with wait := w' }) (fun _ => rfl) fun _ r _ hr hoff => ⟨rfl, r, hr, hoff⟩

/-- The gang goes on behind its word, and waits no more. -/
theorem Group.At.wordDone (ha : h.At gang rf fifo w off) : (h.wordDone gang false).At gang rf fifo .none (off + 1) :=
  ha.onGang (f := fun q => { q with wait := .none, run := q.run.map (fun r => r.advance false) }) (fun _ => rfl)
    fun _ r _ hr hoff => ⟨rfl, r.advance false, by rw [hr]; rfl, congrArg (· + 1) hoff⟩

theorem Group.At.issued {c : Cur} (ha : h.At c.gang rf fifo w off) (now : Nat) : (h.issued c now).At c.gang rf fifo w off := by
  obtain ⟨hfiles, hblocks, hplace⟩ := ha.onGang (f := fun q => { q with last := now }) (fun _ => rfl) fun _ r hw hr hoff => ⟨hw, r, hr, hoff⟩
  exact ⟨hfiles, hblocks, hplace⟩

theorem Group.issued_id (g : Group) (c : Cur) (now : Nat) : (g.issued c now).id = g.id := rfl

end

/-! ## The state between issue and end -/

/-- A state that a word has made of b on its way: only the teams and the issue slots taken differ, of the issuing team the groups only,
and its group and gang stand as named. -/
structure Underway (b y : State) (c : Cur) (t : Team) (rf : RegFile) (fifo : List Block) (w : Wait) (off : Nat) : Prop where
  rest : y = { b with teams := y.teams, cores := y.cores }
  slots : ∀ n, y.core n = { b.core n with issued := (y.core n).issued }
  team : ∃ gs, y.teams.find c.team = some { t with groups := gs }
  group : ∃ h, y.curGroup? c = some h ∧ h.At c.gang rf fifo w off

theorem State.curGroup?_congr {y z : State} (h : z.teams = y.teams) (c : Cur) : z.curGroup? c = y.curGroup? c := by
  simp only [State.curGroup?, State.group?, h]

theorem State.curGroup?_onCur (y : State) (c : Cur) {f : Group → Group} (hf : ∀ h, (f h).id = h.id) :
    (y.onCur c f).curGroup? c = (y.curGroup? c).map f :=
  State.group_onGroup y c.team c.group f fun h hid => (hf h).trans hid

theorem id_of_curGroup? {s : State} {c : Cur} {g : Group} (h : s.curGroup? c = some g) : g.id = c.group := by
  obtain ⟨t, -, hg⟩ := Option.bind_eq_some_iff.1 h
  exact eq_of_beq (List.find?_some (p := fun x : Group => x.id == c.group) hg)

theorem State.onCur_rest (y : State) (c : Cur) (f : Group → Group) :
    y.onCur c f = { y with teams := (y.onCur c f).teams, cores := (y.onCur c f).cores } := by
  unfold State.onCur State.onGroup
  split <;> rfl

theorem saveAll_of_no_level {t : Team} (hl : t.levels = []) (g : Group) (ss : List Nat) (vs : List (Nat × Nat)) :
    t.saveAll g ss vs = some t := by
  have hs (l : List Nat) : l.foldl (fun (a : Option Team) r => a.bind (fun t => t.saveS g r)) (some t) = some t := by
    induction l with
    | nil => rfl
    | cons r l ih => simpa [Team.saveS, hl] using ih
  have hv (l : List (Nat × Nat)) : l.foldl (fun (a : Option Team) x => a.bind (fun t => t.saveV g x.1 x.2)) (some t) = some t := by
    induction l with
    | nil => rfl
    | cons r l ih => simpa [Team.saveV, hl] using ih
  simp only [Team.saveAll, hs, hv]

theorem saveTiles_of_no_level {t : Team} (hl : t.levels = []) (y : State) (zs : List Nat) : saveTiles y t zs = some t := by
  have hu (z h : Nat) : t.tileUnsaved z h = false := by simp [Team.tileUnsaved, hl]
  unfold saveTiles
  generalize zs.flatMap _ = l
  induction l with
  | nil => rfl
  | cons a l ih => simpa [hu] using ih

/-- An operation of the word being issued in a team without an open level. -/
def issuedOp (c : Cur) (id : Nat) (flag : Option Nat) (body : OpBody) : Op :=
  { id := id, team := c.team, group := c.group, gang := c.gang, iaddr := c.addr, lanes := c.lanes, flag := flag, level := 0, body := body }

namespace Underway
variable {s b y : State} {c : Cur} {t : Team} {rf : RegFile} {fifo : List Block} {w : Wait} {off : Nat}

/-- A word about to issue is on its way. -/
theorem ofIssuing {g : Group} {k : Gang} {run : Run} (h : Issuing s c g k run) (ht : s.teams.find c.team = some t) :
    Underway s s c t g.rf g.fifo k.wait run.off :=
  ⟨rfl, fun _ => rfl, ⟨t.groups, ht⟩, g, h.ofGroup, rfl, rfl, k, run, h.ofGang, rfl, h.inRun, rfl⟩

variable (h : Underway b y c t rf fifo w off)
include h

theorem opCtr_eq : y.opCtr = b.opCtr := by rw [h.rest]
theorem ops_eq : y.ops = b.ops := by rw [h.rest]
theorem clock_eq : y.clock = b.clock := by rw [h.rest]; rfl

theorem onCur {f : Group → Group} (hf : ∀ h, (f h).id = h.id) {fifo' : List Block} {w' : Wait} {off' : Nat}
    (hat : ∀ h : Group, h.At c.gang rf fifo w off → (f h).At c.gang rf fifo' w' off') :
    Underway b (y.onCur c f) c t rf fifo' w' off' := by
  obtain ⟨gs, ht⟩ := h.team
  obtain ⟨g, hg, ha⟩ := h.group
  refine ⟨?_, fun n => ?_, ⟨gs.map (fun x => if x.id = c.group then f x else x), ?_⟩, f g, ?_, hat g ha⟩
  · rw [State.onCur_rest, h.rest]
  · rw [State.core, State.onCur_cores]
    exact h.slots n
  · rw [State.onCur, State.find_onGroup, ht]
    rfl
  · rw [State.curGroup?_onCur y c hf, hg]
    rfl

theorem putTeam {u : Team} (hu : y.teams.find c.team = some u) : Underway b (y.putTeam c.team u) c t rf fifo w off := by
  obtain ⟨gs, ht⟩ := h.team
  obtain ⟨g, hg, ha⟩ := h.group
  have hfind : (y.putTeam c.team u).teams.find c.team = y.teams.find c.team := by simp [State.putTeam, hu]
  refine ⟨?_, h.slots, ⟨gs, hfind.trans ht⟩, g, ?_, ha⟩
  · rw [h.rest]
    rfl
  · rw [State.curGroup?, State.group?, hfind]
    exact hg

theorem onRun {f : Run → Run} (hf : ∀ r, (f r).off = r.off) : Underway b (y.onRun c f) c t rf fifo w off :=
  h.onCur (f := fun g => g.onGang c.gang (fun q => { q with run := q.run.map f })) (fun _ => rfl) fun _ ha => ha.onRun hf

theorem setWait (w' : Wait) : Underway b (y.setWait c w') c t rf fifo w' off :=
  h.onCur (f := fun g => g.onGang c.gang (fun q => { q with wait := w' })) (fun _ => rfl) fun _ ha => ha.setWait w'

theorem noLevel (hl : t.levels = []) : ∀ u, y.teams.find c.team = some u → u.levels = [] := by
  intro u hu
  obtain ⟨gs, ht⟩ := h.team
  obtain rfl := Option.some.inj (hu.symm.trans ht)
  exact hl

/-- Without an open level what the word wrote is marked in its run only. -/
theorem keepWrites (u : Uses) (g : Group) (hl : t.levels = []) : ∃ z, keepWrites u c g y = some z ∧ Underway b z c t rf fifo w off := by
  unfold Machine.keepWrites
  dsimp only
  generalize hx : y.onRun c _ = x
  have hU : Underway b x c t rf fifo w off := hx ▸ h.onRun fun _ => rfl
  obtain ⟨gs, ht⟩ := hU.team
  rw [ht]
  dsimp only
  rw [saveAll_of_no_level (t := { t with groups := gs }) hl]
  exact ⟨_, rfl, hU.putTeam ht⟩

/-- Without an open level nothing is logged (R419). -/
theorem logOnce (fn n : Nat) (hl : t.levels = []) : ∃ z, y.logOnce c (some fn) n = some z ∧ Underway b z c t rf fifo w off := by
  obtain ⟨gs, ht⟩ := h.team
  refine ⟨_, ?_, h.putTeam ht⟩
  simp [State.logOnce, ht, Team.logOp, hl]

theorem logIf (p : Bool) (fn n : Nat) (hl : t.levels = []) :
    ∃ z, (if p = true then y.logOnce c (some fn) n else some y) = some z ∧ Underway b z c t rf fifo w off := by
  split
  · exact h.logOnce fn n hl
  · exact ⟨y, rfl, h⟩

/-- The word takes its issue slot (R23). -/
theorem takeSlot : Underway b (y.takeSlot c) c t rf fifo w off := by
  obtain ⟨g, hg, -⟩ := h.group
  have hU := h.onCur (f := fun g => g.issued c y.now) (fun _ => rfl) fun _ ha => ha.issued _
  unfold State.takeSlot
  rw [hg]
  refine ⟨?_, fun n => ?_, hU.team, hU.group⟩
  · conv_lhs => rw [hU.rest]
    rfl
  · by_cases hn : n = g.core
    · subst hn
      dsimp only
      rw [State.core_putCore, h.slots g.core]
    · dsimp only
      rw [State.core_putCore_ne _ _ hn]
      exact hU.slots n

theorem setBody (i : Nat) (bd : OpBody) : Underway (b.setBody i bd) (y.setBody i bd) c t rf fifo w off :=
  ⟨by conv_lhs => rw [State.setBody, State.onOp, h.rest]
      rfl, h.slots, h.team, h.group⟩

theorem setOpCtr (n : Nat) : Underway { b with opCtr := n } { y with opCtr := n } c t rf fifo w off :=
  ⟨by conv_lhs => rw [h.rest], h.slots, h.team, h.group⟩

theorem sameMemory : SameMemory b y := by
  refine ⟨?_, ?_, ?_, ?_, h.slots⟩ <;> rw [h.rest]

theorem waitOf_eq : y.waitOf c = w := by
  obtain ⟨g, hg, -, -, q, r, hq, hw, -⟩ := h.group
  simp [State.waitOf, hg, hq, hw]

/-- A word that is over has taken its slot, and its gang goes on behind it (R23, R85). -/
theorem wordOver (hs : s.waitOf c = .none) :
    ∃ z, Underway b z c t rf fifo .none (off + 1) ∧ wordOver c s false y = { z with cur := none } := by
  refine ⟨_, h.takeSlot.onCur (f := fun g => g.wordDone c.gang false) (fun _ => rfl) fun _ ha => ha.wordDone, ?_⟩
  rw [Machine.wordOver, State.slotOnce, if_pos hs]

/-- A word at which its gang waits has taken its slot (R94). -/
theorem wordStays (hs : s.waitOf c = .none) (hw : w ≠ .none) :
    ∃ z, Underway b z c t rf fifo w off ∧ wordStays c s y = { z with cur := none } := by
  refine ⟨_, h.takeSlot, ?_⟩
  rw [Machine.wordStays, stayed, if_pos ⟨hs, h.waitOf_eq ▸ hw⟩]

omit h in
/-- An operation that the word hands over is the state's newest. -/
theorem newOp (h : Underway s y c t rf fifo w off) (flag : Option Nat) (body : OpBody) (hl : t.levels = []) :
    Underway { s with opCtr := s.opCtr + 1, ops := s.ops.put s.opCtr (issuedOp c s.opCtr flag body) } (y.newOp c flag body).2 c t rf fifo w off ∧
    (y.newOp c flag body).1 = s.opCtr := by
  obtain ⟨gs, ht⟩ := h.team
  have hU : Underway { s with opCtr := s.opCtr + 1, ops := s.ops.put s.opCtr (issuedOp c s.opCtr flag body) }
      { y with opCtr := y.opCtr + 1, ops := y.ops.put y.opCtr (issuedOp c y.opCtr flag body) } c t rf fifo w off := by
    refine ⟨?_, h.slots, ⟨gs, ht⟩, h.group⟩
    rw [h.rest]
  refine ⟨?_, h.opCtr_eq⟩
  unfold State.newOp
  simp only [ht, hl, List.length_nil]
  cases flag with
  | none => exact hU
  | some f => exact hU.onCur (f := fun g => g.flagInc f) (fun _ => rfl) fun g ha => ⟨ha.files, ha.blocks, ha.place⟩

end Underway

/-! ## The first issue of a memory word -/

namespace Access
variable {x : Access} {s : State} {c : Cur} {g : Group} {k : Gang} {run : Run} {t : Team}

theorem dataInjection_of_unarmed (h : g.errinj.getLsbD 31 = false) (cp : CopyRole) (ls : List Nat) :
    g.dataInjection cp ls = (none, g.errinj) := by
  have hbit : natBit g.errinj.toNat 31 = false := by
    rw [BitVec.getLsbD, Nat.testBit_eq_decide_div_mod_eq] at h
    simpa [natBit] using h
  simp [Group.dataInjection, hbit]

theorem replayLog_of_no_level (h : t.levels = []) (n : Nat) (a : DWord) (fn : Nat) : t.replayLog n a fn = (none, t) := by
  simp [Team.replayLog, h]

/-- Where no lane faults before translation, the lanes of the issue are those of the operation. -/
theorem Starts.accs_eq (h : x.Starts s c g k run t) :
    x.accs t g run (x.mods g run) (x.lanesOf c) (x.data g run (x.mods g run) g.rf) true = (x.opOf t c g run).accs := by
  refine List.map_congr_left fun l hl => ?_
  simp only [laneAt, h.lanes l hl, Bool.and_true, if_true]

theorem st_of_mem_opOf {a : LaneAcc} (h : a ∈ (x.opOf t c g run).accs) :
    a.st = if (x.mods g run).space.translated then .walk else .ready := by
  obtain ⟨l, -, rfl⟩ := List.mem_map.1 h
  rfl

theorem opOf_not_ended : (x.opOf t c g run).accs.any (fun a => a.st.ended) = false := by
  refine List.any_eq_false.2 fun a ha => ?_
  rw [st_of_mem_opOf ha]
  split <;> exact Bool.false_ne_true

theorem opOf_not_bound : (x.opOf t c g run).accs.filter (fun a => a.st == .bound) = [] := by
  refine List.filter_eq_nil_iff.2 fun a ha => ?_
  rw [st_of_mem_opOf ha]
  split <;> exact Bool.false_ne_true

theorem opOf_mk : MemOp.mk x.kind (x.mods g run).space (x.mods g run) ((x.size (x.mods g run)).getD 1) x.tag (x.regs (x.mods g run))
    (x.opOf t c g run).accs false none false = x.opOf t c g run := rfl

/-- The flag that a memory word's operation attaches to: none observes a prefetch (R86, R247). -/
def flagOf (x : Access) (run : Run) : Option Nat :=
  if x.kind = .pref ∨ (if x.kind.returns then run.fa else run.fb) = 15 then none else some (if x.kind.returns then run.fa else run.fb)

/-- The operation that a memory word hands over. -/
def issued (x : Access) (t : Team) (c : Cur) (g : Group) (run : Run) (s : State) : Op :=
  issuedOp c s.opCtr (x.flagOf run) (.mem (x.opOf t c g run))

/-- The state with the operation of a memory word outstanding. -/
def handed (x : Access) (t : Team) (c : Cur) (g : Group) (run : Run) (s : State) : State :=
  { s with opCtr := s.opCtr + 1, ops := s.ops.put s.opCtr (x.issued t c g run s) }

/-- The state in which a memory word hands over its operation: nothing is replayed, and no injection is used up (R419, R446). -/
def begun (t : Team) (c : Cur) (g : Group) (s : State) : State := (s.putTeam c.team t).onCur c (fun h => { h with errinj := g.errinj })

theorem Starts.begun_underway (h : x.Starts s c g k run t) : Underway s (begun t c g s) c t g.rf g.fifo .none run.off := by
  have hU := (Underway.ofIssuing h.may.toIssuing h.team).putTeam h.team
  rw [h.may.fresh] at hU
  exact hU.onCur (f := fun y => { y with errinj := g.errinj }) (fun _ => rfl) fun _ ha => ⟨ha.files, ha.blocks, ha.place⟩

/-- A memory word that issues hands its operation over. A prefetch and a probe are over then; any other word waits while a lane is to be
translated, and goes on otherwise (R226, R239, R247, R250). -/
theorem Starts.start_eq (h : x.Starts s c g k run t) : ∃ z, Underway (x.handed t c g run s) z c t g.rf g.fifo .none run.off ∧
    x.start c t g run s = if x.kind = .pref ∨ x.kind = .probe then .ok z
      else if (x.opOf t c g run).accs.any (fun a => a.st == .walk) then .stay (z.setWait c (.translate s.opCtr))
      else match z.teams.find c.team with
        | some u => x.go c u g z (x.issued t c g run s) (x.opOf t c g run)
        | none => .ok z := by
  have htrailing : (t.copy == CopyRole.trailing) = false := by rw [h.solo]; rfl
  have hleading : (t.copy == CopyRole.leading) = false := by rw [h.solo]; rfl
  have hsaved (z : Nat) : t.halves.any (t.tileUnsaved z) = false := by simp [Team.tileUnsaved, h.noLevel]
  have hroom : (!requestRoom s g.core (x.opOf t c g run)) = false := by rw [h.entries]; rfl
  unfold Access.start
  simp only [dataInjection_of_unarmed h.noInject, replayLog_of_no_level h.noLevel, ite_self, htrailing, hleading, Bool.false_and,
    Bool.not_false, Bool.false_eq_true, if_false, h.noLevel, Option.isSome_none, List.find?_nil, List.isEmpty_nil, Bool.not_true,
    Bool.and_false, List.map_id', ← Access.lanesOf.eq_1, h.commutes, h.accs_eq, opOf_not_bound, opOf_not_ended, opOf_mk, hroom, hsaved]
  generalize hs0 : State.onCur (s.putTeam c.team t) c _ = s0
  have hU0 : Underway s s0 c t g.rf g.fifo .none run.off := hs0 ▸ h.begun_underway
  split
  case h_1 f hf => cases hf.symm.trans h.agrees
  by_cases hk : x.kind = .pref
  · have hU := (hU0.newOp (x.flagOf run) (.mem (x.opOf t c g run)) h.noLevel).1
    refine ⟨_, hU, ?_⟩
    simp only [hk, if_true, true_or, flagOf]
  · have hlong (b : OpBody) : s0.longOp c run x.kind.returns b = s0.newOp c (x.flagOf run) b := by
      simp only [State.longOp, flagOf, hk, false_or]
    simp only [hk, if_false, false_or, hlong]
    rw [if_neg (by simp)]
    obtain ⟨hU1, hid⟩ := hU0.newOp (x.flagOf run) (.mem (x.opOf t c g run)) h.noLevel
    change Underway (x.handed t c g run s) _ c t g.rf g.fifo .none run.off at hU1
    generalize s0.newOp c (x.flagOf run) (.mem (x.opOf t c g run)) = r at hU1 hid ⊢
    obtain ⟨id, z1⟩ := r
    obtain rfl : id = s.opCtr := hid
    dsimp only
    generalize hz2 : (if x.kind.returns = true then z1.onCur c _ else z1) = z2
    have hU2 : Underway (x.handed t c g run s) z2 c t g.rf g.fifo .none run.off := by
      rw [← hz2]
      split
      · exact hU1.onCur (f := fun y => y) (fun _ => rfl) fun _ ha => ha
      · exact hU1
    obtain ⟨z3, hz3, hU3⟩ := hU2.logIf (x.kind.isAtomic && (none : Option LogEntry).isNone && (x.opOf t c g run).accs.any fun a => !a.st.ended)
      (if x.kind.returns = true then logAtom else logAtomn) (if x.kind.returns = true then (x.lanesOf c).length else 0) h.noLevel
    obtain ⟨gs, ht⟩ := hU3.team
    simp only [hz3, Option.bind_some, ht, saveTiles_of_no_level (t := { t with groups := gs }) h.noLevel, Option.map_some]
    have hU4 := (hU3.putTeam ht).onRun (f := fun r => { r with op := some s.opCtr }) fun _ => rfl
    obtain ⟨z, hz, hU⟩ := hU4.keepWrites (x.uses c g run) g h.noLevel
    refine ⟨z, hU, ?_⟩
    obtain ⟨gs, ht⟩ := hU.team
    have hop : z.ops.find s.opCtr = some (x.issued t c g run s) := by
      rw [hU.ops_eq]
      exact Map.find_put_self ..
    simp only [hz, hop, ht, and_true]
    rfl

/-! ## Lanes that are all translated -/

/-- The operation of a store or atomic whose blocks are on their way (R234, R300). -/
def sentBody (m : MemOp) : OpBody :=
  .mem { m with accs := m.accs.map (fun (a : LaneAcc) => { a with st := if m.kind.isAtomic then .miss else .bound }) }

/-- Blocks of an operation whose lanes are all ready, and the operation, go to the engines (R226, R234). -/
def sentOn (s : State) (t : Team) (g : Group) (o : Op) (m : MemOp) : State :=
  if m.kind.isStore then
    (({ s with opCtr := s.opCtr + (opBlocks o m t.ctx s.clock s.opCtr m.accs).length }).onGroup t.id g.id
      (fun h => { h with fifo := h.fifo ++ opBlocks o m t.ctx s.clock s.opCtr m.accs })).setBody o.id (sentBody m)
  else s.setBody o.id (.mem m)

/-- The blocks of a store or atomic follow the older ones in the group's FIFO (R234). -/
theorem sentOn_underway {b z : State} {u : Team} {rf : RegFile} {fifo : List Block} {w : Wait} {off : Nat} {o : Op} {m : MemOp}
    (hU : Underway b z c t rf fifo w off) (hstore : m.kind.isStore = true) (hu : u.id = c.team) (hg : g.id = c.group) :
    Underway (({ b with opCtr := z.opCtr + (opBlocks o m u.ctx z.clock z.opCtr m.accs).length }).setBody o.id (sentBody m)) (sentOn z u g o m)
      c t rf (fifo ++ opBlocks o m u.ctx z.clock z.opCtr m.accs) w off := by
  rw [sentOn, if_pos hstore, hu, hg]
  exact ((hU.setOpCtr _).onCur (f := fun h => { h with fifo := h.fifo ++ opBlocks o m u.ctx z.clock z.opCtr m.accs }) (fun _ => rfl)
    fun _ ha => ⟨ha.files, congrArg (· ++ _) ha.blocks, ha.place⟩).setBody _ _

section
variable {m : MemOp} (hready : ∀ a ∈ m.accs, a.st = .ready)
include hready

theorem memFaultInfo_of_ready (u : Option Mask) : memFaultInfo u m.accs = none := by
  unfold memFaultInfo
  dsimp only
  generalize hfs : List.filterMap _ m.accs = fs
  obtain rfl : fs = [] := by
    rw [← hfs, List.filterMap_eq_nil_iff]
    intro a ha
    rw [hready a ha]
  rfl

theorem soft_of_ready : m.accs.any (fun a => a.st.soft) = false :=
  List.any_eq_false.2 fun a ha => by simp [hready a ha, LaneState.soft]

theorem setLanes_of_ready (st : LaneState) :
    m.setLanes (fun a => a.st == .ready) st = { m with accs := m.accs.map (fun a => { a with st := st }) } := by
  unfold MemOp.setLanes
  congr 1
  refine List.map_congr_left fun a ha => ?_
  simp [hready a ha]

theorem sendLanes_of_ready {o : Op} (hcopy : t.copy = .only)
    (hroom : m.kind.isStore = true → fifoFits g (opBlocks o m t.ctx s.clock s.opCtr m.accs) = true) :
    sendLanes s t g o m = some (sentOn s t g o m) := by
  have hsolo : t.paired = false := by simp [Team.paired, hcopy]
  have hall : m.accs.filter (fun a => a.st == .ready) = m.accs := List.filter_eq_self.2 fun a ha => by simp [hready a ha]
  unfold sendLanes sentOn sentBody
  cases hstore : m.kind.isStore
  · simp
  · simp only [hall, hsolo, hroom hstore, setLanes_of_ready hready, Bool.not_true, Bool.false_eq_true, if_false, if_true]
    cases hk : m.kind <;> simp [hk, MemKind.isAtomic, MemKind.isStore] at hstore ⊢

/-- Where every lane is ready, the word goes on once its blocks have room. -/
theorem go_of_ready {o : Op} (hcopy : t.copy = .only)
    (hroom : m.kind.isStore = true → fifoFits g (opBlocks o m t.ctx s.clock s.opCtr m.accs) = true) :
    x.go c t g s o m = .ok (sentOn s t g o m) := by
  have hsolo : t.paired = false := by simp [Team.paired, hcopy]
  have hlead (y : State) (n : MemOp) (p q : Bool) : leadChannel y t c o n p q = y := by
    simp [leadChannel, hcopy]
  unfold go
  simp only [memFaultInfo_of_ready hready, soft_of_ready hready, hsolo, Bool.false_and, Bool.false_eq_true, if_false, Option.isSome_none,
    Bool.or_self, ite_self, sendLanes_of_ready hready hcopy hroom, hlead]
end

theorem of_memOf_eq_some {o : Op} {m : MemOp} (h : memOf run s = some (o, m)) :
    run.op = some o.id ∧ s.ops.find o.id = some o ∧ o.body = .mem m := by
  unfold memOf at h
  split at h
  case h_1 => cases h
  case h_2 id hid =>
    split at h
    case h_2 => cases h
    case h_1 o' ho =>
      split at h
      case h_2 => cases h
      case h_1 n hn =>
        obtain ⟨rfl, hsome⟩ := Option.ite_none_right_eq_some.1 h
        cases hsome
        exact ⟨hid, ho, hn⟩

/-- A word whose lanes are all translated goes on (R226, R234, R243). -/
theorem resumes_holds {i : Instr} (he : ∀ s, exec i s = issueD x.uses x.own s) : x.resumes.Holds i := by
  refine Claim.holds_of x.own he fun s c g k run ha => ?_
  obtain ⟨t, ht, hp⟩ := (Option.any_eq_true _ _).1 ha.meant
  simp only [Bool.and_eq_true, beq_iff_eq] at hp
  obtain ⟨⟨hcopy, hid⟩, hp⟩ := hp
  obtain ⟨⟨o, m⟩, hom, hp⟩ := (Option.any_eq_true _ _).1 hp
  simp only [ha.ofGroup, Option.any_some, Bool.and_eq_true, beq_iff_eq, List.all_eq_true, Bool.or_eq_true, Bool.not_eq_true'] at hp
  obtain ⟨⟨⟨hready, -⟩, hkind⟩, -, hroom⟩ := hp
  obtain ⟨hop, hfind, hbody⟩ := of_memOf_eq_some hom
  have hwalk : m.accs.any (fun a => a.st == .walk) = false := List.any_eq_false.2 fun a ha => by simp [hready a ha]
  have hgo : x.own c g run s = .ok (sentOn s t g o m) := by
    simp only [own, ht, hop, hfind, hbody, hwalk, Bool.false_eq_true, if_false]
    exact go_of_ready hready hcopy fun hs => hroom.resolve_left (by rw [← hkind, hs]; exact Bool.noConfusion)
  rw [hgo]
  change _ = Eff.ok _
  simp only [resumes, byTeam_of_find ht, hom, sentOn, sentBody, hkind]

/-! ## The end of the first issue -/

section
variable {i : Instr} (h : x.Starts s c g k run t) (he : ∀ s, exec i s = issueD x.uses x.own s) {b z : State} {fifo : List Block}
include h he

theorem Starts.exec_eq : exec i s = .next (settle s c true (keep (x.uses c g run) c g s (x.start c t g run s))) := by
  rw [he, issueD_own h.may]
  simp only [own, h.team, h.may.noOp]

omit he in
theorem Starts.waitOf_eq : s.waitOf c = .none :=
  (Underway.ofIssuing h.may.toIssuing h.team).waitOf_eq.trans h.may.fresh

/-- A memory word that is over at its first issue. -/
theorem Starts.over (hs : x.start c t g run s = .ok z) (hU : Underway b z c t g.rf fifo .none run.off) :
    ∃ y, Underway b y c t g.rf fifo .none (run.off + 1) ∧ exec i s = .next { y with cur := none } := by
  obtain ⟨z', hz', hU'⟩ := hU.keepWrites (x.uses c g run) g h.noLevel
  obtain ⟨y, hy, hend⟩ := hU'.wordOver h.waitOf_eq
  exact ⟨y, hy, by rw [h.exec_eq he, hs, keep_ok hz', settle_ok, hend]⟩

/-- A memory word that waits after its first issue. -/
theorem Starts.stays {w : Wait} (hw : w ≠ .none) (hs : x.start c t g run s = .stay z) (hU : Underway b z c t g.rf fifo w run.off) :
    ∃ y, Underway b y c t g.rf fifo w run.off ∧ exec i s = .next { y with cur := none } := by
  obtain ⟨y, hy, hend⟩ := hU.wordStays h.waitOf_eq hw
  refine ⟨y, hy, ?_⟩
  rw [h.exec_eq he, hs]
  exact congrArg Host.Outcome.next hend

end

theorem handed_find (x : Access) (t : Team) (c : Cur) (g : Group) (run : Run) (s : State) :
    (x.handed t c g run s).ops.find s.opCtr = some (x.issued t c g run s) :=
  Map.find_put_self ..

theorem handed_find_setBody (x : Access) (t : Team) (c : Cur) (g : Group) (run : Run) (s : State) (bd : OpBody) :
    ((x.handed t c g run s).setBody s.opCtr bd).ops.find s.opCtr = some { x.issued t c g run s with body := bd } := by
  refine (Map.find_adjust_self ..).trans ?_
  rw [handed_find]
  rfl

/-- An access of translated space waits for its lanes' translation (R239, R243). -/
theorem translates {i : Instr} (he : ∀ s, exec i s = issueD x.uses x.own s) : x.Translates i := by
  intro s c g k run t h htr hpref hprobe _ hne
  have hwalk : (x.opOf t c g run).accs.any (fun a => a.st == .walk) = true := by
    obtain ⟨l, hl⟩ := List.exists_mem_of_ne_nil _ hne
    exact List.any_eq_true.2 ⟨_, List.mem_map_of_mem hl, by simp [laneAt, htr]⟩
  obtain ⟨z, hU, hs⟩ := h.start_eq
  rw [if_neg (by simp [hpref, hprobe]), if_pos hwalk] at hs
  obtain ⟨y, hy, hend⟩ := h.stays he (w := .translate s.opCtr) Wait.noConfusion hs (hU.setWait _)
  obtain ⟨q, hq, ha, -, k', r, hk, hw, -⟩ := hy.group
  refine ⟨_, x.issued t c g run s, q, k', hend, rfl, hy.opCtr_eq, ?find, rfl, ?flag, hq, ha, hk, hw, hy.sameMemory⟩
  case find => exact (congrArg (Map.find · s.opCtr) hy.ops_eq).trans (x.handed_find t c g run s)
  case flag => simp only [issued, issuedOp, flagOf, hpref, false_or]

/-- An access of scratch, sync or tile space is over at once (R234). -/
theorem goesOn {i : Instr} (he : ∀ s, exec i s = issueD x.uses x.own s) (hpref : x.kind ≠ .pref) (hprobe : x.kind ≠ .probe) :
    x.GoesOn i := by
  intro s c g k run t h htr hfits
  have hready : ∀ a ∈ (x.opOf t c g run).accs, a.st = .ready := fun a ha => by rw [st_of_mem_opOf ha, htr]; rfl
  have hwalk : (x.opOf t c g run).accs.any (fun a => a.st == .walk) = false := List.any_eq_false.2 fun a ha => by simp [hready a ha]
  obtain ⟨z, hU, hs⟩ := h.start_eq
  obtain ⟨gs, ht⟩ := hU.team
  have hsend : x.start c t g run s = .ok (sentOn z { t with groups := gs } g (x.issued t c g run s)
      (x.opOf t c g run)) := by
    rw [hs, if_neg (by simp [hpref, hprobe]), if_neg (by simp [hwalk]), ht]
    refine go_of_ready hready h.solo fun hstore => ?_
    rw [hU.clock_eq, hU.opCtr_eq]
    exact hfits hstore
  cases hstore : x.kind.isStore
  case false =>
    rw [sentOn, if_neg (by simp [opOf, hstore])] at hsend
    obtain ⟨y, hy, hend⟩ := h.over he hsend (hU.setBody _ _)
    obtain ⟨q, hq, ha, hb, k', r, hk, hw, hr, hoff⟩ := hy.group
    refine ⟨_, x.issued t c g run s, q, k', r, x.opOf t c g run, hend, rfl, ?loaded, rfl, rfl, fun _ => rfl, hq, ha, hk, hw, hr, hoff,
      fun _ => hb, nofun, hy.sameMemory⟩
    case loaded => exact (congrArg (Map.find · s.opCtr) hy.ops_eq).trans (x.handed_find_setBody t c g run s _)
  case true =>
    obtain ⟨y, hy, hend⟩ := h.over he hsend (sentOn_underway hU hstore h.named (id_of_curGroup? h.may.ofGroup))
    obtain ⟨q, hq, ha, hb, k', r, hk, hw, hr, hoff⟩ := hy.group
    refine ⟨_, { x.issued t c g run s with body := sentBody (x.opOf t c g run) }, q, k', r, _, hend, rfl, ?stored, rfl, ?lanes, nofun, hq, ha,
      hk, hw, hr, hoff, nofun, fun _ => ⟨_, hb, ?cells⟩, hy.sameMemory⟩
    case stored => exact (congrArg (Map.find · s.opCtr) hy.ops_eq).trans (x.handed_find_setBody t c g run s _)
    case lanes => simp
    case cells =>
      rw [hU.clock_eq, hU.opCtr_eq]
      rfl

/-- What the statement says of a load or store that may be of either kind of space. -/
theorem issues {i : Instr} (he : ∀ s, exec i s = issueD x.uses x.own s) (hpref : x.kind ≠ .pref) (hprobe : x.kind ≠ .probe) :
    x.Translates i ∧ x.GoesOn i ∧ x.resumes.Holds i :=
  ⟨translates he, goesOn he hpref hprobe, resumes_holds he⟩

/-- A prefetch or a probe is over at its issue, with its operation outstanding (R247, R250). -/
theorem overAtOnce {i : Instr} (he : ∀ s, exec i s = issueD x.uses x.own s) (hk : x.kind = .pref ∨ x.kind = .probe) :
    ∀ s c g k run t, x.Starts s c g k run t → ∃ y o h q r, exec i s = .next y ∧ y.cur = none ∧
      y.ops.find s.opCtr = some o ∧ o.body = .mem (x.opOf t c g run) ∧ (x.kind = .pref → o.flag = none) ∧
      y.curGroup? c = some h ∧ h.rf = g.rf ∧ h.gang? c.gang = some q ∧ q.wait = .none ∧ q.run = some r ∧ r.off = run.off + 1 ∧
      SameMemory s y := by
  intro s c g k run t h
  obtain ⟨z, hU, hs⟩ := h.start_eq
  rw [if_pos hk] at hs
  obtain ⟨y, hy, hend⟩ := h.over he hs hU
  obtain ⟨q, hq, ha, -, k', r, hg, hw, hr, hoff⟩ := hy.group
  refine ⟨_, x.issued t c g run s, q, k', r, hend, rfl, ?find, rfl, ?flag, hq, ha, hg, hw, hr, hoff, hy.sameMemory⟩
  case find => exact (congrArg (Map.find · s.opCtr) hy.ops_eq).trans (x.handed_find t c g run s)
  case flag => exact fun hpref => if_pos (.inl hpref)

end Access

/-! ## FENCE, INVL1, INVPG (R248, R249, R251) -/

theorem fence_holds : AllHold .fence fenceClaims := by
  refine List.forall_mem_cons.2 ⟨claim_holds_done _ (fun _ => rfl) fun s c g run hg hm => ?relaxed,
    List.forall_mem_singleton.2 (claim_holds_done _ (fun _ => rfl) fun s c g run hg hm => ?ordered)⟩
  case relaxed => exact if_pos (eq_of_beq hm)
  case ordered => exact if_neg (bne_iff_ne.1 hm)

theorem invl1_holds : AllHold .invl1 invl1Claims :=
  List.forall_mem_singleton.2 (claim_holds_done _ (fun _ => rfl) fun _ _ _ _ _ _ => rfl)

/-- The fields of INVPG's kind word that have to be zero (R251). -/
theorem invpg_kind_good (w : Nat) (hw : w < 2 ^ 32) :
    (decide (w < 1024) && decide (w / 64 % 4 = 0)) = !decide (natBits w 10 22 ≠ 0 ∨ natBits w 6 2 ≠ 0) := by
  have hhigh : natBits w 10 22 = 0 ↔ w < 1024 := by
    unfold natBits
    omega
  simp only [ne_eq, ← not_and_or, decide_not, Bool.not_not, hhigh, Bool.decide_and]
  rfl

theorem invpg_holds (a b : BitVec 8) : AllHold (.invpg a b) (invpgClaims a b) := by
  simp only [invpgClaims, ← odd_eq]
  refine List.forall_mem_cons.2 ⟨claim_holds_done _ (fun _ => rfl) fun s c g run hg hm => ?sweeps,
    List.forall_mem_singleton.2 (claim_holds_fault _ (fun _ => rfl) fun s c g run hg hm => ?bad)⟩
  all_goals
    rw [invpg_kind_good _ (g.rf.S b.toNat).isLt] at hm
  case sweeps =>
    refine (if_neg (of_decide_eq_false (Bool.not_eq_eq_eq_not.1 hm))).trans ?_
    simp only [natBits, pow_zero, Nat.div_one]
    rfl
  case bad => exact if_pos (by simpa using hm)

/-! ## The obligations -/

/-- Settles O11: every load, store and atomic is a memory word, which waits where its space is translated, goes on at once where it is
not, and goes on once its lanes are translated. -/
theorem memoryWordsIssueAndGoOn : Obligations.MemoryWordsIssueAndGoOn := by
  unfold Obligations.MemoryWordsIssueAndGoOn
  refine ⟨fun t w d a p => Access.issues (fun _ => rfl) nofun nofun, fun t w d a p => Access.issues (fun _ => rfl) nofun nofun,
    fun t w d a p => Access.goesOn (fun _ => rfl) nofun nofun, fun t w d a p => Access.goesOn (fun _ => rfl) nofun nofun,
    fun d p => Access.issues (fun _ => rfl) nofun nofun, fun d p => Access.issues (fun _ => rfl) nofun nofun,
    fun d p => Access.goesOn (fun _ => rfl) nofun nofun, fun d p => Access.goesOn (fun _ => rfl) nofun nofun,
    fun o w d a p => ⟨Access.translates fun _ => rfl, Access.resumes_holds fun _ => rfl⟩,
    fun o w d a p => ⟨Access.translates fun _ => rfl, Access.resumes_holds fun _ => rfl⟩⟩

/-- Settles O12: a prefetch and a probe are over with their operation outstanding, and FENCE, INVL1 and INVPG do what their claims say. -/
theorem fencesProbesAndPrefetchesIssue : Obligations.FencesProbesAndPrefetchesIssue := by
  refine ⟨?atOnce, fence_holds, invl1_holds, invpg_holds⟩
  rintro x i (⟨t, a, p, rfl, rfl⟩ | ⟨d, a, p, rfl, rfl⟩)
  · exact Access.overAtOnce (fun _ => rfl) (.inl rfl)
  · exact Access.overAtOnce (fun _ => rfl) (.inr rfl)

end Sys2Proof.Machine
end

section
/-! SUPPORT. The frames of issue for a team of one copy (R425): such a team has no counterpart to wait for, to compare with or to hand
values to, so each frame comes down to the word's own effect. -/

namespace Sys2Proof.Machine

variable {s : State} {c : Cur} {t : Team}

theorem Team.paired_of_only (h : t.copy = .only) : t.paired = false := by
  simp [Team.paired, h]

/-- A word that a core-pair team may not issue, in a team of one copy (R435). -/
theorem soloWord_of_only (ht : s.teams.find c.team = some t) (h : t.copy = .only) (own : Eff) : soloWord c s own = own := by
  simp [soloWord, ht, Team.paired_of_only h]

theorem soloWord_of_paired (ht : s.teams.find c.team = some t) (h : t.copy ≠ .only) (own : Eff) :
    soloWord c s own = .fault { code := 0x03, datum := 0xA0, lanes := c.lanes } s := by
  simp [soloWord, ht, Team.paired, h]

/-- A value that an operation finds needs no place in the channel of a team of one copy (R433). -/
theorem withPlace_of_only {lead : State → Nat × Eff} {y : State} (ht : s.teams.find c.team = some t) (h : t.copy = .only)
    (hl : (lead s).2 = .ok y) (own : List Nat → State → Eff) : withPlace c lead own s = .ok y := by
  unfold withPlace
  generalize lead s = r at hl
  obtain ⟨id, e⟩ := r
  cases hl
  simp [ht, h, channelFull]

/-! ## What issue leaves of a team's place in a pair (R427) -/

theorem State.copy_onGroup (s : State) (n k i : Nat) (f : Group → Group) :
    ((s.onGroup n k f).teams.find i).map Team.copy = (s.teams.find i).map Team.copy := by
  by_cases hi : i = n
  · subst hi
    rw [State.find_onGroup, Option.map_map]
    rfl
  · rw [State.find_onGroup_ne s k f hi]

theorem State.copy_newOp (s : State) (c : Cur) (flag : Option Nat) (b : OpBody) (i : Nat) :
    ((s.newOp c flag b).2.teams.find i).map Team.copy = (s.teams.find i).map Team.copy := by
  cases flag with
  | none => rfl
  | some f => exact State.copy_onGroup ..

theorem State.copy_completeOp (s : State) (id i : Nat) :
    ((s.completeOp id).teams.find i).map Team.copy = (s.teams.find i).map Team.copy := by
  unfold State.completeOp
  cases s.ops.find id with
  | none => rfl
  | some o =>
    dsimp only
    cases o.flag with
    | none => rfl
    | some f => exact State.copy_onGroup ..

theorem Run.copy_unpark (run : Run) (s : State) (i : Nat) :
    ((run.unpark s).teams.find i).map Team.copy = (s.teams.find i).map Team.copy := by
  unfold Run.unpark
  cases run.op with
  | none => rfl
  | some id => exact State.copy_completeOp ..

/-! ## Words that a team performs once (R419, R433) -/

/-- A team of one copy enters no event (R436). -/
theorem State.event_of_only (h : (s.teams.find c.team).map Team.copy = some .only) (kind : Nat) (words : List Nat) (a : DWord) (id : Option Nat) :
    s.event c kind words a id = s := by
  obtain ⟨t, ht, hcopy⟩ := Option.map_eq_some_iff.1 h
  unfold State.event
  cases s.curGroup? c with
  | none => simp only [ht]
  | some g => simp [ht, Team.paired_of_only hcopy]

theorem settled_of_find (ht : s.teams.find c.team = some t) : settled c s = s.putTeam c.team t := by
  simp only [settled, ht]

theorem find_settled (ht : s.teams.find c.team = some t) : (settled c s).teams.find c.team = some t := by
  rw [settled_of_find ht]
  exact Map.find_put_self ..

/-- Without an open level nothing is logged, and the team's entry is put back as it is (R419). -/
theorem logOnce_of_no_level (ht : s.teams.find c.team = some t) (hl : t.levels = []) (fn : Nat) :
    s.logOnce c (some fn) = some (settled c s) := by
  simp [State.logOnce, ht, Team.logOp, hl, settled_of_find ht]

/-- A logged word of a team of one copy without an open level replays nothing, and its operation goes to its engine in the state that
its checks have left (R419, R433). -/
theorem onceWord_of_only {g : Group} {run : Run} {x : Once} {fn : Nat} {shared : Team → State → Shared} {b : OpBody} {y : State}
    (ht : s.teams.find c.team = some t) (hcopy : t.copy = .only) (hl : t.levels = []) (hlog : x.log = some fn)
    (hgo : shared t (settled c s) = .go b y) (hy : y.teams.find c.team = some t) :
    onceWord c g run x shared s = .ok ((run.unpark (settled c y)).longOp c run x.fa b).2 := by
  have hold : (if run.op.isSome then (none, t) else t.replayLog g.id c.addr fn) = (none, t) := by
    simp [Team.replayLog, hl]
  have hkept : (((run.unpark (settled c y)).longOp c run x.fa b).2.teams.find c.team).map Team.copy = some .only := by
    rw [State.longOp, State.copy_newOp, Run.copy_unpark, find_settled hy, Option.map_some, hcopy]
  rw [settled_of_find ht] at hgo
  simp only [onceWord, ht, hlog, hold, hcopy, slackRoom, hgo, logOnce_of_no_level hy hl, State.event_of_only hkept]
  rfl

end Sys2Proof.Machine
end

section
/-! SUPPORT. The words on the bank map (R258 to R264): the slots that they ask for, and the claims of each word. -/

namespace Sys2Proof.Machine

variable {s : State} {t : Team}

/-! ## Slots -/

/-- A slot that a BTAKE or a BOPEN may name (R258, R261). -/
theorem slot_free_eq (s : State) (t : Team) (i : Nat) :
    (t.slot i == .detached && !takingSlot s t.id i) = !decide (t.slot i ≠ .detached ∨ takingSlot s t.id i = true) := by
  cases htaking : takingSlot s t.id i <;> simp [beq_eq_decide]

theorem slot_of_attachedSlot {i : Nat} (h : attachedSlot t i = true) : t.slot i = .attached (bankAt t i) := by
  unfold attachedSlot at h
  unfold bankAt
  split at h
  case h_1 b hb => rw [hb]
  case h_2 => cases h

/-! ## BTAKE, BFREE (R258, R259) -/

theorem btake_holds (d : BitVec 8) (sg : BitVec 4) : AllHold (.btake d sg) (btakeClaims d sg) := by
  simp only [btakeClaims, slot_free_eq]
  refine List.forall_mem_cons.2 ⟨claim_holds_done _ (fun _ => rfl) fun s c g run hg hm => ?takes,
    List.forall_mem_cons.2 ⟨claim_holds_done _ (fun _ => rfl) fun s c g run hg hm => ?none,
    List.forall_mem_singleton.2 (claim_holds_fault _ (fun _ => rfl) fun s c g run hg hm => ?bad)⟩⟩
  all_goals
    obtain ⟨t, ht, hcopy, hp⟩ := exists_team_of_soloTeam hm
    simp only [ht, Team.paired_of_only hcopy, Bool.false_eq_true, if_false]
  case bad =>
    refine if_pos ⟨by simp [hcopy], ?_⟩
    simpa using hp
  all_goals
    obtain ⟨hfree, hbanks⟩ := Bool.and_eq_true_iff.1 hp
    rw [if_neg fun h => by simp [h.2] at hfree]
    refine withPlace_of_only ht hcopy ?_ _
  case takes => rw [if_neg (Nat.not_lt.2 (of_decide_eq_true hbanks))]; rfl
  case none => rw [if_pos (by simpa using hbanks)]; rfl

theorem bfree_holds (sg : BitVec 4) : AllHold (.bfree sg) (bfreeClaims sg) := by
  refine List.forall_mem_cons.2 ⟨claim_holds_done _ (fun _ => rfl) fun s c g run hg hm => ?attached,
    List.forall_mem_cons.2 ⟨claim_holds_done _ (fun _ => rfl) fun s c g run hg hm => ?matched,
    List.forall_mem_cons.2 ⟨claim_holds_done _ (fun _ => rfl) fun s c g run hg hm => ?cancelled,
    List.forall_mem_cons.2 ⟨claim_holds_fault _ (fun _ => rfl) fun s c g run hg hm => ?bad,
    List.forall_mem_singleton.2 (claim_holds_fault _ (fun _ => rfl) fun s c g run hg hm => ?detached)⟩⟩⟩⟩
  all_goals
    obtain ⟨t, ht, hp⟩ := exists_team_of_ofTeam hm
    simp only [ht, byTeam_of_find ht]
  case bad => exact if_pos (by simpa [Bool.and_eq_true, or_iff_not_imp_left] using hp)
  all_goals
    obtain ⟨hgood, hslot⟩ := Bool.and_eq_true_iff.1 hp
    rw [if_neg (by simpa using hgood)]
  case attached => rw [slot_of_attachedSlot hslot]
  case matched =>
    cases hs : t.slot sg.toNat with
    | opening id => rw [hs] at hslot; exact if_pos hslot
    | _ => rw [hs] at hslot; cases hslot
  case cancelled =>
    cases hs : t.slot sg.toNat with
    | opening id =>
      rw [hs] at hslot
      exact if_neg (by simpa using hslot)
    | _ => rw [hs] at hslot; cases hslot
  case detached =>
    cases hs : t.slot sg.toNat with
    | detached => rfl
    | leaving b => rfl
    | _ => rw [hs] at hslot; cases hslot

/-! ## BGIVE, BOPEN (R260, R261) -/

/-- What a BGIVE asks for before it looks for a BOPEN (R260, R278). -/
theorem may_give {co : BitVec 3} {i : Nat}
    (h : (!(t.command && co != 0) && !ringIn s t i && t.levels.isEmpty && attachedSlot t i) = true) :
    ¬ ((t.command = true ∧ co ≠ 0) ∨ ringIn s t i = true ∨ (!t.levels.isEmpty) = true) ∧ t.slot i = .attached (bankAt t i) := by
  obtain ⟨hmay, hslot⟩ := Bool.and_eq_true_iff.1 h
  refine ⟨?_, slot_of_attachedSlot hslot⟩
  simpa [imp_iff_not_or, and_assoc] using hmay

theorem bgive_holds (p : BitVec 8) (co : BitVec 3) (sg : BitVec 4) : AllHold (.bgive p co sg) (bgiveClaims p co sg) := by
  refine List.forall_mem_cons.2 ⟨claim_holds_done _ (fun _ => rfl) fun s c g run hg hm => ?matched,
    List.forall_mem_cons.2 ⟨claim_holds_done _ (fun _ => rfl) fun s c g run hg hm => ?held,
    List.forall_mem_cons.2 ⟨claim_holds_waits _ (fun _ => rfl) fun s c g run hg hm => ?full,
    List.forall_mem_cons.2 ⟨claim_holds_fault _ (fun _ => rfl) fun s c g run hg hm => ?prot,
    List.forall_mem_singleton.2 (claim_holds_fault _ (fun _ => rfl) fun s c g run hg hm => ?paired)⟩⟩⟩⟩
  case paired =>
    obtain ⟨t, ht, hp⟩ := exists_team_of_ofTeam hm
    exact soloWord_of_paired ht (bne_iff_ne.1 hp) _
  all_goals
    obtain ⟨t, ht, hcopy, hp⟩ := exists_team_of_soloTeam hm
    rw [soloWord_of_only ht hcopy]
    simp only [openFor] at hp
    simp only [ht, byTeam_of_find ht, openFor]
  case matched =>
    obtain ⟨hgood, hfor⟩ := Bool.and_eq_true_iff.1 hp
    obtain ⟨hmay, hslot⟩ := may_give hgood
    obtain ⟨x, hx⟩ := Option.isSome_iff_exists.1 hfor
    simp only [if_neg hmay, hslot, hx, Option.isNone_some, Bool.false_eq_true, false_and, Bool.false_and, if_false]
    rfl
  case held =>
    obtain ⟨hp, hroom⟩ := Bool.and_eq_true_iff.1 hp
    obtain ⟨hgood, hnone⟩ := Bool.and_eq_true_iff.1 hp
    obtain ⟨hmay, hslot⟩ := may_give hgood
    have hfull : ¬ 16 ≤ (s.cluster t.pool).gives.length := Nat.not_le.2 (of_decide_eq_true hroom)
    simp only [if_neg hmay, hslot, List.isEmpty_iff.1 hnone, List.find?_nil, decide_eq_false hfull]
    rfl
  case full =>
    obtain ⟨hp, hfull⟩ := Bool.and_eq_true_iff.1 hp
    obtain ⟨hgood, hnone⟩ := Bool.and_eq_true_iff.1 hp
    obtain ⟨hmay, hslot⟩ := may_give hgood
    rw [if_neg hmay, if_neg fun h => absurd h.2.2 (by rw [hnone, hfull]; exact Bool.false_ne_true), hslot]
    exact if_pos (Bool.and_eq_true_iff.2 ⟨hnone, hfull⟩)
  case prot =>
    obtain ⟨hp, hroom⟩ := Bool.and_eq_true_iff.1 hp
    obtain ⟨hp, hopen⟩ := Bool.and_eq_true_iff.1 hp
    obtain ⟨hgood, hnone⟩ := Bool.and_eq_true_iff.1 hp
    obtain ⟨hmay, hslot⟩ := may_give hgood
    have hfull : ¬ 16 ≤ (s.cluster t.pool).gives.length := Nat.not_le.2 (of_decide_eq_true hroom)
    exact (if_neg hmay).trans (if_pos ⟨hnone, hopen, by rw [decide_eq_false hfull, Bool.and_false]; rfl⟩)

/-- The sync word that a register of a BOPEN or a RINGDEF names (R261, R273). -/
def namedSync (w : Word) : Option Nat := if w = 0xFFFFFFFF then none else some w.toNat

theorem optSync_of_good {c : Cur} {w : Word} (h : (namedSync w).all (fun n => decide (n % 16 = 0) && decide (n < 2 ^ 19)) = true) :
    optSync c w = (namedSync w, none) := by
  by_cases hw : w = 0xFFFFFFFF
  · simp only [optSync, namedSync, hw, if_true]
  · rw [namedSync, if_neg hw, Option.all_some, Bool.and_eq_true, decide_eq_true_eq, decide_eq_true_eq] at h
    obtain ⟨halign, hlow⟩ := h
    simp only [optSync, namedSync, hw, if_false, syncFault, halign, ne_eq, not_true_eq_false, Nat.not_le.2 hlow]

theorem optSync_of_unaligned {c : Cur} {w : Word} (h : (namedSync w).any (fun n => decide (n % 16 ≠ 0)) = true) :
    optSync c w = (namedSync w, some { code := 0x08, lanes := c.lanes, faddr := BitVec.ofNat 64 w.toNat }) := by
  by_cases hw : w = 0xFFFFFFFF
  · simp [namedSync, hw] at h
  · rw [namedSync, if_neg hw, Option.any_some, decide_eq_true_eq] at h
    simp only [optSync, namedSync, hw, if_false, syncFault, h, ne_eq, not_false_eq_true, if_true]

theorem bopen_holds (d p : BitVec 8) (sg : BitVec 4) : AllHold (.bopen d p sg) (bopenClaims d p sg) := by
  simp only [bopenClaims, slot_free_eq]
  refine List.forall_mem_cons.2 ⟨claim_holds_done _ (fun _ => rfl) fun s c g run hg hm => ?opens,
    List.forall_mem_cons.2 ⟨claim_holds_fault _ (fun _ => rfl) fun s c g run hg hm => ?bad,
    List.forall_mem_singleton.2 (claim_holds_fault _ (fun _ => rfl) fun s c g run hg hm => ?align)⟩⟩
  all_goals
    obtain ⟨t, ht, hcopy, hp⟩ := exists_team_of_soloTeam hm
    rw [soloWord_of_only ht hcopy]
    simp only [ht, byTeam_of_find ht]
  case bad => exact if_pos (by simpa using hp)
  all_goals
    obtain ⟨hfree, hsync⟩ := Bool.and_eq_true_iff.1 hp
    rw [if_neg (by simpa using hfree)]
  case opens =>
    rw [optSync_of_good hsync]
    rfl
  case align =>
    rw [optSync_of_unaligned hsync]
    rfl

theorem bdrain_holds (l : BitVec 1) (sg : BitVec 4) : AllHold (.bdrain l sg) (bdrainClaims l sg) :=
  List.forall_mem_singleton.2 (claim_holds_done _ (fun _ => rfl) fun _ _ _ _ _ _ => rfl)

theorem bquery_holds (d : BitVec 8) (o : BitVec 1) (sg : BitVec 4) : AllHold (.bquery d o sg) (bqueryClaims d o sg) := by
  refine List.forall_mem_singleton.2 (claim_holds_done _ (fun _ => rfl) fun s c g run hg hm => ?_)
  obtain ⟨t, ht, hcopy, -⟩ := exists_team_of_soloTeam hm
  simp only [ht, withChannel_of_only _ _ _ ht hcopy, returns, byTeam_of_find ht]
  rfl

end Sys2Proof.Machine
end

section
/-! SUPPORT. Sync words (R269): what an offset names, when its word can be read, and the claims of SWINIT, SWADD, SWWAIT and SWREAD. -/

namespace Sys2Proof.Machine

variable {s : State} {c : Cur} {t : Team} {off : Nat}

/-! ## The offset of a sync word (R269) -/

theorem syncAt_of_unaligned (h : off % 16 ≠ 0) :
    syncAt c t off = .error { code := 0x08, lanes := c.lanes, faddr := BitVec.ofNat 64 off } := by
  simp only [syncAt, syncFault, if_pos h]

theorem syncAt_of_high (halign : off % 16 = 0) (h : 2 ^ 19 ≤ off) :
    syncAt c t off = .error { code := 0x11, lanes := c.lanes, faddr := BitVec.ofNat 64 off } := by
  simp only [syncAt, syncFault, halign, ne_eq, not_true_eq_false, if_false, if_pos h]

theorem syncFault_of_form (halign : off % 16 = 0) (hlow : off < 2 ^ 19) : syncFault c off = none := by
  simp only [syncFault, halign, ne_eq, not_true_eq_false, if_false, Nat.not_le.2 hlow]

theorem syncAt_of_attached (halign : off % 16 = 0) (hlow : off < 2 ^ 19) {b : Nat} (hslot : t.slot (off / 32768) = .attached b) :
    syncAt c t off = .ok b := by
  simp only [syncAt, syncFault_of_form halign hlow, hslot]

theorem syncAt_of_detached (halign : off % 16 = 0) (hlow : off < 2 ^ 19) (hslot : attachedSlot t (off / 32768) = false) :
    syncAt c t off = .error { code := 0x13, datum := off / 32768, lanes := c.lanes, faddr := BitVec.ofNat 64 off } := by
  simp only [syncAt, syncFault_of_form halign hlow]
  unfold attachedSlot at hslot
  cases hs : t.slot (off / 32768) with
  | attached b => rw [hs] at hslot; cases hslot
  | _ => rfl

/-! ## SWINIT, SWADD -/

/-- Room in a group's FIFO is a matter of what a block carries, whoever sends it and when (R234). -/
theorem fifoFits_syncBlock (t : Team) (c : Cur) (g : Group) (off : Nat) (kind : BlockKind) (bytes : List Byte) (now : Nat) :
    fifoFits g [syncBlock t c g off kind bytes 0 0 now] = fifoFits g [syncBlock t c g off kind bytes 0 0 0] := rfl

/-- The operation of a SWINIT or SWADD, which no lane observes (R269). -/
def syncOp : MemOp :=
  { kind := .store, space := .sync, mods := ⟨0, 0, .sync, 0, 0, 0⟩, bytes := 16, tag := 0, regs := 4, accs := [], posted := false, lead := none,
    loose := false }

/-- The state with the update of a sync word in the group's FIFO and its operation outstanding (R46, R269). -/
def syncSent (t : Team) (c : Cur) (g : Group) (run : Run) (off : Nat) (kind : BlockKind) (bytes : List Byte) (s : State) : State :=
  let r := s.longOp c run false (.mem syncOp)
  { r.2 with opCtr := r.2.opCtr + 1 }.onCur c (fun x =>
    { x with fifo := x.fifo ++ [syncBlock t c g off kind bytes r.1 r.2.opCtr s.clock] })

section
variable {g : Group} {run : Run} {kind : BlockKind} {bytes : List Byte}

theorem syncWord_of_error {f : FaultInfo} (ht : s.teams.find c.team = some t) (h : syncAt c t off = .error f) :
    syncWord c g run off kind bytes s = .fault f s := by
  simp only [syncWord, ht, h]

/-- An update of a sync word goes into its group's FIFO, or waits until it fits. -/
theorem syncWord_of_attached (ht : s.teams.find c.team = some t) (hcopy : t.copy = .only) (halign : off % 16 = 0) (hlow : off < 2 ^ 19)
    (hslot : attachedSlot t (off / 32768) = true) : syncWord c g run off kind bytes s =
      if fifoFits g [syncBlock t c g off kind bytes 0 0 0] then .ok (syncSent t c g run off kind bytes s) else .stay s := by
  simp only [syncWord, ht, syncAt_of_attached halign hlow (slot_of_attachedSlot hslot), Team.paired_of_only hcopy, Bool.false_eq_true, if_false,
    ← fifoFits_syncBlock t c g off kind bytes s.clock, Bool.not_eq_true', ← Bool.not_eq_true]
  exact ite_not ..

end

/-- A word that updates a sync word does what its claims say. -/
theorem syncUpdate_holds {i : Instr} {u : Uses} {off : Group → Nat} {kind : Group → BlockKind} {bytes : Group → List Byte}
    (he : ∀ s, exec i s = issue u (fun c g run s => syncWord c g run (off g) (kind g) (bytes g) s) s) :
    AllHold i (syncUpdate u off kind bytes) := by
  refine List.forall_mem_cons.2 ⟨claim_holds_done _ he fun s c g run hg hm => ?sends,
    List.forall_mem_cons.2 ⟨claim_holds_waits _ he fun s c g run hg hm => ?full,
    List.forall_mem_cons.2 ⟨claim_holds_fault _ he fun s c g run hg hm => ?align,
    List.forall_mem_cons.2 ⟨claim_holds_fault _ he fun s c g run hg hm => ?prot,
    List.forall_mem_singleton.2 (claim_holds_fault _ he fun s c g run hg hm => ?detached)⟩⟩⟩⟩
  case sends | full =>
    obtain ⟨t, ht, hcopy, hp⟩ := exists_team_of_soloTeam hm
    simp only [Bool.and_eq_true, Bool.not_eq_true', decide_eq_true_eq] at hp
    obtain ⟨⟨⟨halign, hlow⟩, hslot⟩, hfits⟩ := hp
    simp only [syncWord_of_attached ht hcopy halign hlow hslot, byTeam_of_find ht, hfits]
    rfl
  case align =>
    obtain ⟨t, ht⟩ := team_of_group hg
    exact syncWord_of_error ht (syncAt_of_unaligned (of_decide_eq_true hm))
  case prot =>
    obtain ⟨t, ht⟩ := team_of_group hg
    simp only [Bool.and_eq_true, decide_eq_true_eq] at hm
    exact syncWord_of_error ht (syncAt_of_high hm.1 hm.2)
  case detached =>
    obtain ⟨t, ht, hp⟩ := exists_team_of_ofTeam hm
    simp only [Bool.and_eq_true, Bool.not_eq_true', decide_eq_true_eq] at hp
    obtain ⟨⟨halign, hlow⟩, hslot⟩ := hp
    exact syncWord_of_error ht (syncAt_of_detached halign hlow hslot)

/-- A field names an odd register when it is not even as a number. -/
theorem odd_eq_ne (r : BitVec 8) : odd r = decide (r.toNat % 2 ≠ 0) := by
  simp [odd_eq]

theorem swinit_holds (x a : BitVec 8) : AllHold (.swinit x a) (swinitClaims x a) := by
  simp only [swinitClaims, ← odd_eq_ne]
  exact syncUpdate_holds fun _ => rfl

theorem swadd_holds (x a : BitVec 8) : AllHold (.swadd x a) (swaddClaims x a) :=
  syncUpdate_holds fun _ => rfl

/-! ## SWWAIT, SWREAD -/

theorem correctBank_teams (s : State) (pool b o n : Nat) : (s.correctBank pool b o n).teams = s.teams := by
  unfold State.correctBank
  dsimp only
  split <;> rfl

/-- Reading a sync word wakes its bank and corrects errors there, and nothing else (R267, R268). -/
theorem readSync_teams {b : Nat} {r : List Byte × State} (h : readSync s t b off = some r) : r.2.teams = s.teams := by
  have hwake := wakeBank_teams s t.pool b
  unfold readSync at h
  split at h
  · cases h
  · generalize s.wakeBank t.pool b = w at h hwake
    obtain ⟨awake, y⟩ := w
    cases awake with
    | false => cases h
    | true =>
      cases h
      exact (correctBank_teams ..).trans hwake

/-- Where a sync word can be read, its offset has the form and the slot that R269 asks for, its bank holds no error there, and the read
is the model's. -/
theorem of_syncRead {r : List Byte × State} (h : syncRead t c s off = some r) :
    ∃ b, syncAt c t off = .ok b ∧ syncUncorr s c t b off = none ∧ readSync s t b off = some r := by
  unfold syncRead at h
  split at h
  case isTrue => cases h
  case isFalse hform =>
    simp only [ne_eq, not_or, not_not, not_le] at hform
    obtain ⟨halign, hlow⟩ := hform
    cases hslot : t.slot (off / 32768) with
    | attached b =>
      rw [hslot] at h
      dsimp only at h
      cases hbad : bankBad s t.pool b off 16 with
      | true => simp [hbad] at h
      | false => exact ⟨b, syncAt_of_attached halign hlow hslot, by simp [syncUncorr, hbad], by simpa [hbad] using h⟩
    | _ =>
      rw [hslot] at h
      cases h

theorem swwait_holds (d x : BitVec 8) : AllHold (.swwait d x) (swwaitClaims d x) := by
  refine List.forall_mem_cons.2 ⟨claim_holds_done _ (fun _ => rfl) fun s c g run hg hm => ?goes,
    List.forall_mem_cons.2 ⟨does_again_holds _ (fun _ => rfl) fun s c g run hg hm => ?again,
    List.forall_mem_singleton.2 (claim_holds_waits _ (fun _ => rfl) fun s c g run hg hm => ?waits)⟩⟩
  all_goals
    obtain ⟨t, ht, hcopy, hp⟩ := exists_team_of_soloTeam hm
    obtain ⟨hread, hgen⟩ := Bool.and_eq_true_iff.1 hp
    obtain ⟨r, hr⟩ := Option.isSome_iff_exists.1 hread
    obtain ⟨b, hat, hgood, hbytes⟩ := of_syncRead hr
    rw [hr] at hgen
    simp only [ht, hat, hgood, hbytes, byTeam_of_find ht, hr]
  case goes | again =>
    rw [if_neg fun h => bne_iff_ne.1 hgen h.2]
    exact withChannel_of_only _ _ _ ((congrArg (Map.find · c.team) (readSync_teams hbytes)).trans ht) hcopy
  case waits => exact if_pos ⟨by simp [hcopy], eq_of_beq hgen⟩

theorem bne_zero_eq (n : Nat) : (n != 0) = decide (n ≠ 0) := by
  simp only [bne, beq_eq_decide, ne_eq, decide_not]

theorem swread_holds (d x : BitVec 8) : AllHold (.swread d x) (swreadClaims d x) := by
  simp only [swreadClaims, ← bne_zero_eq]
  refine List.forall_mem_singleton.2 (claim_holds_done _ (fun _ => rfl) fun s c g run hg hm => ?_)
  obtain ⟨t, ht, hcopy, hread⟩ := exists_team_of_soloTeam hm
  obtain ⟨r, hr⟩ := Option.isSome_iff_exists.1 hread
  obtain ⟨b, hat, hgood, hbytes⟩ := of_syncRead hr
  simp only [ht, hat, hgood, hbytes, byTeam_of_find ht, hr]
  exact withChannel_of_only _ _ _ ((congrArg (Map.find · c.team) (readSync_teams hbytes)).trans ht) hcopy

end Sys2Proof.Machine
end

section
/-! SUPPORT. The words on rings (R273 to R275), and the words of the bank switch together. -/

namespace Sys2Proof.Machine

variable {s : State} {c : Cur}

/-! ## RINGDEF, SEND (R273, R274) -/

theorem ringdef_holds (d a : BitVec 8) : AllHold (.ringdef d a) (ringdefClaims d a) := by
  refine List.forall_mem_cons.2 ⟨claim_holds_done _ (fun _ => rfl) fun s c g run hg hm => ?defines,
    List.forall_mem_cons.2 ⟨claim_holds_done _ (fun _ => rfl) fun s c g run hg hm => ?full,
    List.forall_mem_singleton.2 (claim_holds_done _ (fun _ => rfl) fun s c g run hg hm => ?undefines)⟩⟩
  all_goals
    obtain ⟨t, ht, hcopy, hp⟩ := exists_team_of_soloTeam hm
    rw [soloWord_of_only ht hcopy]
    simp only [ht]
  case undefines =>
    obtain ⟨hsize, hring⟩ := Bool.and_eq_true_iff.1 hp
    obtain ⟨r, hr, hown⟩ := (Option.any_eq_true _ _).1 hring
    rw [if_pos (of_decide_eq_true hsize), hr]
    exact if_neg fun h => h (eq_of_beq hown)
  all_goals
    obtain ⟨hp, hfree⟩ := Bool.and_eq_true_iff.1 hp
    obtain ⟨hsize, hgood⟩ := Bool.and_eq_true_iff.1 hp
    obtain ⟨hgood, hslot⟩ := Bool.and_eq_true_iff.1 hgood
    obtain ⟨hgood, hlow⟩ := Bool.and_eq_true_iff.1 hgood
    obtain ⟨hgood, hsync⟩ := Bool.and_eq_true_iff.1 hgood
    obtain ⟨hpow, halign⟩ := Bool.and_eq_true_iff.1 hgood
    rw [if_neg (of_decide_eq_true hsize), optSync_of_good hsync,
      if_neg (not_or.2 ⟨by rw [hpow]; exact Bool.false_ne_true, not_not.2 (of_decide_eq_true halign)⟩)]
    dsimp only
    rw [if_neg (Nat.not_le.2 (of_decide_eq_true hlow)), slot_of_attachedSlot hslot]
  case defines =>
    obtain ⟨i, hi⟩ := Option.isSome_iff_exists.1 hfree
    simp only [hi, byTeam_of_find ht]
    rfl
  case full =>
    simp only [Option.isNone_iff_eq_none.1 hfree]
    rfl

theorem send_holds (r a : BitVec 8) : AllHold (.send r a) (sendClaims r a) := by
  simp only [sendClaims, ← odd_eq_ne]
  refine List.forall_mem_cons.2 ⟨claim_holds_done _ (fun _ => rfl) fun s c g run hg hm => ?fresh,
    List.forall_mem_singleton.2 (does_again_holds _ (fun _ => rfl) fun s c g run hg hm => ?again)⟩
  all_goals
    obtain ⟨t, ht, hcopy, hp⟩ := exists_team_of_soloTeam hm
    obtain ⟨hlevel, hp⟩ := Bool.and_eq_true_iff.1 hp
    simp only [Bool.and_eq_true, decide_eq_true_eq, reads0, List.isEmpty_iff, and_true] at hlevel hp
    obtain ⟨⟨⟨⟨⟨⟨hsome, hmax⟩, hlen⟩, halign⟩, hlow⟩, hfits⟩, hslot⟩ := hp
    simp only [ht]
    rw [if_neg (by omega), if_neg (by omega), if_neg (by omega), if_neg (by omega), slot_of_attachedSlot hslot]
    exact onceWord_of_only ht hcopy hlevel rfl rfl (find_settled ht)

/-! ## RINGACK, RINGWAIT (R275) -/

theorem of_ownRing {h : Word} {x : Ring} (hx : ownRing s c h = some x) : ringAt s h = some x ∧ x.team = c.team := by
  obtain ⟨hx, hown⟩ := Option.filter_eq_some_iff.1 hx
  exact ⟨hx, eq_of_beq hown⟩

/-- The ring of a handle that names none of the issuing team's. -/
theorem ringAt_of_not_own {h : Word} {x : Ring} (hx : ownRing s c h = none) (hr : ringAt s h = some x) : x.team ≠ c.team := by
  intro hown
  simp [ownRing, hr, hown] at hx

theorem ringack_holds (r a : BitVec 8) : AllHold (.ringack r a) (ringackClaims r a) := by
  refine List.forall_mem_cons.2 ⟨claim_holds_done _ (fun _ => rfl) fun s c g run hg hm => ?acks,
    List.forall_mem_cons.2 ⟨claim_holds_waits _ (fun _ => rfl) fun s c g run hg hm => ?waits,
    List.forall_mem_cons.2 ⟨claim_holds_fault _ (fun _ => rfl) fun s c g run hg hm => ?prot,
    List.forall_mem_singleton.2 (claim_holds_fault _ (fun _ => rfl) fun s c g run hg hm => ?bad)⟩⟩⟩
  all_goals
    obtain ⟨t, ht, hcopy, hp⟩ := exists_team_of_soloTeam hm
    rw [soloWord_of_only ht hcopy]
  case prot =>
    dsimp only
    cases hr : ringAt s (g.rf.S r.toNat) with
    | none => rfl
    | some x => exact if_pos (ringAt_of_not_own (Option.isNone_iff_eq_none.1 hp) hr)
  case waits =>
    obtain ⟨hbefore, hring⟩ := Bool.and_eq_true_iff.1 hp
    obtain ⟨x, hx⟩ := Option.isSome_iff_exists.1 hring
    obtain ⟨hr, hown⟩ := of_ownRing hx
    simp only [hr]
    exact (if_neg fun h => h hown).trans (if_pos hbefore)
  all_goals
    obtain ⟨hbefore, hring⟩ := Bool.and_eq_true_iff.1 hp
    obtain ⟨x, hx, hcount⟩ := (Option.any_eq_true _ _).1 hring
    obtain ⟨hr, hown⟩ := of_ownRing hx
    simp only [hr]
    refine (if_neg fun h => h hown).trans ((if_neg (ne_true_of_eq_false (Bool.not_eq_true' _ ▸ hbefore))).trans ?_)
  case acks => exact if_neg (by simpa [Nat.not_lt] using hcount)
  case bad => exact if_pos (by simpa using hcount)

theorem ringwait_holds (d r : BitVec 8) : AllHold (.ringwait d r) (ringwaitClaims d r) := by
  refine List.forall_mem_cons.2 ⟨claim_holds_done _ (fun _ => rfl) fun s c g run hg hm => ?goes,
    List.forall_mem_cons.2 ⟨does_again_holds _ (fun _ => rfl) fun s c g run hg hm => ?again,
    List.forall_mem_cons.2 ⟨claim_holds_waits _ (fun _ => rfl) fun s c g run hg hm => ?waits,
    List.forall_mem_singleton.2 (claim_holds_fault _ (fun _ => rfl) fun s c g run hg hm => ?prot)⟩⟩⟩
  all_goals
    obtain ⟨t, ht, hcopy, hp⟩ := exists_team_of_soloTeam hm
    rw [soloWord_of_only ht hcopy]
  case prot =>
    dsimp only
    cases hr : ringAt s (g.rf.S r.toNat) with
    | none => rfl
    | some x => exact if_pos (ringAt_of_not_own (Option.isNone_iff_eq_none.1 hp) hr)
  all_goals
    obtain ⟨hring, htail⟩ := Bool.and_eq_true_iff.1 hp
    obtain ⟨x, hx⟩ := Option.isSome_iff_exists.1 hring
    obtain ⟨hr, hown⟩ := of_ownRing hx
    dsimp only at htail
    rw [hx] at htail
    simp only [hr, hx]
    refine (if_neg fun h => h hown).trans ?_
  case goes | again => exact if_neg (bne_iff_ne.1 htail)
  case waits => exact if_pos (eq_of_beq htail)

/-- Settles O14: each word of the bank switch, of sync words and of rings does what its claims say, by the rules for a team of one copy
and for what its slot, sync word or ring is. -/
theorem bankWordsMoveBanksAndSignals : Obligations.BankWordsMoveBanksAndSignals :=
  ⟨btake_holds, bfree_holds, bgive_holds, bopen_holds, bdrain_holds, bquery_holds, swinit_holds, swadd_holds, swwait_holds, swread_holds,
    ringdef_holds, send_holds, ringack_holds, ringwait_holds⟩

end Sys2Proof.Machine
end

section
/-! SUPPORT. The steps of the bank switch (R256, R261, R267, R274): zeroing and retention of banks, gives that land, and messages that arrive
at a ring or are refused. -/

namespace Sys2Proof.Machine

/-! ## Zeroing and retention of banks (R256, R267) -/

theorem bankZeroingDone_takes : AllTake .bankZeroingDone bankZeroingDoneClaims := by
  refine List.forall_mem_cons.2 ⟨Event.holds_of _ (fun s => (rfl : execBankZeroingDone s = _)) fun e s hdue => ?ends,
    List.forall_mem_singleton.2 (Event.holds_of _ (fun s => (rfl : execBankZeroingDone s = _)) fun e s hdue => ?stands)⟩
  all_goals
    dsimp only at hdue ⊢
    cases hst : ((s.cluster e.a).bank e.b).st
  case ends.zeroing rank start =>
    cases start with
    | none => simp [hst] at hdue
    | some start =>
      simp only [hst, decide_eq_true_eq] at hdue
      refine (if_neg (Nat.not_lt.2 hdue)).trans (congrArg (keepPromises · e.a 64) ?_)
      generalize List.filterMap _ _ = l
      cases l <;> rfl
  case stands.zeroing rank start =>
    cases start with
    | none => rfl
    | some start => exact if_pos (by simpa [hst] using hdue)
  case ends.free | ends.attached | ends.transit => simp [hst] at hdue
  case stands.free | stands.attached | stands.transit => rfl

theorem bankRetentionEntry_takes : AllTake .bankRetentionEntry bankRetentionEntryClaims := by
  refine List.forall_mem_cons.2 ⟨Event.holds_of _ (fun s => (rfl : execBankRetentionEntry s = _)) fun e s hdue => ?begins,
    List.forall_mem_cons.2 ⟨Event.holds_of _ (fun s => (rfl : execBankRetentionEntry s = _)) fun e s hdue => ?ends,
    List.forall_mem_singleton.2 (Event.holds_of _ (fun s => (rfl : execBankRetentionEntry s = _)) fun e s hdue => ?stands)⟩⟩
  case begins =>
    simp only [Bool.and_eq_true, beq_iff_eq, decide_eq_true_eq, Bool.not_eq_true'] at hdue
    obtain ⟨⟨⟨⟨hactive, hon⟩, hidle⟩, hclear⟩, hlong⟩ := hdue
    have hbits (n : Nat) : natBits n 0 16 = n % 2 ^ 16 := by simp [natBits]
    simp only [hactive, hon, hclear, hbits, Bool.not_true, Bool.false_eq_true, false_or, or_false]
    exact if_neg (not_or.2 ⟨Nat.one_le_iff_ne_zero.1 hidle, Nat.not_lt.2 hlong⟩)
  case ends =>
    cases hret : ((s.cluster e.a).bank e.b).ret with
    | entering since =>
      simp only [hret, decide_eq_true_eq] at hdue
      simp only [hret, if_neg (Nat.not_lt.2 hdue)]
    | _ => simp [hret] at hdue
  case stands =>
    dsimp only [idleWhen] at hdue ⊢
    cases hret : ((s.cluster e.a).bank e.b).ret with
    | active =>
      rw [hret] at hdue
      exact if_pos (.inl hdue)
    | entering since =>
      rw [hret] at hdue
      exact if_pos (of_decide_eq_true hdue)
    | _ => rfl

theorem bankRetentionExitDone_takes : AllTake .bankRetentionExitDone bankRetentionExitDoneClaims := by
  refine List.forall_mem_cons.2 ⟨Event.holds_of _ (fun s => (rfl : execBankRetentionExitDone s = _)) fun e s hdue => ?ends,
    List.forall_mem_singleton.2 (Event.holds_of _ (fun s => (rfl : execBankRetentionExitDone s = _)) fun e s hdue => ?stands)⟩
  all_goals
    dsimp only at hdue ⊢
    cases hret : ((s.cluster e.a).bank e.b).ret
  case ends.leaving due =>
    simp only [hret, Bool.or_eq_true, decide_eq_true_eq] at hdue
    refine if_neg fun h => ?_
    obtain hlate | hfree := hdue
    · exact Nat.not_lt.2 hlate h.1
    · rw [hfree] at h
      exact Bool.false_ne_true h.2
  case ends.retained =>
    rw [hret] at hdue
    exact if_pos hdue
  case ends.active | ends.entering => simp [hret] at hdue
  case stands.leaving due =>
    refine if_pos ?_
    simpa [hret] using hdue
  case stands.retained => exact if_neg (by simpa [hret] using hdue)
  case stands.active | stands.entering => rfl

/-! ## GIVE_LAND (R261) -/

theorem giveLand_takes : AllTake .giveLand giveLandClaims := by
  refine List.forall_mem_cons.2 ⟨Event.holds_of _ (fun s => (rfl : execGiveLand s = _)) fun e s hdue => ?held,
    List.forall_mem_singleton.2 (Event.holds_of _ (fun s => (rfl : execGiveLand s = _)) fun e s hdue => ?drained)⟩
  all_goals
    obtain ⟨o, ho, hdue⟩ := (Option.any_eq_true _ _).1 hdue
    simp only [opStep, ho]
  case held =>
    obtain ⟨k, hk, hdue⟩ := (Option.any_eq_true _ _).1 hdue
    obtain ⟨t, ht, hdue⟩ := (Option.any_eq_true _ _).1 hdue
    obtain ⟨x, hx, hready⟩ := (Option.any_eq_true _ _).1 hdue
    dsimp only at hk
    split at hk
    case h_2 => cases hk
    case h_1 k' hbody =>
      cases hk
      simp only [ht, hbody, hx]
      generalize landReady s o x.bank = r at hready ⊢
      obtain ⟨up, y⟩ := r
      cases hready
      rfl
  case drained =>
    obtain ⟨⟨sl, b, bo⟩, hx, hdue⟩ := (Option.any_eq_true _ _).1 hdue
    obtain ⟨hdue, hdrained⟩ := Bool.and_eq_true_iff.1 hdue
    obtain ⟨hland, hgroup⟩ := Bool.and_eq_true_iff.1 hdue
    obtain ⟨k, hk, hready⟩ := (Option.any_eq_true _ _).1 hland
    obtain ⟨g, hg⟩ := Option.isSome_iff_exists.1 hgroup
    obtain ⟨t, ht, hdrained⟩ := (Option.any_eq_true _ _).1 hdrained
    dsimp only at hx
    split at hx
    case h_2 => cases hx
    case h_1 hbody =>
      cases hx
      simp only [ht, hbody, hk, hg, hdrained]
      generalize landReady s k b = r at hready ⊢
      obtain ⟨up, y⟩ := r
      cases hready
      rfl

/-! ## RING_MESSAGE_DELIVERY, SEND_REFUSAL (R274) -/

theorem ringMessageDelivery_takes : AllTake .ringMessageDelivery ringMessageDeliveryClaims := by
  refine List.forall_mem_singleton.2 (Event.holds_of _ (fun s => (rfl : execRingMessageDelivery s = _)) fun e s hdue => ?_)
  obtain ⟨o, ho, hdue⟩ := (Option.any_eq_true _ _).1 hdue
  obtain ⟨⟨t, r, k, b⟩, hgoes⟩ := Option.isSome_iff_exists.1 hdue
  simp only [opStep, ho, hgoes]
  dsimp only at hgoes
  split at hgoes
  case h_2 => cases hgoes
  case h_1 h len bs t' hmsg ht =>
  split at hmsg
  case h_2 => cases hmsg
  case h_1 src hbody =>
  cases hmsg
  obtain ⟨hclear, hgoes⟩ := Option.ite_none_left_eq_some.1 hgoes
  split at hgoes
  case h_1 => cases hgoes
  case h_2 r' hr =>
  split at hgoes
  case h_1 => cases hgoes
  case h_2 k' hk =>
  split at hgoes
  case h_2 => cases hgoes
  case h_1 b' hb =>
  obtain ⟨⟨hres, hroom, hup, hawake⟩, hsome⟩ := Option.ite_none_right_eq_some.1 hgoes
  cases hsome
  simp only [hbody, ht, hr, hk, hb, if_neg hclear]
  rw [if_neg (not_or.2 ⟨not_not.2 hres, Nat.not_lt.2 hroom⟩)]
  cases hword : r.sync with
  | none =>
    simp only [hword] at hawake ⊢
    generalize State.wakeBank _ _ _ = v at hawake ⊢
    obtain ⟨awake, y⟩ := v
    cases hawake
    rfl
  | some off =>
    simp only [hword] at hup hawake ⊢
    generalize raiseReady _ _ _ = u at hup hawake ⊢
    obtain ⟨up, y⟩ := u
    cases hup
    generalize State.wakeBank _ _ _ = v at hawake ⊢
    obtain ⟨awake, z⟩ := v
    cases hawake
    rfl

theorem sendRefusal_takes : AllTake .sendRefusal sendRefusalClaims := by
  refine List.forall_mem_cons.2 ⟨Event.holds_of _ (fun s => (rfl : execSendRefusal s = _)) fun e s hdue => ?refused,
    List.forall_mem_singleton.2 (Event.holds_of _ (fun s => (rfl : execSendRefusal s = _)) fun e s hdue => ?stands)⟩
  all_goals
    obtain ⟨o, ho, hdue⟩ := (Option.any_eq_true _ _).1 hdue
    simp only [opStep, ho]
    dsimp only at hdue
  case refused =>
    obtain ⟨⟨t, d⟩, hwhy⟩ := Option.isSome_iff_exists.1 hdue
    cases hbody : o.body with
    | send h src len bs no =>
      cases ht : s.teams.find o.team with
      | none => simp [hbody, ht] at hwhy
      | some t' =>
        simp only [hbody, ht] at hwhy ⊢
        rw [hwhy]
        obtain ⟨hclear, hwhy⟩ := Option.ite_none_left_eq_some.1 hwhy
        obtain ⟨d', hd, hsome⟩ := Option.map_eq_some_iff.1 hwhy
        cases hsome
        simp only [if_neg hclear, hd]
    | _ => simp [hbody] at hwhy
  case stands =>
    have hwhy := Option.isNone_iff_eq_none.1 hdue
    cases hbody : o.body with
    | send h src len bs no =>
      cases ht : s.teams.find o.team with
      | none => rfl
      | some t =>
        simp only [hbody, ht] at hwhy ⊢
        by_cases hclear : (opHeld s o || sendAhead s o h) = true
        · exact if_pos hclear
        · rw [if_neg hclear, Option.map_eq_none_iff] at hwhy
          simp only [if_neg hclear, hwhy]
    | _ => rfl

/-- Settles O27: a zeroing that ends hands its place on, retention goes on by its own state, a give lands where its BOPEN's sync word is awake,
and a message is placed or refused as its ring asks. -/
theorem banksAndRingsGoOn : Obligations.BanksAndRingsGoOn :=
  ⟨bankZeroingDone_takes, bankRetentionEntry_takes, bankRetentionExitDone_takes, giveLand_takes, ringMessageDelivery_takes, sendRefusal_takes⟩

end Sys2Proof.Machine
end

section
/-! SUPPORT. What the checks of the slices' words read (R286, R302, R306, R311): waking slice banks touches nothing but their retention, and
a range or a list of addresses whose pages are at hand is translated as the claims say. -/

namespace Sys2Proof.Machine

variable {s s' : State} {c : Cur} {g : Group} {run : Run} {t : Team}

/-! ## Waking slice banks (R286) -/

/-- Only the retention of slice banks and the time of their last use have changed. -/
def OnlyRetention (s s' : State) : Prop := ∃ ret use, s' = { s with sliceRet := ret, sliceUse := use }

namespace OnlyRetention

theorem refl (s : State) : OnlyRetention s s := ⟨_, _, rfl⟩

theorem trans {s₁ s₂ s₃ : State} : OnlyRetention s₁ s₂ → OnlyRetention s₂ s₃ → OnlyRetention s₁ s₃ := by
  rintro ⟨_, _, rfl⟩ ⟨_, _, rfl⟩
  exact ⟨_, _, rfl⟩

theorem teams (h : OnlyRetention s s') : s'.teams = s.teams := by
  obtain ⟨_, _, rfl⟩ := h
  rfl

theorem wobs (h : OnlyRetention s s') : s'.wobs = s.wobs := by
  obtain ⟨_, _, rfl⟩ := h
  rfl

/-- Wakes one after another, each of which may still have to wait. -/
theorem foldl {α : Type} (wake : State → α → Bool × State) (h : ∀ s a, OnlyRetention s (wake s a).2) (as : List α) (s : State) :
    OnlyRetention s (as.foldl (fun (x : Bool × State) a => (x.1 && (wake x.2 a).1, (wake x.2 a).2)) (true, s)).2 :=
  List.foldlRecOn (motive := fun (x : Bool × State) => OnlyRetention s x.2) as _ (refl s) fun x hx a _ => hx.trans (h x.2 a)

end OnlyRetention

theorem wakeSliceBank_onlyRetention (s : State) (b : Nat) : OnlyRetention s (s.wakeSliceBank b).2 := by
  unfold State.wakeSliceBank
  cases s.sliceRet.getD b .active <;> exact ⟨_, _, rfl⟩

theorem wakeWalk_onlyRetention (s : State) (ctx : Nat) (va : DWord) : OnlyRetention s (s.wakeWalk ctx va).2 := by
  simp only [State.wakeWalk]
  split
  · exact .refl s
  · exact .foldl (fun s pa => s.wakeSlice _ pa) (fun s pa => wakeSliceBank_onlyRetention s _) _ s

theorem wakeRange_onlyRetention (ctx n : Nat) (s : State) (va len : Nat) : OnlyRetention s (wakeRange s ctx n va len).2 := by
  induction n generalizing s va len with
  | zero => exact .refl s
  | succ n ih =>
    have hwalk := wakeWalk_onlyRetention s ctx (BitVec.ofNat 64 va)
    unfold wakeRange
    split
    · exact .refl s
    · rcases hw : s.wakeWalk ctx (BitVec.ofNat 64 va) with ⟨_ | _, s'⟩ <;> rw [hw] at hwalk
      · exact hwalk
      · cases hl : walk s' ctx (BitVec.ofNat 64 va) .any with
        | ok l => simpa only [hl] using hwalk.trans (ih ..)
        | _ => simpa only [hl] using hwalk

theorem reads0_onlyRetention (c : Cur) (g : Group) (s : State) : OnlyRetention s (reads0 c g s).2 := .refl s

theorem readsRange_onlyRetention (va len : Group → Nat) (c : Cur) (g : Group) (s : State) : OnlyRetention s (readsRange va len c g s).2 := by
  unfold readsRange
  cases s.teams.find c.team with
  | none => exact .refl s
  | some t => exact wakeRange_onlyRetention ..

theorem readsPages_onlyRetention (as : Group → List DWord) (c : Cur) (g : Group) (s : State) :
    OnlyRetention s (readsPages as c g s).2 := by
  unfold readsPages
  cases s.teams.find c.team with
  | none => exact .refl s
  | some t => exact .foldl (fun s a => s.wakeWalk t.ctx a) (fun s a => wakeWalk_onlyRetention s t.ctx a) _ s

theorem readsRange_of_find (ht : s.teams.find c.team = some t) (va len : Group → Nat) :
    readsRange va len c g s = wakeRange s t.ctx (coverFuel (len g)) (va g) (len g) := by
  simp only [readsRange, ht]

theorem readsPages_of_find (ht : s.teams.find c.team = some t) (as : Group → List DWord) :
    readsPages as c g s =
      (as g).foldl (fun (x : Bool × State) a => (x.1 && (x.2.wakeWalk t.ctx a).1, (x.2.wakeWalk t.ctx a).2)) (true, s) := by
  simp only [readsPages, ht]

/-! ## Ranges and addresses that are mapped (R302, R306, R311) -/

theorem cover_of_pages {need : Need} {va len : Nat} {ps : List (Leaf × Piece)} (ht : s.teams.find c.team = some t)
    (h : pages s c need va len = some ps) : cover s t.ctx need (coverFuel len) va len = .ok ps := by
  simp only [pages, ht] at h
  cases hc : cover s t.ctx need (coverFuel len) va len with
  | ok qs => simpa [hc] using h
  | _ => simp [hc] at h

theorem cmlCover_of_cmlPages {need : Need} {as : List DWord} {ps : List (Leaf × Piece)} (ht : s.teams.find c.team = some t)
    (h : cmlPages s c need as = some ps) : cmlCover s t.ctx need as = .ok ps := by
  simp only [cmlPages, ht] at h
  cases hc : cmlCover s t.ctx need as with
  | ok qs => simpa [hc] using h
  | _ => simp [hc] at h

/-- A range whose page tables are at hand and whose pages are mapped as needed leads on with its pages. -/
theorem withCover_of_pages {need : Need} {va len : Group → Nat} {ps : List (Leaf × Piece)} (own : State → List (Leaf × Piece) → Shared)
    (ht : s.teams.find c.team = some t) (hawake : (readsRange va len c g s).1 = true)
    (hps : pages (readsRange va len c g s).2 c need (va g) (len g) = some ps) :
    withCover c g run t s need (va g) (len g) own = own (readsRange va len c g s).2 ps := by
  have ht' : (readsRange va len c g s).2.teams.find c.team = some t := by rw [(readsRange_onlyRetention va len c g s).teams, ht]
  have hcover := cover_of_pages ht' hps
  rw [readsRange_of_find ht] at hawake hcover ⊢
  unfold withCover
  generalize wakeRange s t.ctx (coverFuel (len g)) (va g) (len g) = r at hawake hcover ⊢
  obtain ⟨awake, s'⟩ := r
  subst hawake
  simp only [hcover]

/-- Live write-once buffers are what an overlap is judged by (R306). -/
theorem overlapsWob_of_onlyRetention (h : OnlyRetention s s') (ctx va len : Nat) : overlapsWob s' ctx va len = overlapsWob s ctx va len := by
  simp only [overlapsWob, h.wobs]

theorem overlapsWob_settled (s : State) (c : Cur) (ctx va len : Nat) : overlapsWob (settled c s) ctx va len = overlapsWob s ctx va len := by
  unfold settled
  cases s.teams.find c.team <;> rfl

/-- A good range for SEAL, UNSEAL and WOBSEAL, part by part (R306, R307). -/
theorem of_rangeGood {va len : Nat} (h : rangeGood s t c va len = true) :
    (len ≠ 0 ∧ len % 65536 = 0 ∧ va % 65536 = 0) ∧ overlapsWob s t.ctx va len = false ∧
      ∃ ps, pages s c .both va len = some ps ∧ splintersOf ps ≤ (s.ctx t.ctx).splcount := by
  simp only [rangeGood, Bool.and_eq_true, decide_eq_true_eq, Bool.not_eq_true', Option.any_eq_true] at h
  obtain ⟨⟨⟨⟨hlen, hunit⟩, halign⟩, hwob⟩, hpages⟩ := h
  exact ⟨⟨hlen, hunit, halign⟩, hwob, hpages⟩

/-- Good addresses for CMLR and CMLS, part by part (R302). -/
theorem of_cmlGood {need : Need} {as : List DWord} (h : cmlGood s c need as = true) :
    (∀ a ∈ as, a.toNat % 64 = 0 ∧ canonical a = true) ∧ ∃ ps, cmlPages s c need as = some ps ∧
      (ps.map (fun p => lineKey s p.2)).eraseDups.length = (ps.map (fun p => lineKey s p.2)).length := by
  simpa [cmlGood, Option.any_eq_true] using h

/-! ## Words that raise OPERAND inside a level (R314) -/

theorem inLevel_of_no_level (ht : s.teams.find c.team = some t) (hl : t.levels = []) (own : Eff) : inLevel c s own = own := by
  simp [inLevel, State.levelOpen, ht, hl]

/-! ## Words that a team of one copy performs once, with nothing logged (R419, R433) -/

/-- Where the checks let the operation go in the state in which all that they read is at hand, it goes to its engine. -/
theorem onceWord_goOnce {r : AtHand} {b : Cur → Group → State → OpBody} {x : Once} {shared : Team → State → Shared} {fa : Bool}
    (ht : s.teams.find c.team = some t) (hcopy : t.copy = .only) (hlog : x.log = none) (hfa : x.fa = fa)
    (hkeep : OnlyRetention (settled c s) (r c g (settled c s)).2)
    (hgo : shared t (settled c s) = .go (b c g (r c g (settled c s)).2) (r c g (settled c s)).2) :
    onceWord c g run x shared s = .ok (goOnce r false fa b c g run s) := by
  subst hfa
  have hsame : (((run.unpark (r c g (settled c s)).2).longOp c run x.fa (b c g (r c g (settled c s)).2)).2.teams.find c.team).map
      Team.copy = some .only := by
    rw [State.longOp, State.copy_newOp, Run.copy_unpark, hkeep.teams, find_settled ht, Option.map_some, hcopy]
  rw [settled_of_find ht] at hgo hsame
  simp only [onceWord, ht, hlog, hcopy, slackRoom, hgo, State.logOnce, goOnce, settled_of_find ht]
  exact congrArg Eff.ok (State.event_of_only hsame ..)

/-- The claims of such a word, fresh and after a park, from its own effect where the claims are meant. -/
theorem doesOnce_holds {i : Instr} {u : Uses} {r : AtHand} {logged fa : Bool} {p : Team → Cur → Group → State → Bool}
    {b : Cur → Group → State → OpBody} (own : Cur → Group → Run → State → Eff) (he : ∀ s, exec i s = issue u own s)
    (ho : ∀ s c g run t, s.teams.find c.team = some t → t.copy = .only → t.levels = [] → (r c g (settled c s)).1 = true →
      p t c g (r c g (settled c s)).2 = true → own c g run s = .ok (goOnce r logged fa b c g run s)) :
    AllHold i (doesOnce u r logged fa p b) := by
  have hown : ∀ s c g run, s.curGroup? c = some g → once r p c g run s = true → own c g run s = .ok (goOnce r logged fa b c g run s) := by
    intro s c g run _ hm
    obtain ⟨t, ht, hcopy, hp⟩ := exists_team_of_soloTeam hm
    simp only [Bool.and_eq_true, List.isEmpty_iff] at hp
    obtain ⟨⟨hlevel, hawake⟩, hgood⟩ := hp
    exact ho s c g run t ht hcopy hlevel hawake hgood
  exact List.forall_mem_cons.2 ⟨claim_holds_done own he hown, List.forall_mem_singleton.2 (does_again_holds own he hown)⟩

end Sys2Proof.Machine
end

section
/-! SUPPORT. The claims of the slices' words (R287 to R316). -/

namespace Sys2Proof.Machine

variable {s : State} {c : Cur} {g : Group} {run : Run} {t : Team}

/-! ## CMLR, CMLS (R302 to R305) -/

/-- Good addresses are reserved or stored to at their slices. -/
theorem cmlWord_goOnce {as : Group → List DWord} {x : Once} {need : Need} {body : List Piece → OpBody} {fa : Bool}
    (ht : s.teams.find c.team = some t) (hcopy : t.copy = .only) (hlog : x.log = none) (hfa : x.fa = fa)
    (hawake : (readsPages as c g (settled c s)).1 = true) (hgood : cmlGood (readsPages as c g (settled c s)).2 c need (as g) = true) :
    cmlWord c g run x need (as g) body s =
      .ok (goOnce (readsPages as) false fa (fun c g s => body (piecesOf (cmlPages s c need (as g)))) c g run s) := by
  obtain ⟨haddr, ps, hps, hlines⟩ := of_cmlGood hgood
  have halign : (as g).find? (fun a => a.toNat % 64 != 0) = none := List.find?_eq_none.2 fun a ha => by simp [(haddr a ha).1]
  have hcanon : (as g).find? (fun a => !canonical a) = none := List.find?_eq_none.2 fun a ha => by simp [(haddr a ha).2]
  have hkeep := readsPages_onlyRetention as c g (settled c s)
  have hts := find_settled ht
  have hcover := cmlCover_of_cmlPages (by rw [hkeep.teams, hts]) hps
  simp only [cmlWord, halign, hcanon]
  refine onceWord_goOnce ht hcopy hlog hfa hkeep ?_
  rw [hps]
  rw [readsPages_of_find hts] at hawake hcover hlines ⊢
  generalize (as g).foldl (fun (x : Bool × State) a => (x.1 && (x.2.wakeWalk t.ctx a).1, (x.2.wakeWalk t.ctx a).2)) (true, settled c s) = r
    at hawake hcover hlines ⊢
  obtain ⟨awake, s'⟩ := r
  subst hawake
  simp only [hcover]
  exact if_neg (not_not.2 hlines)

theorem cmlr_holds (a : BitVec 8) (n : BitVec 2) : AllHold (.cmlr a n) (cmlrClaims a n) := by
  simp only [cmlrClaims, ← odd_eq]
  exact doesOnce_holds _ (fun _ => rfl) fun s c g run t ht hcopy _ hawake hgood => cmlWord_goOnce ht hcopy rfl rfl hawake hgood

theorem cmls_holds (d a : BitVec 8) (n : BitVec 2) : AllHold (.cmls d a n) (cmlsClaims d a n) := by
  simp only [cmlsClaims, ← odd_eq]
  refine doesOnce_holds _ (fun _ => rfl) fun s c g run t ht hcopy _ hawake hgood => ?_
  simp only [Bool.and_eq_true, decide_eq_true_eq] at hgood
  obtain ⟨⟨⟨⟨hgood, halign⟩, hlow⟩, hfits⟩, hslot⟩ := hgood
  have haddr : ∀ x ∈ cmlAddrs g a.toNat (n.toNat + 1), x.toNat % 64 = 0 ∧ canonical x = true := (of_cmlGood hgood).1
  simp only [ht]
  rw [if_neg (not_not.2 halign), if_neg ?aligned, if_neg (Nat.not_le.2 hlow), if_neg ?canonical, slot_of_attachedSlot hslot]
  case aligned => simpa using fun x hx => (haddr x hx).1
  case canonical => simpa using fun x hx => (haddr x hx).2
  exact (if_neg (Nat.not_lt.2 hfits)).trans (cmlWord_goOnce ht hcopy rfl rfl hawake hgood)

/-! ## SEAL, UNSEAL, WOBSEAL, WOBREL (R306 to R310) -/

/-- A good range goes to its slices, whatever the operation makes of its pieces. -/
theorem sealRange_goOnce {va len : Group → Nat} {x : Once} {body : List Piece → OpBody} {fa : Bool}
    (ht : s.teams.find c.team = some t) (hcopy : t.copy = .only) (hlog : x.log = none) (hfa : x.fa = fa)
    (hawake : (readsRange va len c g (settled c s)).1 = true)
    (hgood : rangeGood (readsRange va len c g (settled c s)).2 t c (va g) (len g) = true) :
    sealRange c s (va g) (len g) (onceWord c g run x (fun t s => withCover c g run t s .both (va g) (len g) (fun s ps =>
        withPool c g t s (va g) ps (.go (body (ps.map (·.2))) s))) s) =
      .ok (goOnce (readsRange va len) false fa (fun c g s => body (piecesOf (pages s c .both (va g) (len g)))) c g run s) := by
  have hkeep := readsRange_onlyRetention va len c g (settled c s)
  obtain ⟨⟨hlen, hunit, halign⟩, hwob, ps, hps, hpool⟩ := of_rangeGood hgood
  rw [overlapsWob_of_onlyRetention hkeep, overlapsWob_settled] at hwob
  simp only [sealRange, ht]
  rw [if_neg (not_or.2 ⟨hlen, not_not.2 hunit⟩), if_neg (by simp [hwob]), if_neg (not_not.2 halign)]
  refine onceWord_goOnce ht hcopy hlog hfa hkeep ?_
  rw [withCover_of_pages _ (find_settled ht) hawake hps, hps]
  exact if_pos hpool

/-- The claims of SEAL and UNSEAL, which differ in what becomes of the range. -/
def resealClaims (on : Bool) (a b : BitVec 8) : List Claim :=
  doesOnce { role := .copyVector, sr := [(a.toNat, 2), (b.toNat, 1)], bad := odd a, pair := true, long := some false }
    (readsRange (fun g => (g.rf.S64 a.toNat).toNat) (fun g => (g.rf.S b.toNat).toNat)) false false
    (fun t c g s => rangeGood s t c (g.rf.S64 a.toNat).toNat (g.rf.S b.toNat).toNat)
    (fun c g s => .seal (piecesOf (pages s c .both (g.rf.S64 a.toNat).toNat (g.rf.S b.toNat).toNat)) on none)

theorem sealClaims_eq (a b : BitVec 8) : sealClaims a b = resealClaims true a b := by
  simp only [sealClaims, resealClaims, odd_eq]

theorem unsealClaims_eq (a b : BitVec 8) : unsealClaims a b = resealClaims false a b := by
  simp only [unsealClaims, resealClaims, odd_eq]

theorem reseal_holds {i : Instr} (on : Bool) (a b : BitVec 8) (he : ∀ s, exec i s = sealWord on a b s) :
    AllHold i (resealClaims on a b) :=
  doesOnce_holds _ he fun _ _ _ _ _ ht hcopy hlevel hawake hgood =>
    (inLevel_of_no_level ht hlevel _).trans (sealRange_goOnce (body := fun ps => .seal ps on none) ht hcopy rfl rfl hawake hgood)

theorem seal_holds (a b : BitVec 8) : AllHold (.seal a b) (sealClaims a b) :=
  sealClaims_eq a b ▸ reseal_holds true a b fun _ => rfl

theorem unseal_holds (a b : BitVec 8) : AllHold (.unseal a b) (unsealClaims a b) :=
  unsealClaims_eq a b ▸ reseal_holds false a b fun _ => rfl

theorem wobseal_holds (d a : BitVec 8) : AllHold (.wobseal d a) (wobsealClaims d a) := by
  simp only [wobsealClaims, ← odd_eq]
  refine doesOnce_holds _ (fun _ => rfl) fun s c g run t ht hcopy hlevel hawake hgood => ?_
  simp only [Bool.and_eq_true, decide_eq_true_eq] at hgood
  obtain ⟨⟨hone, hmax⟩, hrange⟩ := hgood
  refine (inLevel_of_no_level ht hlevel _).trans ((if_neg (by omega)).trans ?_)
  exact sealRange_goOnce (body := fun ps => .wobseal d.toNat (g.rf.S (a.toNat + 3)).toNat none ps none) ht hcopy rfl rfl hawake hrange

/-- The fields of a handle whose zero bits are zero (R309). -/
theorem wobrel_handle {h : Nat} (hw : h < 2 ^ 32) :
    (h < 2 ^ 23 → natBits h 23 9 = 0) ∧ natBits h 4 4 = h / 16 % 16 ∧ natBits h 8 8 = h / 2 ^ 8 % 256 ∧
      natBits h 16 7 * 16 + natBits h 0 4 = h / 2 ^ 16 % 128 * 16 + h % 16 := by
  unfold natBits
  omega

theorem wobrel_holds (a : BitVec 8) : AllHold (.wobrel a) (wobrelClaims a) := by
  refine doesOnce_holds _ (fun _ => rfl) fun s c g run t ht hcopy hlevel hawake hgood => ?_
  simp only [Bool.and_eq_true, decide_eq_true_eq, Option.any_eq_true, beq_iff_eq] at hgood
  obtain ⟨⟨hlow, hzero⟩, w, hfind, ⟨hlive, hgen⟩, hctx⟩ := hgood
  obtain ⟨hhigh, hmid, hgenBits, hkey⟩ := wobrel_handle (g.rf.S a.toNat).isLt
  refine (inLevel_of_no_level ht hlevel _).trans (onceWord_goOnce ht hcopy rfl rfl (reads0_onlyRetention c g _) ?_)
  simp only [hkey]
  rw [show (settled c s).wobs.find _ = some w from hfind]
  dsimp only
  rw [if_neg (by simp [hhigh hlow, hmid, hzero, hlive, hgenBits, hgen]), if_neg (not_not.2 hctx)]
  rfl

/-! ## DISCARD, FLUSH (R311 to R313) -/

theorem discard_holds (a b : BitVec 8) : AllHold (.discard a b) (discardClaims a b) := by
  simp only [discardClaims, ← odd_eq]
  refine doesOnce_holds _ (fun _ => rfl) fun s c g run t ht hcopy hlevel hawake hgood => ?_
  simp only [Bool.and_eq_true, decide_eq_true_eq, Option.any_eq_true, List.all_eq_true] at hgood
  obtain ⟨⟨⟨hlen, halign⟩, hunit⟩, ps, hps, hdrawer⟩ := hgood
  have hnone : ps.find? (fun p => decide (2 ^ 40 ≤ p.2.pa)) = none := List.find?_eq_none.2 fun p hp => by simpa using hdrawer p hp
  refine (inLevel_of_no_level ht hlevel _).trans ((if_neg hlen).trans ((if_neg (by simp [halign, hunit])).trans ?_))
  refine onceWord_goOnce ht hcopy rfl rfl (readsRange_onlyRetention _ _ c g _) ?_
  rw [hps, if_pos rfl]
  refine (withCover_of_pages _ (find_settled ht) hawake hps).trans ?_
  simp only [hnone]
  rfl

theorem flush_holds (a b : BitVec 8) : AllHold (.flush a b) (flushClaims a b) := by
  simp only [flushClaims, ← odd_eq]
  refine doesOnce_holds _ (fun _ => rfl) fun s c g run t ht hcopy hlevel hawake hgood => ?_
  simp only [Bool.and_eq_true, decide_eq_true_eq, Option.isSome_iff_exists] at hgood
  obtain ⟨⟨⟨hlen, halign⟩, hunit⟩, ps, hps⟩ := hgood
  refine (if_neg hlen).trans ((if_neg (by simp [halign, hunit])).trans ?_)
  refine onceWord_goOnce ht hcopy rfl rfl (readsRange_onlyRetention _ _ c g _) ?_
  rw [hps]
  refine (withCover_of_pages _ (find_settled ht) hawake hps).trans ?_
  cases hdev : ps.find? (fun p => decide (2 ^ 40 ≤ p.2.pa)) with
  | some p => rfl
  | none =>
    have hall : (ps.map (·.2)).filter (fun p => decide (p.pa < 2 ^ 40)) = ps.map (·.2) :=
      List.filter_eq_self.2 fun p hp => by
        obtain ⟨q, hq, rfl⟩ := List.mem_map.1 hp
        simpa using List.find?_eq_none.1 hdev q hq
    exact congrArg (fun ps => Shared.go (.flush ps false) _) hall.symm

/-! ## VCQUERY, VCDEF, VCRESIZE (R292 to R297) -/

theorem vcquery_holds (d a : BitVec 8) : AllHold (.vcquery d a) (vcqueryClaims d a) := by
  simp only [vcqueryClaims, ← odd_eq]
  refine List.forall_mem_cons.2 ⟨claim_holds_done _ (fun _ => rfl) fun s c g run _ hm => ?answers,
    List.forall_mem_singleton.2 (claim_holds_fault _ (fun _ => rfl) fun s c g run _ hbad => ?bad)⟩
  case answers =>
    obtain ⟨t, ht, hcopy, hn⟩ := exists_team_of_soloTeam hm
    have hn := of_decide_eq_true hn
    refine (if_neg (by omega)).trans ?_
    simp only [ht, withChannel_of_only _ _ _ ht hcopy, byTeam_of_find ht]
    rfl
  case bad => exact if_pos (of_decide_eq_true hbad)

/-- A CDR that a team may read is taken in the state in which it is at hand, with a park's hidden operation gone (R245, R293). -/
theorem withCdr_of_cdrOf {va : DWord} {bs : List Byte} {y : State} (own : Team → List Byte → State → Eff)
    (ht : s.teams.find c.team = some t) (h : cdrOf s c va = some (bs, y)) : withCdr c g run s va own = own t bs (run.unpark y) := by
  unfold cdrOf at h
  unfold withCdr
  obtain ⟨halign, h⟩ := Option.ite_none_left_eq_some.1 h
  simp only [ht] at h ⊢
  rw [if_neg halign]
  rcases hwalk : s.wakeWalk t.ctx va with ⟨_ | _, s1⟩ <;> simp only [hwalk] at h ⊢
  · cases h
  cases hleaf : walk s1 t.ctx va .load with
  | ok l =>
    simp only [hleaf] at h ⊢
    rcases hslice : s1.wakeSlice l.vc l.pa with ⟨_ | _, s2⟩ <;> simp only [hslice] at h ⊢
    · cases h
    obtain ⟨hgood, h⟩ := Option.ite_none_left_eq_some.1 h
    cases h
    exact if_neg hgood
  | _ => simp [hleaf] at h

/-- A VC whose shares were last held by its own context has none to clear (R297). -/
theorem defineVc_of_none_to_clear {n : Nat} {bs : List Byte} (h : toClear s (field bs 1 1) (cdrHalf bs) (cdrShares bs) = []) :
    defineVc s n bs = { s with vcs := s.vcs.put n (cdrVc bs) } := by
  have hclear : toClear s (cdrVc bs).ctx (cdrVc bs).half (cdrVc bs).shares = [] := h
  simp only [defineVc, hclear]
  rfl

/-- A VCDEF whose CDR is at hand is judged by the CDR's fields and by the VCs there are (R293). -/
theorem vcdef_holds (a : BitVec 8) : AllHold (.vcdef a) (vcdefClaims a) := by
  simp only [vcdefClaims, ← odd_eq]
  refine List.forall_mem_cons.2 ⟨claim_holds_done _ (fun _ => rfl) fun s c g run _ hm => ?owned,
    List.forall_mem_cons.2 ⟨claim_holds_done _ (fun _ => rfl) fun s c g run _ hm => ?foreign,
    List.forall_mem_singleton.2 (claim_holds_done _ (fun _ => rfl) fun s c g run _ hm => ?undefines)⟩⟩
  all_goals
    obtain ⟨t, ht, hp⟩ := exists_team_of_ofTeam hm
    simp only [Bool.and_eq_true, decide_eq_true_eq, Option.any_eq_true, List.isEmpty_iff, Option.isNone_iff_eq_none,
      Option.isSome_iff_exists, Bool.not_eq_true'] at hp
  case undefines =>
    obtain ⟨⟨⟨hlevel, ⟨bs, y⟩, hcdr, hfields⟩, hshares⟩, v, hv⟩ := hp
    simp only [hcdr, Option.getD_some] at hshares hv ⊢
    refine (inLevel_of_no_level ht hlevel _).trans ((withCdr_of_cdrOf _ ht hcdr).trans ?_)
    simp only [hfields, if_pos hshares, hv]
    rfl
  case owned =>
    obtain ⟨⟨⟨⟨⟨⟨⟨hlevel, ⟨bs, y⟩, hcdr, hfields⟩, hshares⟩, hnew⟩, hroom⟩, hctx⟩, hconflict⟩, hclear⟩ := hp
    simp only [hcdr, Option.getD_some] at hshares hnew hroom hctx hconflict hclear ⊢
    refine (inLevel_of_no_level ht hlevel _).trans ((withCdr_of_cdrOf _ ht hcdr).trans ?_)
    simp only [hfields, if_neg hshares, hnew, if_neg (Nat.not_le.2 hroom), hctx, hconflict, defineVc_of_none_to_clear hclear]
    rfl
  case foreign =>
    obtain ⟨⟨⟨⟨⟨⟨⟨hlevel, ⟨bs, y⟩, hcdr, hfields⟩, hshares⟩, hnew⟩, hroom⟩, hctx⟩, hconflict⟩, -⟩ := hp
    simp only [hcdr, Option.getD_some] at hshares hnew hroom hctx hconflict ⊢
    refine (inLevel_of_no_level ht hlevel _).trans ((withCdr_of_cdrOf _ ht hcdr).trans ?_)
    simp only [hfields, if_neg hshares, hnew, if_neg (Nat.not_le.2 hroom), hctx, hconflict]
    rfl

theorem vcresize_holds (a : BitVec 8) : AllHold (.vcresize a) (vcresizeClaims a) := by
  simp only [vcresizeClaims, ← odd_eq]
  refine List.forall_mem_cons.2 ⟨claim_holds_done _ (fun _ => rfl) fun s c g run _ hm => ?starts,
    List.forall_mem_singleton.2 (claim_holds_done _ (fun _ => rfl) fun s c g run _ hm => ?queued)⟩
  all_goals
    obtain ⟨t, ht, hp⟩ := exists_team_of_ofTeam hm
    simp only [Bool.and_eq_true, beq_iff_eq, Option.any_eq_true, List.isEmpty_iff, Option.isNone_iff_eq_none] at hp
    obtain ⟨⟨⟨⟨hlevel, ⟨bs, y⟩, hcdr, hfields⟩, v, hv, hctx, hlines⟩, hconflict⟩, w, hw, hold⟩ := hp
    simp only [hcdr, Option.getD_some] at hv hctx hlines hconflict hw ⊢
    obtain rfl : v = w := Option.some.inj (hv.symm.trans hw)
    refine (inLevel_of_no_level ht hlevel _).trans ((withCdr_of_cdrOf _ ht hcdr).trans ?_)
    simp only [hfields, hv, hconflict]
    rw [if_neg (by simp [hctx, hlines])]
  case starts => exact if_neg (by simp [hold])
  case queued => exact if_pos hold

theorem vcresizeMove_holds (a : BitVec 8) : AllHold (.vcresizeMove a) (vcresizeMoveClaims a) := by
  simp only [vcresizeMoveClaims, ← odd_eq]
  refine List.forall_mem_singleton.2 (claim_holds_done _ (fun _ => rfl) fun s c g run _ hm => ?_)
  obtain ⟨t, ht, hp⟩ := exists_team_of_ofTeam hm
  simp only [Bool.and_eq_true, decide_eq_true_eq, Option.any_eq_true, List.isEmpty_iff, List.all_eq_true] at hp
  obtain ⟨⟨⟨⟨⟨hlevel, hlen⟩, hunit⟩, halign⟩, hawake⟩, v, hv, ps, hps, hvcs, hpool⟩ := hp
  simp only [ht]
  refine (inLevel_of_no_level ht hlevel _).trans ?_
  rw [if_neg (not_or.2 ⟨hlen, not_not.2 hunit⟩), if_neg (not_not.2 halign), hv, hps]
  dsimp only
  rw [withCover_of_pages _ ht hawake hps, if_neg ?foreign, withPool, if_pos hpool]
  case foreign =>
    rw [Bool.not_eq_true, List.any_eq_false]
    intro p hp
    obtain ⟨w, hw, hctx⟩ := hvcs p hp
    simpa [hw] using hctx
  rfl

/-- Settles O13: a word that a team performs once goes on in the state in which all that it reads is at hand, a VC's definition or resize
by its CDR. -/
theorem sliceWordsHandTheirOperationsOver : Obligations.SliceWordsHandTheirOperationsOver :=
  ⟨cmlr_holds, cmls_holds, seal_holds, unseal_holds, wobseal_holds, wobrel_holds, discard_holds, flush_holds, vcquery_holds, vcdef_holds,
    vcresize_holds, vcresizeMove_holds⟩

end Sys2Proof.Machine
end

section
/-! SUPPORT. What a write at its home leaves of every byte (R282, R291): the byte that a sector holds, the newest byte that is on its way
to the drawer, and each part of putCells by what it does to the two. -/

namespace Sys2Proof.Machine

variable {s : State} {vc pa v q : Nat}

/-! ## Home keys -/

/-- Two physical addresses have one home where they lie in one sector under one VC. -/
theorem homeKey_inj (hpa : pa < 2 ^ 40) (hq : q < 2 ^ 40) : homeKey v q = homeKey vc pa ↔ v = vc ∧ q / 64 = pa / 64 := by
  unfold homeKey
  omega

/-! ## The byte that a sector holds (R282) -/

/-- The byte at an offset that a sector itself holds. -/
def Sector.held (x : Sector) (i : Nat) : Option Byte :=
  match x.st with
  | .invalid => none
  | .pending m => if m.getLsbD i then some (x.bytes.getD i 0) else none
  | _ => some (x.bytes.getD i 0)

/-- The byte of an address that its home sector holds. -/
def heldByte (s : State) (vc pa : Nat) : Option Byte := (s.homes.find (homeKey vc pa)).bind (·.held (pa % 64))

/-- A home byte is its sector's, or what lies below. -/
theorem homeByte_eq (s : State) (vc pa : Nat) : homeByte s vc pa = (heldByte s vc pa).getD (belowByte s vc pa) := by
  unfold homeByte heldByte
  cases s.homes.find (homeKey vc pa) with
  | none => rfl
  | some x =>
    obtain ⟨st, _⟩ := x
    cases st with
    | pending m => by_cases hm : m.getLsbD (pa % 64) <;> simp [Sector.held, hm]
    | _ => rfl

/-- Changes of a sector that keep its state and bytes keep what it holds. -/
theorem Sector.held_congr {x y : Sector} (hst : y.st = x.st) (hb : y.bytes = x.bytes) (i : Nat) : y.held i = x.held i := by
  simp only [Sector.held, hst, hb]

/-- A sector whose home slice holds it, in whole or in part. -/
def HoldsSector (s : State) (vc pa : Nat) : Prop := ∃ x, s.homes.find (homeKey vc pa) = some x ∧ x.st ≠ .invalid

/-! ## One byte written to a held sector -/

/-- One byte at an offset of a sector has been written: the sector holds it, and at every other offset what it held before. -/
structure Sector.Wrote (x y : Sector) (i : Nat) (b : Byte) : Prop where
  valid : y.st ≠ .invalid
  here : y.held i = some b
  there : ∀ j, j < 64 → j ≠ i → y.held j = x.held j

/-- A byte set in a sector that holds all of its bytes, before and after. -/
theorem Sector.wrote_of_whole {x y : Sector} {i : Nat} {b : Byte} (hy : ∀ j, j < 64 → y.held j = some ((x.bytes.setD i b 0).getD j 0))
    (hx : ∀ j, j < 64 → j ≠ i → x.held j = some (x.bytes.getD j 0)) (hi : i < 64) (hvalid : y.st ≠ .invalid) : x.Wrote y i b :=
  ⟨hvalid, by rw [hy i hi, Map.getD_setD_self], fun j hj hne => by rw [hy j hj, hx j hj hne, Map.getD_setD_ne _ _ _ hne]⟩

/-- The mask of a fill-pending sector after one byte more. -/
theorem getLsbD_mask (m : DWord) {i j : Nat} (hj : j < 64) :
    (m ||| BitVec.twoPow 64 i).getLsbD j = (m.getLsbD j || decide (j = i)) := by
  simp [hj, eq_comm]

/-- A byte written to a held sector changes that sector alone. -/
theorem homePut_eq (b : Byte) (cpol : Nat) {w : Vc} {x : Sector} (hw : s.vcs.find vc = some w)
    (hx : s.homes.find (homeKey vc pa) = some x) (hvalid : x.st ≠ .invalid) :
    ∃ y, homePut s vc pa b cpol = { s with homes := s.homes.put (homeKey vc pa) y } ∧ x.Wrote y (pa % 64) b := by
  have hi : pa % 64 < 64 := Nat.mod_lt _ (by decide)
  have hold : s.homes.getD (homeKey vc pa) Sector.invalid = x := by rw [Map.getD, hx]; rfl
  rw [homePut, hw]
  dsimp only
  rw [hold]
  cases hst : x.st with
  | invalid => exact absurd hst hvalid
  | pending m =>
    by_cases hfull : m ||| BitVec.twoPow 64 (pa % 64) = BitVec.allOnes 64
    · refine ⟨_, if_pos hfull, Sector.wrote_of_whole ?_ ?_ hi ?_⟩
      · intro j _
        by_cases hpol : w.wpol = 0 <;> simp [Sector.held, hpol]
      · intro j hj hne
        have hbit := getLsbD_mask m (i := pa % 64) hj
        rw [hfull] at hbit
        simp only [hne, decide_false, Bool.or_false, BitVec.getLsbD_allOnes, hj, decide_true] at hbit
        simp [Sector.held, hst, ← hbit]
      · by_cases hpol : w.wpol = 0 <;> simp [hpol]
    · refine ⟨_, if_neg hfull, by simp, ?_, fun j hj hne => ?_⟩
      · simp [Sector.held, getLsbD_mask m hi]
      · simp only [Sector.held, hst, getLsbD_mask m hj, hne, decide_false, Bool.or_false, Map.getD_setD_ne _ _ _ hne]
  | prov t l => exact ⟨_, rfl, Sector.wrote_of_whole (fun _ _ => rfl) (fun _ _ _ => by simp [Sector.held, hst]) hi (by simp)⟩
  | _ =>
    refine ⟨_, rfl, Sector.wrote_of_whole (fun j _ => ?_) (fun _ _ _ => by simp [Sector.held, hst]) hi ?_⟩
    all_goals by_cases hpol : w.wpol = 0 <;> simp [Sector.held, hpol]

/-- What a byte's write leaves of the sectors and of what lies below. -/
structure PutAt (s t : State) (vc pa : Nat) (b : Byte) : Prop where
  rest : t = { s with homes := t.homes }
  holds : ∀ v q, HoldsSector s v q → HoldsSector t v q
  held : ∀ v q, q < 2 ^ 40 → heldByte t v q = if v = vc ∧ q = pa then some b else heldByte s v q

theorem homePut_putAt (b : Byte) (cpol : Nat) (hvc : (s.vcs.find vc).isSome = true) (h : HoldsSector s vc pa) (hpa : pa < 2 ^ 40) :
    PutAt s (homePut s vc pa b cpol) vc pa b := by
  obtain ⟨w, hw⟩ := Option.isSome_iff_exists.1 hvc
  obtain ⟨x, hx, hvalid⟩ := h
  obtain ⟨y, hput, hy⟩ := homePut_eq b cpol hw hx hvalid
  rw [hput]
  refine ⟨rfl, fun v q hq => ?_, fun v q hq => ?_⟩
  · by_cases hkey : homeKey v q = homeKey vc pa
    · exact ⟨y, by rw [hkey]; exact Map.find_put_self .., hy.valid⟩
    · obtain ⟨z, hz, hzv⟩ := hq
      exact ⟨z, (Map.find_put_ne _ _ hkey).trans hz, hzv⟩
  · unfold heldByte
    by_cases hkey : homeKey v q = homeKey vc pa
    · obtain ⟨rfl, hsec⟩ := (homeKey_inj hpa hq).1 hkey
      rw [hkey, hx]
      dsimp only
      rw [Map.find_put_self, Option.bind_some, Option.bind_some]
      by_cases hqa : q = pa
      · rw [if_pos ⟨rfl, hqa⟩, hqa, hy.here]
      · rw [if_neg fun h => hqa h.2, hy.there _ (Nat.mod_lt _ (by decide)) (by omega)]
    · have hne : ¬ (v = vc ∧ q = pa) := fun h => hkey (by rw [h.1, h.2])
      rw [if_neg hne]
      dsimp only
      rw [Map.find_put_ne _ _ hkey]

/-! ## Bytes in a row -/

theorem mem_cellsAt {a : Nat} {bs : List Byte} {x : Host.Cell} (h : x ∈ cellsAt a bs) : a ≤ x.1 ∧ x.1 < a + bs.length := by
  induction bs generalizing a with
  | nil => cases h
  | cons b bs ih =>
    rcases List.mem_cons.1 h with rfl | h
    · simp
    · have := ih h
      rw [List.length_cons]
      omega

/-- Bytes in a row, written to sectors that are held: the sectors hold them, and every other byte that they held. -/
theorem heldByte_cells (cpol : Nat) (bs : List Byte) (a : Nat) (s : State) (hvc : (s.vcs.find vc).isSome = true)
    (h : ∀ i, i < bs.length → HoldsSector s vc (a + i)) (ha : a + bs.length ≤ 2 ^ 40) :
    (cellsAt a bs).foldl (fun s x => homePut s vc x.1 x.2 cpol) s =
        { s with homes := ((cellsAt a bs).foldl (fun s x => homePut s vc x.1 x.2 cpol) s).homes } ∧
      ∀ v q, q < 2 ^ 40 → heldByte ((cellsAt a bs).foldl (fun s x => homePut s vc x.1 x.2 cpol) s) v q =
        if v = vc ∧ a ≤ q ∧ q < a + bs.length then some (bs.getD (q - a) 0) else heldByte s v q := by
  induction bs generalizing a s with
  | nil => exact ⟨rfl, fun v q _ => (if_neg fun h => absurd h.2.1 (Nat.not_le.2 h.2.2)).symm⟩
  | cons b bs ih =>
    rw [List.length_cons] at ha h ⊢
    have hone := homePut_putAt b cpol hvc (h 0 (by omega)) (by omega)
    rw [Nat.add_zero] at hone
    obtain ⟨hrest, hheld⟩ := ih (a + 1) (homePut s vc a b cpol) (by rw [hone.rest]; exact hvc)
      (fun i hi => hone.holds _ _ (by have := h (i + 1) (by omega); rwa [Nat.add_comm i 1, ← Nat.add_assoc] at this)) (by omega)
    rw [cellsAt, List.foldl_cons]
    refine ⟨?_, fun v q hq => ?_⟩
    · rw [hrest, hone.rest]
    · rw [hheld v q hq, hone.held v q hq]
      by_cases hv : v = vc
      · by_cases hqa : q = a
        · subst hqa
          simp [hv]
        · by_cases hin : a + 1 ≤ q ∧ q < a + 1 + bs.length
          · obtain ⟨n, rfl⟩ := Nat.exists_eq_add_of_le hin.1
            rw [if_pos ⟨hv, hin⟩, if_pos ⟨hv, by omega, by omega⟩, show a + 1 + n - a = n + 1 by omega, Nat.add_sub_cancel_left,
              List.getD_cons_succ]
          · rw [if_neg fun h => hin h.2, if_neg fun h => hqa h.2, if_neg fun h => hin (by omega)]
      · rw [if_neg fun h => hv h.1, if_neg fun h => hv h.1, if_neg fun h => hv h.1]

/-! ## The newest byte on its way to the drawer (R291) -/

/-- A cell list that does not name an address leaves no byte there. -/
theorem lastCell_eq_none {cells : List Host.Cell} {a : Nat} (h : ∀ x ∈ cells, x.1 ≠ a) : lastCell cells a = none :=
  List.foldlRecOn (motive := fun (r : Option Byte) => r = none) cells _ rfl fun r hr x hx => by rw [if_neg (h x hx), hr]

/-- The byte that one write of a VC carries to an address and that the drawer has not taken yet. -/
def LinkWrite.carried (vc pa : Nat) (w : LinkWrite) : Option Byte :=
  if w.vc == some vc && w.done == none then lastCell w.cells pa else none

/-- The newest byte that writes, the oldest first, carry to an address. -/
def newestOf (vc pa : Nat) : List LinkWrite → Option Byte
  | [] => none
  | w :: ws => (newestOf vc pa ws).or (w.carried vc pa)

/-- The newest byte that a link carries to an address. -/
def Link.carried (vc pa : Nat) (l : Link) : Option Byte := newestOf vc pa (l.unacked ++ l.writes)

/-- The newest byte over links in their order. -/
def newestIn (vc pa : Nat) : Map Link → Option Byte
  | [] => none
  | l :: ls => (newestIn vc pa ls).or (l.2.carried vc pa)

theorem newestOf_append (xs ys : List LinkWrite) : newestOf vc pa (xs ++ ys) = (newestOf vc pa ys).or (newestOf vc pa xs) := by
  induction xs with
  | nil => exact Option.or_none.symm
  | cons w ws ih => rw [List.cons_append, newestOf, newestOf, ih, Option.or_assoc]

theorem newestIn_eq (ls : Map Link) : newestIn vc pa ls = newestOf vc pa (ls.flatMap (fun l => l.2.unacked ++ l.2.writes)) := by
  induction ls with
  | nil => rfl
  | cons l ls ih => rw [List.flatMap_cons, newestOf_append, newestIn, ih, Link.carried]

/-- Folding the writes from the oldest to the newest finds the newest byte. -/
theorem foldl_newest (ws : List LinkWrite) (acc : Option Byte) :
    (ws.filter (fun w => w.vc == some vc && w.done == none)).foldl (fun acc w => (lastCell w.cells pa).or acc) acc =
      (newestOf vc pa ws).or acc := by
  induction ws generalizing acc with
  | nil => rfl
  | cons w ws ih =>
    rw [newestOf, LinkWrite.carried, Option.or_assoc, List.filter_cons]
    by_cases hw : (w.vc == some vc && w.done == none) = true
    · rw [if_pos hw, List.foldl_cons, ih, if_pos hw]
    · rw [if_neg hw, ih, if_neg hw, Option.none_or]

theorem pendingByte_eq (s : State) (vc pa : Nat) : pendingByte s vc pa = newestIn vc pa s.links := by
  rw [newestIn_eq, ← Option.or_none (o := newestOf _ _ _), ← foldl_newest]
  refine congrArg (fun f => List.foldl f none _) (funext₂ fun acc w => ?_)
  cases lastCell w.cells pa <;> rfl

/-- Where no link carries a byte to an address, no entry of the map does. -/
theorem carried_getD_of_newestIn {ls : Map Link} (h : newestIn vc pa ls = none) (k : Nat) :
    (ls.getD k Link.reset).carried vc pa = none := by
  induction ls with
  | nil => rfl
  | cons l ls ih =>
    obtain ⟨j, l⟩ := l
    obtain ⟨hls, hl⟩ := Option.or_eq_none_iff.1 h
    by_cases hk : k = j
    · simpa [Map.getD, Map.find, hk] using hl
    · simpa [Map.getD, Map.find, hk] using ih hls

/-- A link that carries to an address what the link in its place did leaves the newest byte there as it is. -/
theorem newestIn_put {ls : Map Link} {k : Nat} {l : Link} (h : l.carried vc pa = (ls.getD k Link.reset).carried vc pa) :
    newestIn vc pa (ls.put k l) = newestIn vc pa ls := by
  induction ls with
  | nil => exact h
  | cons e ls ih =>
    obtain ⟨j, m⟩ := e
    unfold Map.put
    by_cases hk : k = j
    · have hm : l.carried vc pa = m.carried vc pa := by simpa [Map.getD, Map.find, hk] using h
      rw [if_pos hk, newestIn, newestIn, hm]
    · rw [if_neg hk]
      by_cases hlt : k < j
      · rw [if_pos hlt, newestIn]
        cases hnew : newestIn vc pa ((j, m) :: ls) with
        | some b => rfl
        | none => rw [Option.none_or, h, carried_getD_of_newestIn hnew]
      · rw [if_neg hlt, newestIn, newestIn, ih (by simpa [Map.getD, Map.find, hk] using h)]

/-! ## Links (R236, R291, R472) -/

/-- A change to a link that keeps what it carries to an address keeps the home byte there. -/
theorem homeByte_putLink {g : Nat} {l : Link} (h : l.carried vc pa = (s.link g).carried vc pa) :
    homeByte (s.putLink g l) vc pa = homeByte s vc pa := by
  have hp : pendingByte (s.putLink g l) vc pa = pendingByte s vc pa := by
    rw [pendingByte_eq, pendingByte_eq]
    exact newestIn_put h
  rw [homeByte_eq, homeByte_eq, belowByte, belowByte, hp]
  rfl

/-- A queued read carries nothing to any address. -/
theorem homeByte_queueRead (s : State) (g : Nat) (r : LinkRead) (vc pa : Nat) : homeByte (queueRead s g r) vc pa = homeByte s vc pa := by
  unfold queueRead
  dsimp only
  split
  · exact homeByte_putLink rfl
  · split
    · exact (homeByte_congr (s := s.putLink g _) rfl rfl rfl vc pa).trans (homeByte_putLink rfl)
    · exact homeByte_putLink rfl

/-- Cells that go to the drawer for a VC carry nothing to an address that they do not name, and nothing for another VC. -/
theorem homeByte_queueVcWrite {cells : List Host.Cell} (poison : Bool) (h : v = vc → ∀ x ∈ cells, x.1 ≠ q) :
    homeByte (queueVcWrite s vc cells poison) v q = homeByte s v q := by
  unfold queueVcWrite
  split
  · refine homeByte_putLink ?_
    rw [Link.carried, ← List.append_assoc, newestOf_append, newestOf, newestOf, LinkWrite.carried, Option.none_or]
    by_cases hv : v = vc
    · rw [lastCell_eq_none (h hv), ite_self, Option.none_or]
      rfl
    · rw [if_neg (by simp [Ne.symm hv]), Option.none_or]
      rfl
  · rfl

theorem heldByte_queueVcWrite (s : State) (vc : Nat) (cells : List Host.Cell) (poison : Bool) (v q : Nat) :
    heldByte (queueVcWrite s vc cells poison) v q = heldByte s v q := by
  unfold queueVcWrite
  split <;> rfl

/-! ## The parts of putCells -/

theorem homeByte_fillPending (s : State) (vc : Nat) (pas : List Nat) (v q : Nat) :
    homeByte (fillPending s vc pas) v q = homeByte s v q := by
  refine List.foldlRecOn (motive := fun (t : State) => homeByte t v q = homeByte s v q) _ _ rfl fun t ht sec _ => ?_
  split
  · split
    · exact (homeByte_queueRead ..).trans ht
    · exact ht
  · exact ht

/-- A sector's error marks are none of its bytes (R285). -/
theorem heldByte_mend (s : State) (key v q : Nat) :
    heldByte { s with homes := s.homes.adjust key (fun x => { x with poison := false, weak := false }) } v q = heldByte s v q := by
  unfold heldByte
  by_cases hk : homeKey v q = key
  · subst hk
    rw [Map.find_adjust_self]
    cases s.homes.find (homeKey v q) <;> rfl
  · dsimp only
    rw [Map.find_adjust_ne _ _ hk]

theorem mendWhole_keeps (s : State) (vc : Nat) (cells : List Host.Cell) :
    mendWhole s vc cells = { s with homes := (mendWhole s vc cells).homes } ∧ ∀ v q, heldByte (mendWhole s vc cells) v q = heldByte s v q :=
  List.foldlRecOn (motive := fun (t : State) => t = { s with homes := t.homes } ∧ ∀ v q, heldByte t v q = heldByte s v q) _ _
    ⟨rfl, fun _ _ => rfl⟩ fun t ⟨hrest, hheld⟩ k _ => ⟨by dsimp only; rw [hrest], fun v q => (heldByte_mend t _ v q).trans (hheld v q)⟩

/-- The state in which the cells of a write stand at their homes, before any of them goes to the drawer. -/
def cellsHome (s : State) (vc : Nat) (cells : List Host.Cell) (cpol : Nat) : State :=
  mendWhole (cells.foldl (fun s x => homePut s vc x.1 x.2 cpol) s) vc cells

/-- Some of the cells then go to the drawer, and fills are asked for (R236, R291). -/
theorem putCells_eq (s : State) (vc : Nat) (cells : List Host.Cell) (cpol : Nat) :
    ∃ out, (∀ x ∈ out, x ∈ cells) ∧
      putCells s vc cells cpol = fillPending (queueVcWrite (cellsHome s vc cells cpol) vc out false) vc (cells.map (·.1)) := by
  refine ⟨_, fun x hx => List.mem_of_mem_filter hx, congrArg (fillPending · vc _) (ite_eq_right_iff.2 fun hnone => ?_)⟩
  rw [List.isEmpty_iff.1 hnone]
  rfl

/-- A byte that its sector holds once the cells stand at their homes is the byte read afterwards. -/
theorem homeByte_putCells_of_held {cells : List Host.Cell} {cpol : Nat} {b : Byte} (h : heldByte (cellsHome s vc cells cpol) v q = some b) :
    homeByte (putCells s vc cells cpol) v q = b := by
  obtain ⟨out, -, hput⟩ := putCells_eq s vc cells cpol
  rw [hput, homeByte_fillPending, homeByte_eq, heldByte_queueVcWrite, h, Option.getD_some]

/-- Where the cells name no byte of an address under its VC, what goes to the drawer and what is asked for leave its byte alone. -/
theorem homeByte_putCells_of_not_named {cells : List Host.Cell} {cpol : Nat} (h : v = vc → ∀ x ∈ cells, x.1 ≠ q) :
    homeByte (putCells s vc cells cpol) v q = homeByte (cellsHome s vc cells cpol) v q := by
  obtain ⟨out, hout, hput⟩ := putCells_eq s vc cells cpol
  rw [hput, homeByte_fillPending, homeByte_queueVcWrite _ fun hv x hx => h hv x (hout x hx)]

/-- Bytes in a row at their held sector, and what lies below as before. -/
theorem cellsHome_holds (cpol : Nat) {bs : List Byte} (hvc : (s.vcs.find vc).isSome = true)
    (h : ∀ i, i < bs.length → HoldsSector s vc (pa + i)) (hpa : pa + bs.length ≤ 2 ^ 40) (hq : q < 2 ^ 40) :
    heldByte (cellsHome s vc (cellsAt pa bs) cpol) v q =
        (if v = vc ∧ pa ≤ q ∧ q < pa + bs.length then some (bs.getD (q - pa) 0) else heldByte s v q) ∧
      belowByte (cellsHome s vc (cellsAt pa bs) cpol) v q = belowByte s v q := by
  obtain ⟨hrest, hheld⟩ := heldByte_cells cpol bs pa s hvc h hpa
  obtain ⟨hmend, hsame⟩ := mendWhole_keeps ((cellsAt pa bs).foldl (fun s x => homePut s vc x.1 x.2 cpol) s) vc (cellsAt pa bs)
  refine ⟨(hsame v q).trans (hheld v q hq), ?_⟩
  rw [cellsHome, hmend, hrest]
  rfl

/-- Settles O46: the bytes written are held by their sector, whatever goes to the drawer beside it; every other byte is held, or lies below,
as before. -/
theorem homeWritesReachTheirBytes : Obligations.HomeWritesReachTheirBytes := by
  intro s vc pa bs cpol x hx hvalid hvc hpa hfit
  have hholds : ∀ i, i < bs.length → HoldsSector s vc (pa + i) := fun i hi =>
    ⟨x, by rw [(homeKey_inj hpa (by omega)).2 ⟨rfl, by omega⟩, hx], hvalid⟩
  refine ⟨fun i hi => ?written, fun v q hq hother => ?others⟩
  case written =>
    obtain ⟨hheld, -⟩ := cellsHome_holds (v := vc) (q := pa + i) cpol hvc hholds (by omega) (by omega)
    rw [if_pos ⟨rfl, by omega, by omega⟩, Nat.add_sub_cancel_left] at hheld
    exact homeByte_putCells_of_held hheld
  case others =>
    obtain ⟨hheld, hbelow⟩ := cellsHome_holds (v := v) cpol hvc hholds (by omega) hq
    rw [if_neg (by omega)] at hheld
    rw [homeByte_putCells_of_not_named fun hv y hy => by have := mem_cellsAt hy; omega, homeByte_eq, homeByte_eq, hheld, hbelow]

end Sys2Proof.Machine
end

section
/-! SUPPORT. The words of the copy engine (R320 to R325, R328, R335): what a data instruction does in a team of one copy without an open level,
and the words on batches. -/

namespace Sys2Proof.Machine

variable {s : State} {c : Cur} {g : Group} {run : Run} {t : Team} {fn : Nat}

/-! ## The data instructions (R320 to R324, R328) -/

/-- RPUT and RATOM are the words that the exactly-once log numbers (R419). -/
theorem copyLog_eq_none : copyLog fn = none ↔ ¬ (fn = fnPut ∨ fn = fnAtom) := by
  unfold copyLog
  split_ifs with hput hatom <;> simp_all

theorem replayLog_of_no_level (hl : t.levels = []) (gi : Nat) (ia : DWord) (fn : Nat) : t.replayLog gi ia fn = (none, t) := by
  simp [Team.replayLog, hl]

/-- The state in which a data instruction's copy is accepted: a logged word puts its team's entry back twice (R419). -/
def copySettled (fn : Nat) (c : Cur) (s : State) : State :=
  if fn = fnPut ∨ fn = fnAtom then settled c (settled c s) else settled c s

/-- Without an open level nothing is logged. -/
theorem logOnce_copyLog (ht : s.teams.find c.team = some t) (hl : t.levels = []) :
    (settled c s).logOnce c (copyLog fn) = some (copySettled fn c s) := by
  cases hlog : copyLog fn with
  | none => rw [copySettled, if_neg (copyLog_eq_none.1 hlog)]; rfl
  | some n =>
    rw [copySettled, if_pos (not_not.1 fun h => by simp [copyLog_eq_none.2 h] at hlog), logOnce_of_no_level (find_settled ht) hl]

/-- The state with a data instruction's copy accepted and put into its engine's queue (R323). -/
def copyQueued (fn d a : Nat) (t : Team) (c : Cur) (g : Group) (run : Run) (s : State) : State :=
  let r := s.longOp c run (fn == fnAtom) (if fn = fnAtom then .ratom s.opCtr d else .accept s.opCtr)
  queueCopy { r.2 with copies := r.2.copies.put s.opCtr (newCopy r.2 c t g run s.opCtr fn (descWords g a)) } s.opCtr

/-- A data instruction takes the fault of the first check at issue that it fails (R328). -/
theorem copyOwn_of_fault {d a : Nat} {f : FaultInfo} (ht : s.teams.find c.team = some t) (hf : copyFault s c t g fn (descWords g a) = some f) :
    copyOwn fn d a c g run s = .fault f s := by
  rw [descWords] at hf
  simp only [copyOwn, ht, hf]

/-- Past its checks a team of one copy without an open level waits for room in the engine's queue and then queues its copy. -/
theorem copyOwn_of_good {d a : Nat} (ht : s.teams.find c.team = some t) (hcopy : t.copy = .only) (hl : t.levels = [])
    (hgood : copyFault s c t g fn (descWords g a) = none) :
    copyOwn fn d a c g run s =
      if 512 ≤ queueUse s t.pool then .stay (settled c s) else .ok (copyQueued fn d a t c g run (copySettled fn c s)) := by
  have hlog := logOnce_copyLog (fn := fn) ht hl
  rw [descWords] at hgood
  rw [settled_of_find ht] at hlog ⊢
  have hroom : (!slackRoom t 1) = false := by simp [slackRoom, hcopy]
  unfold copyOwn
  simp only [ht, hgood]
  cases hcl : copyLog fn
  all_goals
    rw [hcl] at hlog
    simp only [replayLog_of_no_level hl, hcopy, hroom, Bool.false_eq_true, if_false, hlog, Team.paired_of_only hcopy, ne_eq,
      ite_not, reduceCtorEq]
    rfl

theorem copyWord_holds {i : Instr} {d a : Nat} (he : ∀ s, exec i s = issueD (fun _ g run => copyUses fn d a g run) (copyOwn fn d a) s) :
    AllHold i (copyClaim fn d a) := by
  refine List.forall_mem_cons.2 ⟨claim_holds_done _ he fun s c g run hg hm => ?queues,
    List.forall_mem_cons.2 ⟨claim_holds_waits _ he fun s c g run hg hm => ?full,
    List.forall_mem_singleton.2 (claim_holds_fault _ he fun s c g run hg hm => ?bad)⟩⟩
  case bad =>
    obtain ⟨t, ht, hp⟩ := exists_team_of_ofTeam hm
    obtain ⟨f, hf⟩ := Option.isSome_iff_exists.1 hp
    rw [copyOwn_of_fault ht hf, ht, Option.bind_some, hf]
    rfl
  all_goals
    obtain ⟨t, ht, hcopy, hp⟩ := exists_team_of_soloTeam hm
    simp only [Bool.and_eq_true, List.isEmpty_iff, Option.isNone_iff_eq_none, decide_eq_true_eq] at hp
    obtain ⟨⟨hl, hgood⟩, hroom⟩ := hp
    rw [copyOwn_of_good ht hcopy hl hgood]
  case queues => rw [if_neg (Nat.not_le.2 hroom), byTeam_of_find ht]; rfl
  case full => exact if_pos hroom

/-! ## CSEAL, CWAIT, CSTAT (R324) -/

theorem cseal_holds (b : BitVec 4) : AllHold (.cseal b) (csealClaims b) := by
  refine List.forall_mem_cons.2 ⟨claim_holds_done _ (fun _ => rfl) fun s c g run hg hm => ?seals,
    List.forall_mem_singleton.2 (claim_holds_fault _ (fun _ => rfl) fun s c g run hg hm => ?sealed)⟩
  all_goals
    obtain ⟨t, ht, hcopy, hp⟩ := exists_team_of_soloTeam hm
    simp only [ht, Team.paired_of_only hcopy, Bool.false_eq_true, false_and, if_false]
  case seals =>
    rw [if_neg (bne_iff_ne.1 hp), byTeam_of_find ht]
    rfl
  case sealed => exact if_pos (eq_of_beq hp)

theorem cwait_holds (d : BitVec 8) (k : BitVec 1) (b : BitVec 4) : AllHold (.cwait d k b) (cwaitClaims d k b) := by
  simp only [cwaitClaims, ← odd_eq_ne]
  refine List.forall_mem_cons.2 ⟨claim_holds_done _ (fun _ => rfl) fun s c g run hg hm => ?goes,
    List.forall_mem_cons.2 ⟨does_again_holds _ (fun _ => rfl) fun s c g run hg hm => ?again,
    List.forall_mem_cons.2 ⟨claim_holds_waits _ (fun _ => rfl) fun s c g run hg hm => ?waits,
    List.forall_mem_singleton.2 (claim_holds_fault _ (fun _ => rfl) fun s c g run hg hm => ?checked)⟩⟩⟩
  all_goals
    obtain ⟨t, ht, hcopy, hp⟩ := exists_team_of_soloTeam hm
    simp only [ht, Team.paired_of_only hcopy, Bool.false_eq_true, false_and, if_false]
  case waits => exact if_pos ⟨by simp [hcopy], by simpa using hp⟩
  case goes | again =>
    obtain ⟨hover, hcode⟩ := Bool.and_eq_true_iff.1 hp
    rw [if_neg fun h => bne_iff_ne.1 hover h.2, withChannel_of_only _ _ _ ht hcopy]
    exact if_neg (by simpa [imp_iff_not_or] using hcode)
  case checked =>
    obtain ⟨hp, hcode⟩ := Bool.and_eq_true_iff.1 hp
    obtain ⟨hover, hk⟩ := Bool.and_eq_true_iff.1 hp
    rw [if_neg fun h => bne_iff_ne.1 hover h.2, withChannel_of_only _ _ _ ht hcopy]
    exact if_pos ⟨eq_of_beq hk, bne_iff_ne.1 hcode⟩

theorem cstat_holds (d : BitVec 8) (b : BitVec 4) : AllHold (.cstat d b) (cstatClaims d b) := by
  simp only [cstatClaims, ← odd_eq_ne]
  refine List.forall_mem_singleton.2 (claim_holds_done _ (fun _ => rfl) fun s c g run hg hm => ?_)
  obtain ⟨t, ht, hcopy, -⟩ := exists_team_of_soloTeam hm
  simp only [ht, Team.paired_of_only hcopy, Bool.false_eq_true, false_and, if_false, withChannel_of_only _ _ _ ht hcopy, returns,
    byTeam_of_find ht]
  rfl

/-- Settles O15: a data instruction of a team of one copy without an open level faults, waits or queues its copy as its checks and the
engine's queue say, and CSEAL, CWAIT and CSTAT go by the state of their batch. -/
theorem copyWordsQueueTheirCopies : Obligations.CopyWordsQueueTheirCopies :=
  ⟨fun _ => copyWord_holds fun _ => rfl, fun _ => copyWord_holds fun _ => rfl, fun _ => copyWord_holds fun _ => rfl,
    fun _ => copyWord_holds fun _ => rfl, fun _ => copyWord_holds fun _ => rfl, fun _ => copyWord_holds fun _ => rfl,
    fun _ => copyWord_holds fun _ => rfl, fun _ _ => copyWord_holds fun _ => rfl, cseal_holds, cwait_holds, cstat_holds⟩

end Sys2Proof.Machine
end

section
/-! SUPPORT. WEXPORT and WREVOKE (R338, R340): the operands that may define a window, and the window that a handle names. -/

namespace Sys2Proof.Machine

theorem wexport_holds (d a : BitVec 8) : AllHold (.wexport d a) (wexportClaims d a) := by
  simp only [wexportClaims, ← bne_zero_eq]
  refine List.forall_mem_cons.2 ⟨claim_holds_done _ (fun _ => rfl) fun s c g run hg hm => ?defines,
    List.forall_mem_cons.2 ⟨claim_holds_done _ (fun _ => rfl) fun s c g run hg hm => ?full,
    List.forall_mem_singleton.2 (claim_holds_fault _ (fun _ => rfl) fun s c g run hg hm => ?bad)⟩⟩
  case bad => exact if_pos (by simpa [or_assoc] using hm)
  all_goals
    obtain ⟨hgood, hfree⟩ := Bool.and_eq_true_iff.1 hm
    refine (if_neg (by simpa [and_assoc, Nat.one_le_iff_ne_zero] using hgood)).trans ?_
  case defines =>
    obtain ⟨i, hi⟩ := Option.isSome_iff_exists.1 hfree
    simp only [hi, Option.getD_some]
    cases s.fabric.windows.find i <;> rfl
  case full =>
    simp only [Option.isNone_iff_eq_none.1 hfree]
    rfl

theorem wrevoke_holds (a : BitVec 8) : AllHold (.wrevoke a) (wrevokeClaims a) := by
  refine List.forall_mem_cons.2 ⟨claim_holds_done _ (fun _ => rfl) fun s c g run hg hm => ?closes,
    List.forall_mem_singleton.2 (claim_holds_fault _ (fun _ => rfl) fun s c g run hg hm => ?bad)⟩
  all_goals
    dsimp only at hm ⊢
    cases hw : s.fabric.windows.find (natBits (g.rf.S a.toNat).toNat 0 10)
  case closes.some x =>
    simp only [hw, Option.any_some, Bool.and_eq_true, decide_eq_true_eq, beq_iff_eq] at hm
    obtain ⟨hlow, hvalid, hgen⟩ := hm
    exact if_neg (not_or.2 ⟨Nat.not_le.2 hlow, by simp [hvalid, hgen]⟩)
  case closes.none => simp [hw] at hm
  case bad.none => rfl
  case bad.some x => exact if_pos (by simpa [hw, imp_iff_not_or] using hm)

/-- Settles O18: good operands define the lowest window that is free or report that there is none, a handle of an open window closes it,
and every other operand is a fault. -/
theorem windowsAreExportedAndRevoked : Obligations.WindowsAreExportedAndRevoked := ⟨wexport_holds, wrevoke_holds⟩

end Sys2Proof.Machine
end

section
/-! SUPPORT. The steps of copies (R322 to R326, R339): a copy starts, moves on, raises its sync word, finishes, or is given up. -/

namespace Sys2Proof.Machine

variable {s : State} {k : Copy} {t : Team}

/-- A step about the copy that its subject names does what its claim says when its effect on that copy is the claim's. -/
theorem copyStep_holds {i : Instr} {p : Copy → Subject → State → Bool} {x : Copy → Subject → State → State}
    (f : Subject → State → State) (he : ∀ s, exec i s = onEvent f s)
    (ho : ∀ e s k, s.copies.find e.a = some k → p k e s = true → f e s = x k e s) : (copyStep p x).Holds i := by
  refine Event.holds_of f he fun e s hdue => ?_
  obtain ⟨k, hk, hp⟩ := (Option.any_eq_true _ _).1 hdue
  rw [ho e s k hk hp]
  simp only [copyStep, hk]

/-! ## COPY_TRANSFER (R322, R323) -/

theorem copyTransfer_takes : AllTake .copyTransfer copyTransferClaims := by
  refine List.forall_mem_cons.2 ⟨copyStep_holds _ (fun s => (rfl : execCopyTransfer s = _)) fun e s k hk hdue => ?starts,
    List.forall_mem_cons.2 ⟨copyStep_holds _ (fun s => (rfl : execCopyTransfer s = _)) fun e s k hk hdue => ?moves,
    List.forall_mem_cons.2 ⟨copyStep_holds _ (fun s => (rfl : execCopyTransfer s = _)) fun e s k hk hdue => ?sends,
    List.forall_mem_singleton.2 (copyStep_holds _ (fun s => (rfl : execCopyTransfer s = _)) fun e s k hk hdue => ?stands)⟩⟩⟩
  all_goals
    simp only [hk]
  case stands =>
    by_cases hhere : copyHere s k = true
    case neg =>
      refine if_pos ?_
      unfold copyHere at hhere
      cases ht : s.teams.find k.team <;> simp_all
    case pos =>
      rw [hhere] at hdue
      refine (if_neg ?_).trans ?_
      · unfold copyHere at hhere
        cases ht : s.teams.find k.team <;> simp_all
      cases hphase : k.phase with
      | queued => exact if_neg (by simpa [hphase] using hdue)
      | active => exact if_pos (by simpa [hphase] using hdue)
      | _ => rfl
  all_goals
    simp only [Bool.and_eq_true, Bool.not_eq_true', beq_iff_eq, decide_eq_true_eq, and_assoc] at hdue
    obtain ⟨hhere, hphase, hdue⟩ := hdue
    refine (if_neg ?_).trans ?_
    · unfold copyHere at hhere
      cases ht : s.teams.find k.team <;> simp_all
    rw [hphase]
  case starts => exact if_pos hdue
  all_goals
    obtain ⟨htodo, hstores, hfn⟩ := hdue
    rw [htodo, hstores]
  case moves => exact if_neg (Nat.not_le.2 hfn)
  case sends => exact if_pos hfn

/-! ## SYNC_WORD_RAISE (R64, R65, R326) -/

/-- A sync word in an attached slot can be raised. -/
theorem raiseAt_of_attached {team off b : Nat} (ht : s.teams.find team = some t) (hslot : t.slot (off / 32768) = .attached b) (n : Nat)
    (err : Option Nat) : (raiseAt s team off n err).1 = true := by
  simp only [raiseAt, ht, hslot]

/-- A copy that has something left to move, or a write of its own under way, as the model asks for it. -/
theorem not_movedAll (s : State) (k : Copy) : (!movedAll s k) =
    (!k.todo.isEmpty || !k.parts.isEmpty || !(k.phase == .active || k.phase == .remote) ||
      s.links.any (fun l => (l.2.writes ++ l.2.unacked).any (fun w => w.waiter == some k.id))) := by
  simp only [movedAll, Bool.not_and, Bool.not_not]

theorem syncWordRaise_takes : AllTake .syncWordRaise syncWordRaiseClaims := by
  refine List.forall_mem_cons.2 ⟨copyStep_holds _ (fun s => (rfl : execSyncWordRaise s = _)) fun e s k hk hdue => ?raises,
    List.forall_mem_singleton.2 (copyStep_holds _ (fun s => (rfl : execSyncWordRaise s = _)) fun e s k hk hdue => ?stands)⟩
  all_goals
    have hleft := not_movedAll s k
    simp only [Bool.or_assoc] at hleft
    simp only [hk, Bool.or_assoc, ← hleft]
  case stands => exact if_pos (by simpa [Bool.or_assoc] using hdue)
  case raises =>
    obtain ⟨hready, hbank⟩ := Bool.and_eq_true_iff.1 hdue
    obtain ⟨b, hb, hawake⟩ := (Option.any_eq_true _ _).1 hbank
    rw [if_neg (by simpa [and_assoc] using hready)]
    dsimp only at hb
    split at hb
    case h_2 => cases hb
    case h_1 hslot =>
      cases hb
      obtain ⟨t, ht, hat⟩ := Option.map_eq_some_iff.1 hslot
      have hup := raiseAt_of_attached (s := (s.wakeBank k.cluster b).2) (by rw [wakeBank_teams, ht]) hat
      dsimp only
      generalize s.wakeBank k.cluster b = w at hawake hup ⊢
      obtain ⟨awake, y⟩ := w
      cases hawake
      simp only [hup, true_or, if_true]

/-! ## COPY_FINISH, REMOTE_OPERATION_TIMEOUT (R324, R339) -/

theorem copyFinish_takes : AllTake .copyFinish copyFinishClaims := by
  refine List.forall_mem_cons.2 ⟨copyStep_holds _ (fun s => (rfl : execCopyFinish s = _)) fun e s k hk hdue => ?finishes,
    List.forall_mem_singleton.2 (copyStep_holds _ (fun s => (rfl : execCopyFinish s = _)) fun e s k hk hdue => ?stands)⟩
  all_goals
    simp only [hk, Bool.or_right_comm _ (swEn k.words && !k.raised), ← not_movedAll]
  case finishes => exact if_neg (by simpa [or_iff_not_imp_left] using hdue)
  case stands => exact if_pos (by simpa using hdue)

theorem remoteOperationTimeout_takes : AllTake .remoteOperationTimeout remoteOperationTimeoutClaims := by
  refine List.forall_mem_cons.2 ⟨copyStep_holds _ (fun s => (rfl : execRemoteOperationTimeout s = _)) fun e s k hk hdue => ?late,
    List.forall_mem_singleton.2 (copyStep_holds _ (fun s => (rfl : execRemoteOperationTimeout s = _)) fun e s k hk hdue => ?stands)⟩
  all_goals simp only [hk]
  case late => exact if_pos (by simpa [and_assoc] using hdue)
  case stands => exact if_neg (by simpa [imp_iff_not_or, or_assoc] using hdue)

/-- Settles O28: a copy starts where its engine has room, moves a piece or sends a packet where its group's older accesses are over, and raises
its sync word and finishes once it has nothing left to move; a remote operation is given up when it is too old. -/
theorem copiesMoveAndFinish : Obligations.CopiesMoveAndFinish :=
  ⟨copyTransfer_takes, syncWordRaise_takes, copyFinish_takes, remoteOperationTimeout_takes⟩

end Sys2Proof.Machine
end

section
/-! SUPPORT. The fabric port (R331 to R340): requests, answers, retransmission, keys, and frames of the other traffic. -/

namespace Sys2Proof.Machine

/-! ## Packets of one type (R334, R336) -/

section
variable {type : Nat} {f : Packet → State → State} {e : Subject} {s : State} {p : Packet}

theorem onPacket_of_type (he : e.packet = some p) (hp : p.type = type) : onPacket type f e s = f p s := by
  simp only [onPacket, he, if_pos hp]

theorem onPacket_of_other (he : e.packet = some p) (hp : p.type ≠ type) : onPacket type f e s = s := by
  simp only [onPacket, he, if_neg hp]

end

/-- A step on a packet of a type acts on such a packet, and leaves packets of other types alone. -/
theorem packetStep_takes {i : Instr} {type : Nat} {f : Packet → State → State} (he : ∀ s, exec i s = onEvent (onPacket type f) s) :
    AllTake i (packetStep type f) := by
  refine List.forall_mem_cons.2 ⟨Event.holds_of _ he fun e s hdue => ?mine,
    List.forall_mem_singleton.2 (Event.holds_of _ he fun e s hdue => ?other)⟩
  all_goals obtain ⟨p, hpacket, htype⟩ := (Option.any_eq_true _ _).1 hdue
  case mine => simp only [onPacket_of_type hpacket (eq_of_beq htype), hpacket]
  case other => exact onPacket_of_other hpacket (bne_iff_ne.1 htype)

/-- A request reaches the port, or the receiving connections take their turn. -/
theorem requestStep_takes {i : Instr} {type : Nat} (he : ∀ s, exec i s = requestEvent type s) : AllTake i (requestStep type) := by
  refine List.forall_mem_cons.2 ⟨Event.holds_of _ he fun e s hdue => ?arrives,
    List.forall_mem_cons.2 ⟨Event.holds_of _ he fun e s hdue => ?other,
    List.forall_mem_singleton.2 (Event.holds_of _ he fun e s hdue => ?turn)⟩⟩
  case turn => simp only [Option.isNone_iff_eq_none.1 hdue]
  all_goals
    obtain ⟨p, hpacket, htype⟩ := (Option.any_eq_true _ _).1 hdue
    simp only [hpacket]
  case arrives => exact onPacket_of_type hpacket (eq_of_beq htype)
  case other => exact onPacket_of_other hpacket (bne_iff_ne.1 htype)

theorem gftPut_takes : AllTake .gftPut gftPutClaims := requestStep_takes fun _ => rfl
theorem gftGetRequest_takes : AllTake .gftGetRequest gftGetRequestClaims := requestStep_takes fun _ => rfl
theorem gftAtomicRequest_takes : AllTake .gftAtomicRequest gftAtomicRequestClaims := requestStep_takes fun _ => rfl
theorem gftAtomicReply_takes : AllTake .gftAtomicReply gftAtomicReplyClaims := packetStep_takes fun _ => rfl
theorem gftAcknowledgement_takes : AllTake .gftAcknowledgement gftAcknowledgementClaims := packetStep_takes fun _ => rfl
theorem gftRefusal_takes : AllTake .gftRefusal gftRefusalClaims := packetStep_takes fun _ => rfl

/-! ## Retransmission, keys, frames (R332 to R334, R336) -/

/-- A step that acts where it is due and leaves the state alone elsewhere. -/
theorem whenDue_takes {i : Instr} {p : Subject → State → Bool} {x : Subject → State → State} (f : Subject → State → State)
    (he : ∀ s, exec i s = onEvent f s) (hdue : ∀ e s, p e s = true → f e s = x e s) (hidle : ∀ e s, p e s = false → f e s = s) :
    AllTake i (whenDue p x) :=
  List.forall_mem_cons.2 ⟨Event.holds_of f he hdue,
    List.forall_mem_singleton.2 (Event.holds_of f he fun e s h => hidle e s (Bool.not_eq_true' _ ▸ h))⟩

theorem gftRetransmit_takes : AllTake .gftRetransmit gftRetransmitClaims := by
  refine whenDue_takes _ (fun s => (rfl : execGftRetransmit s = _)) (fun e s hdue => ?late) fun e s hdue => ?idle
  case late =>
    obtain ⟨x, hx⟩ := Option.isSome_iff_exists.1 hdue
    simp only [hx]
  case idle =>
    rw [Option.isSome_eq_false_iff, Option.isNone_iff_eq_none] at hdue
    simp only [hdue]

theorem keyEpochInstall_takes : AllTake .keyEpochInstall keyEpochInstallClaims := by
  refine whenDue_takes _ (fun s => (rfl : execKeyEpochInstall s = _)) (fun e s hdue => ?good) fun e s hdue => ?bad
  case good =>
    simp only [Bool.and_eq_true, decide_eq_true_eq, beq_iff_eq] at hdue
    refine (if_neg (by omega)).trans ?_
    cases s.fabric.owners.find e.a <;> rfl
  case bad =>
    simp only [Bool.and_eq_false_iff, decide_eq_false_iff_not, beq_eq_false_iff_ne] at hdue
    exact if_pos (by omega)

/-- A frame that fails MACsec or is too long is no good frame (R332, R333). -/
theorem frame_bad_eq (s : State) (f : Frame) : ((s.fabric.macsec && !f.macsecOk) || decide (9216 < f.length)) =
    !(!(s.fabric.macsec && !f.macsecOk) && decide (f.length ≤ 9216)) := by
  rw [Bool.not_and, Bool.not_not, ← decide_not]
  congr 1
  exact decide_eq_decide.2 Nat.not_le.symm

theorem managementFrame_takes : AllTake .managementFrame managementFrameClaims := by
  refine List.forall_mem_cons.2 ⟨Event.holds_of _ (fun s => (rfl : execManagementFrame s = _)) fun e s hdue => ?management,
    List.forall_mem_cons.2 ⟨Event.holds_of _ (fun s => (rfl : execManagementFrame s = _)) fun e s hdue => ?host,
    List.forall_mem_singleton.2 (Event.holds_of _ (fun s => (rfl : execManagementFrame s = _)) fun e s hdue => ?dropped)⟩⟩
  all_goals
    obtain ⟨f, hf, hdue⟩ := (Option.any_eq_true _ _).1 hdue
    dsimp only at hdue
    simp only [hf, frame_bad_eq]
  case management | host =>
    obtain ⟨hgood, haddr⟩ := Bool.and_eq_true_iff.1 hdue
    rw [hgood, eq_of_beq haddr]
    rfl
  case dropped =>
    obtain hbad | hother := Bool.or_eq_true_iff.1 hdue
    · exact if_pos hbad
    · rw [eq_of_beq hother]
      exact ite_self _

/-! ## GFT_GET_REPLY: a reply whose destination refuses its bytes (R286, R337) -/

/-- A key of owner 0 of the fabric. -/
def edgeKey : OwnerKey := { fowner := 0, key0 := List.replicate 32 0, key1 := [], epoch := 0 }

/-- An RGET of 65,537 bytes to the last 65,536 bytes below 2^55 and the byte behind them, whose address is not canonical (R30). The reply
to its second packet, with that last byte, is outstanding. -/
def edgeCopy : Copy :=
  { id := 0, team := 0, group := 0, ctx := 0, cluster := 0, fn := fnGet, iaddr := 0,
    words := [0, 0, 0xFFFF0000, 0x7FFFFF, 0, 65537] ++ List.replicate 10 0, cpol := 0, batch := none, phase := .remote, todo := [],
    posted := false, banks := [], code := 0, sub := 0, raised := false, level := 0, result := 0, since := 0, parts := [2] }

/-- A packet about the last byte of the RGET, without a tag. -/
def edgePacket (type seq : Nat) (data : List Byte) : Packet :=
  { ver := 1, type := type, owner := 0, sender := 0, seq := seq, raddr := 65536, len := 1, info := 0, opid := 0, data := data, tag := 0,
    macsecOk := true }

/-- The reply, with its tag under the owner's key (R334). -/
def edgeReply : Packet := { edgePacket 3 1 [0] with tag := pktSign (edgePacket 3 1 [0]) edgeKey.key0 }

/-- The reply reaches the port at clock 1. -/
def edgeState : State :=
  { State.reset with
    now := 25
    subject := { packet := some edgeReply }
    vcs := [(0, probeVc)]
    ctxs := [(0, { Ctx.reset with v := true })]
    copies := [(0, edgeCopy)]
    fabric := { State.reset.fabric with
      owners := [(0, edgeKey)]
      conns := [{ Connection.fresh 0 (2 ^ 40) with nextSeq := 3, unacked := [(edgePacket 2 2 [], 0, 0)] }] } }

/-- When each slice bank was last used, after GFT_GET_REPLY; none where it has no next state. -/
def slicesUsedAfterReply (s : State) : Option (Map Nat) :=
  match exec .gftGetReply s with
  | .next u => some u.sliceUse
  | _ => none

/-- Looking for the byte's place reads the context's root table, in slice bank 0. -/
theorem edgeReply_uses_slice : slicesUsedAfterReply edgeState = some [(0, 1)] := by decide +kernel

/-- A claim of the step is due there and leaves the bank unused. -/
theorem edgeReply_claimed_unused :
    ∃ x ∈ gftGetReplyClaims, x.due edgeState.subject edgeState = true ∧ (x.effect edgeState.subject edgeState).sliceUse = [] :=
  ⟨_, List.mem_cons_self, rfl, by decide +kernel⟩

/-- Refutes O29: where the destination refuses a reply's bytes, the copy ends with an error in the state in which the slice banks on the way
to the destination have been used (R286), and the claim of GFT_GET_REPLY ends it in the state before. gftPut_takes to
managementFrame_takes prove the tables of the nine other steps. -/
theorem not_fabricPacketsAreAnswered : ¬ Obligations.FabricPacketsAreAnswered := by
  rintro ⟨-, -, -, hreply, -⟩
  obtain ⟨x, hx, hdue, hunused⟩ := edgeReply_claimed_unused
  have hused := edgeReply_uses_slice
  rw [slicesUsedAfterReply, hreply x hx edgeState hdue] at hused
  exact absurd (hunused.symm.trans (Option.some.inj hused)) (by decide)

end Sys2Proof.Machine
end

section
/-! SUPPORT. The words on queues, stage rings and roles (R357 to R359): the queue and the ring that a word names, and the claims of each word. -/

namespace Sys2Proof.Machine

variable {s : State} {c : Cur} {g : Group} {run : Run} {t : Team}

/-! ## QKICK, LAUNCH and QWAIT (R359) -/

/-- A queue of the issuing context, as the claims and as the model ask for it. -/
theorem ownQueue_eq (s : State) (t : Team) (q : Nat) : ownQueue s t q = contextQueue s t q := by
  unfold ownQueue contextQueue
  cases s.queues.find q with
  | none => rfl
  | some e => simp [Option.filter_some]

theorem devQueue_eq (s : State) (t : Team) (q : Nat) : devQueue s t q = devQueueOf s t q := by
  unfold devQueue devQueueOf
  rw [ownQueue_eq]
  cases contextQueue s t q <;> rfl

/-- A logged word of a team of one copy without an open level faults where the checks against shared state do (R419, R433). -/
theorem onceWord_faults_of_only {x : Once} {fn : Nat} {shared : Team → State → Shared} {f : FaultInfo} {y : State}
    (ht : s.teams.find c.team = some t) (hcopy : t.copy = .only) (hl : t.levels = []) (hlog : x.log = some fn)
    (hfault : shared t (settled c s) = .fault f y) : onceWord c g run x shared s = .fault f y := by
  have hold : (if run.op.isSome then (none, t) else t.replayLog g.id c.addr fn) = (none, t) := by
    simp [Team.replayLog, hl]
  rw [settled_of_find ht] at hfault
  simp [onceWord, ht, hlog, hold, hcopy, slackRoom, hfault]

/-- A condition on a word that a team performs once and that reads nothing at its slices (R419). -/
theorem of_once_reads0 {p : Team → Cur → Group → State → Bool} (h : once reads0 p c g run s = true) :
    ∃ t, s.teams.find c.team = some t ∧ t.copy = .only ∧ t.levels = [] ∧ p t c g (settled c s) = true := by
  obtain ⟨t, ht, hcopy, hp⟩ := exists_team_of_soloTeam h
  simp only [Bool.and_eq_true, List.isEmpty_iff] at hp
  obtain ⟨⟨hlevel, -⟩, hp⟩ := hp
  exact ⟨t, ht, hcopy, hlevel, hp⟩

theorem qkick_holds (a : BitVec 8) : AllHold (.qkick a) (qkickClaims a) := by
  simp only [qkickClaims, ← odd_eq]
  refine List.forall_mem_append.2 ⟨doesOnce_holds _ (fun _ => rfl) fun s c g run t ht hcopy hlevel _ hdev => ?goes,
    List.forall_mem_singleton.2 (claim_holds_fault _ (fun _ => rfl) fun s c g run _ hm => ?refused)⟩
  case goes =>
    refine onceWord_of_only ht hcopy hlevel rfl ?_ (find_settled ht)
    rw [devQueue_eq]
    exact if_neg (by simpa [reads0] using hdev)
  case refused =>
    obtain ⟨t, ht, hcopy, hlevel, hdev⟩ := of_once_reads0 hm
    refine onceWord_faults_of_only ht hcopy hlevel rfl ?_
    rw [devQueue_eq]
    exact if_pos hdev

theorem launch_holds (d a : BitVec 8) : AllHold (.launch d a) (launchClaims d a) := by
  simp only [launchClaims, ← bne_zero_eq]
  refine List.forall_mem_append.2 ⟨doesOnce_holds _ (fun _ => rfl) fun s c g run t ht hcopy hlevel _ hgood => ?goes,
    List.forall_mem_cons.2 ⟨claim_holds_fault _ (fun _ => rfl) fun s c g run _ hm => ?misaligned,
    List.forall_mem_singleton.2 (claim_holds_fault _ (fun _ => rfl) fun s c g run _ hm => ?refused)⟩⟩
  case goes =>
    obtain ⟨halign, hdev⟩ := Bool.and_eq_true_iff.1 hgood
    refine onceWord_of_only ht hcopy hlevel rfl ?_ (find_settled ht)
    rw [devQueue_eq]
    exact (if_neg (not_not.2 (of_decide_eq_true halign))).trans (if_neg (by simpa [reads0] using hdev))
  case misaligned =>
    obtain ⟨t, ht, hcopy, hlevel, halign⟩ := of_once_reads0 hm
    exact onceWord_faults_of_only ht hcopy hlevel rfl (if_pos (bne_iff_ne.1 halign))
  case refused =>
    obtain ⟨t, ht, hcopy, hlevel, hbad⟩ := of_once_reads0 hm
    obtain ⟨halign, hdev⟩ := Bool.and_eq_true_iff.1 hbad
    refine onceWord_faults_of_only ht hcopy hlevel rfl ?_
    rw [devQueue_eq]
    exact (if_neg (not_not.2 (of_decide_eq_true halign))).trans (if_pos hdev)

theorem qwait_holds (a : BitVec 8) : AllHold (.qwait a) (qwaitClaims a) := by
  simp only [qwaitClaims, ← bne_zero_eq]
  refine List.forall_mem_cons.2 ⟨claim_holds_done _ (fun _ => rfl) fun s c g run _ hm => ?goes,
    List.forall_mem_cons.2 ⟨does_again_holds _ (fun _ => rfl) fun s c g run _ hm => ?again,
    List.forall_mem_cons.2 ⟨claim_holds_waits _ (fun _ => rfl) fun s c g run _ hm => ?waits,
    List.forall_mem_singleton.2 (claim_holds_fault _ (fun _ => rfl) fun s c g run _ hm => ?refused)⟩⟩⟩
  all_goals
    obtain ⟨t, ht, hp⟩ := exists_team_of_ofTeam hm
    simp only [ht, ownQueue_eq]
  case refused => simp only [Option.isNone_iff_eq_none.1 hp]; rfl
  all_goals
    obtain ⟨e, he, hcount⟩ := (Option.any_eq_true _ _).1 hp
    simp only [he]
  case goes | again => exact if_pos (of_decide_eq_true hcount)
  case waits => exact if_neg (Nat.not_le.2 (of_decide_eq_true hcount))

/-! ## The stage rings and ROLEQ (R357, R358) -/

/-- What a word on a stage ring does in its team: OPERAND for a ring or stage that is not there (R358). -/
def stageOwn (r k : Nat) (solo : Bool) (own : Cur → Team → Group → Run → Nat → State → Eff) (c : Cur) (g : Group) (run : Run) (s : State) : Eff :=
  match s.teams.find c.team with
  | none => .ok s
  | some t =>
    match t.stages r with
    | none => .fault { code := 0x03, lanes := c.lanes } s
    | some n => if n ≤ k ∨ (solo ∧ g.parted) then .fault { code := 0x03, lanes := c.lanes } s else own c t g run n s

theorem stageWord_eq (u : Uses) (r k : Nat) (solo : Bool) (own : Cur → Team → Group → Run → Nat → State → Eff) (s : State) :
    stageWord u r k solo own s = issue u (stageOwn r k solo own) s := rfl

section
variable {r k n : Nat} {solo : Bool} {own : Cur → Team → Group → Run → Nat → State → Eff}

/-- A stage ring that a word may name: there, with more stages than the word's, and not parted for a word of a whole group. -/
theorem stageOf_eq_some : stageOf t g r k solo = some n ↔ t.stages r = some n ∧ ¬(n ≤ k ∨ (solo = true ∧ g.parted = true)) := by
  rw [stageOf, Team.stages, Option.filter_eq_some_iff]
  simp [not_or, imp_iff_not_or]

theorem stageOwn_of_stage (ht : s.teams.find c.team = some t) (h : stageOf t g r k solo = some n) :
    stageOwn r k solo own c g run s = own c t g run n s := by
  obtain ⟨hring, hroom⟩ := stageOf_eq_some.1 h
  simp only [stageOwn, ht, hring]
  exact if_neg hroom

theorem stageOwn_of_none (ht : s.teams.find c.team = some t) (h : stageOf t g r k solo = none) :
    stageOwn r k solo own c g run s = .fault { code := 0x03, lanes := c.lanes } s := by
  simp only [stageOwn, ht]
  cases hring : t.stages r with
  | none => rfl
  | some n =>
    refine if_pos (Decidable.byContradiction fun hroom => ?_)
    rw [stageOf_eq_some.2 ⟨hring, hroom⟩] at h
    cases h

end

theorem stageinit_holds (r : BitVec 2) (a : BitVec 8) : AllHold (.stageinit r a) (stageinitClaims r a) := by
  refine List.forall_mem_cons.2 ⟨claim_holds_done _ (fun s => (stageWord_eq _ _ _ _ _ s : execStageinit r a s = _)) fun s c g run _ hm => ?sets,
    List.forall_mem_singleton.2 (claim_holds_fault _ (fun s => (stageWord_eq _ _ _ _ _ s : execStageinit r a s = _)) fun s c g run _ hm => ?bad)⟩
  all_goals obtain ⟨t, ht, hp⟩ := exists_team_of_ofTeam hm
  case sets =>
    obtain ⟨n, hn, hlow⟩ := (Option.any_eq_true _ _).1 hp
    rw [stageOwn_of_stage ht hn, byTeam_of_find ht, hn]
    exact if_neg (Nat.not_le.2 (of_decide_eq_true hlow))
  case bad =>
    cases hn : stageOf t g r.toNat 0 true with
    | none => exact stageOwn_of_none ht hn
    | some n =>
      rw [stageOwn_of_stage ht hn]
      exact if_pos (by simpa [hn] using hp)

theorem stagearv_holds (r : BitVec 2) (k : BitVec 3) : AllHold (.stagearv r k) (stagearvClaims r k) := by
  refine List.forall_mem_cons.2 ⟨claim_holds_done _ (fun s => (stageWord_eq _ _ _ _ _ s : execStagearv r k s = _)) fun s c g run _ hm => ?arrives,
    List.forall_mem_singleton.2 (claim_holds_fault _ (fun s => (stageWord_eq _ _ _ _ _ s : execStagearv r k s = _)) fun s c g run _ hm => ?bad)⟩
  all_goals obtain ⟨t, ht, hp⟩ := exists_team_of_ofTeam hm
  case arrives =>
    obtain ⟨n, hn⟩ := Option.isSome_iff_exists.1 hp
    exact stageOwn_of_stage ht hn
  case bad => exact stageOwn_of_none ht (Option.isNone_iff_eq_none.1 hp)

theorem stagewt_holds (r : BitVec 2) (h : BitVec 1) (k : BitVec 3) : AllHold (.stagewt r h k) (stagewtClaims r h k) := by
  refine List.forall_mem_cons.2 ⟨claim_holds_done _ (fun s => (stageWord_eq _ _ _ _ _ s : execStagewt r h k s = _)) fun s c g run _ hm => ?goes,
    List.forall_mem_cons.2 ⟨does_again_holds _ (fun s => (stageWord_eq _ _ _ _ _ s : execStagewt r h k s = _)) fun s c g run _ hm => ?again,
    List.forall_mem_cons.2 ⟨claim_holds_waits _ (fun s => (stageWord_eq _ _ _ _ _ s : execStagewt r h k s = _)) fun s c g run _ hm => ?waits,
    List.forall_mem_singleton.2 (claim_holds_fault _ (fun s => (stageWord_eq _ _ _ _ _ s : execStagewt r h k s = _)) fun s c g run _ hm => ?bad)⟩⟩⟩
  all_goals obtain ⟨t, ht, hp⟩ := exists_team_of_ofTeam hm
  case bad => exact stageOwn_of_none ht (by simpa using hp)
  all_goals
    obtain ⟨hstage, hphase⟩ := Bool.and_eq_true_iff.1 hp
    obtain ⟨n, hn⟩ := Option.isSome_iff_exists.1 hstage
    rw [stageOwn_of_stage ht hn]
  case goes | again => exact if_pos (eq_of_beq hphase)
  case waits => exact if_neg (bne_iff_ne.1 hphase)

theorem roleq_holds (d : BitVec 8) (r : BitVec 2) : AllHold (.roleq d r) (roleqClaims d r) := by
  refine List.forall_mem_singleton.2 (claim_holds_done _ (fun _ => rfl) fun s c g run _ hm => ?_)
  obtain ⟨t, ht, -⟩ := exists_team_of_ofTeam hm
  simp only [ht, returns, byTeam_of_find ht]
  cases (List.range t.ngroups).filter _ <;> rfl

/-- Settles O16: QKICK and LAUNCH go by the issuing context's DEV queue, QWAIT by the count of its queue, the words on stage rings by the
ring and stage that they name, and ROLEQ by the launch's roles. -/
theorem queueAndStageWordsWork : Obligations.QueueAndStageWordsWork :=
  ⟨qkick_holds, launch_holds, qwait_holds, stageinit_holds, stagearv_holds, stagewt_holds, roleq_holds⟩

end Sys2Proof.Machine
end

section
/-! SUPPORT. PREEMPT, CTXSAVE and CTXLOAD (R362 to R365): the claims of the words on a team's handle and on a cluster, but for the saving of
a team. -/

namespace Sys2Proof.Machine

/-! ## Words on a team's handle -/

/-- How a word ends that has done an action. -/
def Action.eff (d : Nat) (c : Cur) (run : Run) : Action → Eff
  | .code n s => .ok (s.longOp c run true (.ret d [n])).2
  | .op body s => .ok (s.longOp c run true body).2
  | .wait s => .stay s

/-- What a word on a handle does in its team (R362). -/
def handleOwn (d a : Nat) (act : Group → Team → State → Action) (c : Cur) (g : Group) (run : Run) (s : State) : Eff :=
  match teamByHandle s (g.rf.S a) with
  | none => .ok (s.longOp c run true (.ret d [1])).2
  | some t => if actionBusy s t.id then .stay s else (act g t s).eff d c run

theorem teamWord_eq (d a regs : Nat) (bad : Bool) (act : Group → Team → State → Action) (s : State) :
    teamWord d a regs bad act s =
      issue { priv := true, sr := [(a, regs)], sw := [(d, 1)], bad := bad, long := some true } (handleOwn d a act) s := by
  refine congrArg (fun own => issue _ own s) (funext fun c => funext fun g => funext fun run => funext fun s => ?_)
  unfold handleOwn
  cases teamByHandle s (g.rf.S a) with
  | none => rfl
  | some t => cases hact : act g t s <;> simp only [hact] <;> rfl

/-- What such a word uses. -/
abbrev handleUses (d a : BitVec 8) (regs : Nat) (bad : Bool) : Uses :=
  { priv := true, sr := [(a.toNat, regs)], sw := [(d.toNat, 1)], bad := bad, long := some true }

section
variable {i : Instr} {d a : BitVec 8} {regs : Nat} {bad : Bool} {act : Group → Team → State → Action} {p : Team → Group → State → Bool}
variable (he : ∀ s, exec i s = teamWord d.toNat a.toNat regs bad act s)
include he

theorem onHandle_hold : AllHold i (onHandle (handleUses d a regs bad) d a) := by
  have he' (s : State) := (he s).trans (teamWord_eq ..)
  refine List.forall_mem_cons.2 ⟨claim_holds_done _ he' fun s c g run _ hm => ?nobody,
    List.forall_mem_singleton.2 (claim_holds_waits _ he' fun s c g run _ hm => ?busy)⟩
  case nobody => simp only [handleOwn, Option.isNone_iff_eq_none.1 hm, answers]
  case busy =>
    obtain ⟨t, ht, hbusy⟩ := (Option.any_eq_true _ _).1 hm
    simp only [handleOwn, ht, hbusy, if_true, noEffect]

/-- A word whose action is over or goes to an engine does what its claim says when its action does. -/
theorem handled_holds {x : Team → Effect} (ho : ∀ s c g run t, p t g s = true → (act g t s).eff d.toNat c run = .ok (x t c g run s)) :
    (does (handleUses d a regs bad) (byHandle a x) (handled a p)).Holds i := by
  refine claim_holds_done _ (fun s => (he s).trans (teamWord_eq ..)) fun s c g run _ hm => ?_
  obtain ⟨t, ht, hm⟩ := (Option.any_eq_true _ _).1 hm
  obtain ⟨hfree, hp⟩ := Bool.and_eq_true_iff.1 hm
  simp only [handleOwn, byHandle, ht, Bool.not_eq_true' _ ▸ hfree, Bool.false_eq_true, if_false, ho s c g run t hp]

/-- A word whose action is a code at once, and leaves the state as it is. -/
theorem handled_answers {n : Nat} (ho : ∀ s g t, p t g s = true → act g t s = .code n s) :
    (does (handleUses d a regs bad) (fun c _ run s => answers d n s c run) (handled a p)).Holds i := by
  refine claim_holds_done _ (fun s => (he s).trans (teamWord_eq ..)) fun s c g run _ hm => ?_
  obtain ⟨t, ht, hm⟩ := (Option.any_eq_true _ _).1 hm
  obtain ⟨hfree, hp⟩ := Bool.and_eq_true_iff.1 hm
  simp only [handleOwn, ht, Bool.not_eq_true' _ ▸ hfree, Bool.false_eq_true, if_false, ho s g t hp, Action.eff, answers]

end

theorem not_resident_iff (t : Team) (s : State) : resident t s = false ↔ t.phase ≠ .resident ∨ terminating s t.id = true := by
  simp [resident, or_iff_not_imp_left]

theorem resident_iff (t : Team) (s : State) : resident t s = true ↔ ¬(t.phase ≠ .resident ∨ terminating s t.id = true) := by
  simp [resident]

theorem preemptSuspend_holds (d a : BitVec 8) : AllHold (.preemptSuspend d a) (preemptSuspendClaims d a) := by
  have he (s : State) : exec (.preemptSuspend d a) s = execPreemptSuspend d a s := rfl
  refine List.forall_mem_append.2 ⟨onHandle_hold he, List.forall_mem_cons.2 ⟨handled_answers he fun s g t hp => ?gone,
    List.forall_mem_cons.2 ⟨handled_answers he fun s g t hp => ?stopped,
    List.forall_mem_singleton.2 (handled_holds he fun s c g run t hp => ?stops)⟩⟩⟩
  case gone => exact if_pos ((not_resident_iff t s).1 (by simpa using hp))
  case stopped =>
    obtain ⟨hin, hsusp⟩ := Bool.and_eq_true_iff.1 hp
    exact (if_neg ((resident_iff t s).1 hin)).trans (if_pos hsusp)
  case stops =>
    obtain ⟨hin, hsusp⟩ := Bool.and_eq_true_iff.1 hp
    rw [if_neg ((resident_iff t s).1 hin), if_neg (by simpa using hsusp)]
    rfl

theorem preemptResume_holds (d a : BitVec 8) : AllHold (.preemptResume d a) (preemptResumeClaims d a) := by
  have he (s : State) : exec (.preemptResume d a) s = execPreemptResume d a s := rfl
  refine List.forall_mem_append.2 ⟨onHandle_hold he, List.forall_mem_cons.2 ⟨handled_answers he fun s g t hp => ?gone,
    List.forall_mem_singleton.2 (handled_holds he fun s c g run t hp => ?goesOn)⟩⟩
  case gone => exact if_pos ((not_resident_iff t s).1 (by simpa using hp))
  case goesOn =>
    rw [if_neg ((resident_iff t s).1 hp)]
    rfl

theorem preemptEvict_holds (d a : BitVec 8) : AllHold (.preemptEvict d a) (preemptEvictClaims d a) := by
  have he (s : State) : exec (.preemptEvict d a) s = execPreemptEvict d a s := rfl
  refine List.forall_mem_append.2 ⟨onHandle_hold he, List.forall_mem_cons.2 ⟨handled_answers he fun s g t hp => ?gone,
    List.forall_mem_singleton.2 (handled_holds he fun s c g run t hp => ?leaves)⟩⟩
  case gone => exact if_pos ((not_resident_iff t s).1 (by simpa using hp))
  case leaves =>
    rw [if_neg ((resident_iff t s).1 hp)]
    rfl

theorem preemptTerminate_holds (d a : BitVec 8) : AllHold (.preemptTerminate d a) (preemptTerminateClaims d a) := by
  have he (s : State) : exec (.preemptTerminate d a) s = execPreemptTerminate d a s := rfl
  refine List.forall_mem_append.2 ⟨onHandle_hold he,
    List.forall_mem_singleton.2 (handled_holds he fun s c g run t _ => ?ends)⟩
  case ends => rfl

theorem preemptSysresume_holds (d a : BitVec 8) : AllHold (.preemptSysresume d a) (preemptSysresumeClaims d a) := by
  have he (s : State) : exec (.preemptSysresume d a) s = execPreemptSysresume d a s := rfl
  refine List.forall_mem_append.2 ⟨onHandle_hold he, List.forall_mem_cons.2 ⟨handled_answers he fun s g t hp => ?gone,
    List.forall_mem_cons.2 ⟨handled_answers he fun s g t hp => ?noGroup,
    List.forall_mem_singleton.2 (handled_holds he fun s c g run t hp => ?goesOn)⟩⟩⟩
  case gone => exact if_pos (by simpa using hp)
  all_goals obtain ⟨hin, hgroup⟩ := Bool.and_eq_true_iff.1 hp
  case noGroup => exact (if_neg (by simpa using hin)).trans (if_pos hgroup)
  case goesOn =>
    obtain ⟨x, hx⟩ := Option.isSome_iff_exists.1 hgroup
    rw [if_neg (by simpa using hin), if_neg (by simp [hx])]
    rfl

/-! ## CTXLOAD -/

theorem paired_iff (t : Team) : t.paired = true ↔ t.copy ≠ .only := by simp [Team.paired]

theorem ctxload_holds (d a : BitVec 8) : AllHold (.ctxload d a) (ctxloadClaims d a) := by
  have he (s : State) : exec (.ctxload d a) s = execCtxload d a s := rfl
  simp only [ctxloadClaims, ← odd_eq, ← paired_iff]
  refine List.forall_mem_append.2 ⟨onHandle_hold he, List.forall_mem_cons.2 ⟨handled_answers he fun s g t hp => ?notGone,
    List.forall_mem_cons.2 ⟨handled_answers he fun s g t hp => ?noPlace,
    List.forall_mem_singleton.2 (handled_holds he fun s c g run t hp => ?goes)⟩⟩⟩
  case notGone =>
    exact if_pos (by simpa [imp_iff_not_or] using hp)
  case noPlace =>
    obtain ⟨hgone, hbad⟩ := Bool.and_eq_true_iff.1 hp
    rw [if_neg (by simpa using hgone)]
    split
    next => rfl
    next hgood =>
      simp only [not_or, Bool.not_eq_true', Bool.not_eq_false, Nat.not_le] at hgood
      obtain ⟨hvalid, hfits, hcluster⟩ := hgood
      simp only [hvalid, hfits, hcluster, decide_true, Bool.true_and, Bool.not_eq_true', Option.isSome_eq_false_iff,
        Option.isNone_iff_eq_none] at hbad
      simp only [hbad]
  case goes =>
    obtain ⟨hp, hplaced⟩ := Bool.and_eq_true_iff.1 hp
    obtain ⟨hgone, hgood⟩ := Bool.and_eq_true_iff.1 hp
    obtain ⟨y, hy⟩ := Option.isSome_iff_exists.1 hplaced
    rw [if_neg (by simpa using hgone), if_neg (by simpa [imp_and, and_assoc] using hgood)]
    simp only [hy, Option.getD_some]
    rfl

/-! ## CTXSAVE but for a suspended team -/

theorem ctxsaveCodes_hold (d a : BitVec 8) : AllHold (.ctxsave d a) ((ctxsaveClaims d a).take 3) := by
  have he (s : State) : exec (.ctxsave d a) s = execCtxsave d a s := rfl
  refine List.forall_mem_append.2 ⟨onHandle_hold he, List.forall_mem_singleton.2 (handled_answers he fun s g t hp => ?refuses)⟩
  case refuses =>
    refine if_pos ?_
    simpa [resident, imp_iff_not_or, or_assoc, or_comm, or_left_comm] using hp

/-! ## Words on a cluster -/

section
variable {i : Instr} {d a : BitVec 8} {act : Nat → Cluster → State → Action}

/-- What a word on a cluster does (R362). -/
def clusterOwn (d a : Nat) (act : Nat → Cluster → State → Action) (c : Cur) (g : Group) (run : Run) (s : State) : Eff :=
  let k := (g.rf.S a).toNat
  if 224 ≤ k then .ok (s.longOp c run true (.ret d [1])).2 else (act k (s.cluster k) s).eff d c run

theorem clusterWord_eq (d a : Nat) (act : Nat → Cluster → State → Action) (s : State) :
    clusterWord d a act s = issue { priv := true, sr := [(a, 1)], sw := [(d, 1)], long := some true } (clusterOwn d a act) s := by
  refine congrArg (fun own => issue _ own s) (funext fun c => funext fun g => funext fun run => funext fun s => ?_)
  refine if_congr Iff.rfl rfl ?_
  cases act (g.rf.S a).toNat (s.cluster (g.rf.S a).toNat) s <;> rfl

variable (he : ∀ s, exec i s = clusterWord d.toNat a.toNat act s)
include he

theorem noCluster_holds :
    (does (handleUses d a 1 false) (fun c _ run s => answers d 1 s c run) (fun _ g _ _ => decide (224 ≤ clusterOf g a))).Holds i :=
  claim_holds_done _ (fun s => (he s).trans (clusterWord_eq ..)) fun _ _ _ _ _ hm => if_pos (of_decide_eq_true hm)

theorem cluster_holds {x : Effect} {p : When} (hk : ∀ s c g run, p c g run s = true → clusterOf g a < 224)
    (ho : ∀ s c g run, p c g run s = true → (act (clusterOf g a) (s.cluster (clusterOf g a)) s).eff d.toNat c run = .ok (x c g run s)) :
    (does (handleUses d a 1 false) x p).Holds i :=
  claim_holds_done _ (fun s => (he s).trans (clusterWord_eq ..)) fun s c g run _ hm =>
    (if_neg (Nat.not_le.2 (hk s c g run hm))).trans (ho s c g run hm)

end

theorem preemptCldrain_holds (d a : BitVec 8) : AllHold (.preemptCldrain d a) (preemptCldrainClaims d a) := by
  have he (s : State) : exec (.preemptCldrain d a) s = execPreemptCldrain d a s := rfl
  refine List.forall_mem_cons.2 ⟨noCluster_holds he, List.forall_mem_cons.2 ⟨cluster_holds he (fun s c g run hp => ?_)
    fun s c g run hp => ?shut, List.forall_mem_singleton.2 (cluster_holds he (fun s c g run hp => ?_) fun s c g run hp => ?drains)⟩⟩
  all_goals obtain ⟨hk, hshut⟩ := Bool.and_eq_true_iff.1 hp
  case shut =>
    rw [if_pos (by simpa using hshut)]
    rfl
  case drains =>
    rw [if_neg (by simpa using hshut)]
    rfl
  all_goals exact of_decide_eq_true hk

theorem preemptClopen_holds (d a : BitVec 8) : AllHold (.preemptClopen d a) (preemptClopenClaims d a) := by
  have he (s : State) : exec (.preemptClopen d a) s = execPreemptClopen d a s := rfl
  refine List.forall_mem_cons.2 ⟨noCluster_holds he, List.forall_mem_singleton.2
    (cluster_holds he (fun _ _ _ _ hp => of_decide_eq_true hp) fun s c g run _ => ?opens)⟩
  case opens => rfl

theorem preemptCloff_holds (d a : BitVec 8) : AllHold (.preemptCloff d a) (preemptCloffClaims d a) := by
  have he (s : State) : exec (.preemptCloff d a) s = execPreemptCloff d a s := rfl
  refine List.forall_mem_cons.2 ⟨noCluster_holds he, List.forall_mem_singleton.2
    (cluster_holds he (fun _ _ _ _ hp => of_decide_eq_true hp) fun s c g run _ => ?closes)⟩
  case closes => rfl

end Sys2Proof.Machine
end

section
/-! SUPPORT. CTXSAVE of a suspended team with a bank in retention (R267, R365). -/

namespace Sys2Proof.Machine

/-! ## The save area of a context without page tables -/

section
variable {s : State} (t : Team)

/-- Without a virtual cache no address translates (R239). -/
theorem walk_of_no_vc (h : s.vcs = []) (ctx : Nat) (va : DWord) (need : Need) : ∃ code sub, walk s ctx va need = .fault code sub := by
  have hnone : (s.vcs.find (s.ctx ctx).phvc).isNone = true := by rw [h]; rfl
  unfold walk
  simp only [hnone, if_true]
  split
  · exact ⟨_, _, rfl⟩
  · split <;> exact ⟨_, _, rfl⟩

theorem engineLeaf_of_no_vc (h : s.vcs = []) (ctx : Nat) (va : DWord) (need : Need) :
    ∃ code sub, engineLeaf s .nowhere ctx va need = (some (.fault code sub), s) := by
  obtain ⟨code, sub, hwalk⟩ := walk_of_no_vc h ctx va need
  have hwake : s.wakeWalk ctx va = (true, s) := if_pos (by rw [h]; rfl)
  refine ⟨code, sub, ?_⟩
  simp [engineLeaf, State.engineTlb, hwake, hwalk]

theorem saveChunk_of_no_vc (h : s.vcs = []) (va : Nat) (bs : List Byte) : saveChunk s t va bs = s := by
  obtain ⟨code, sub, hleaf⟩ := engineLeaf_of_no_vc h t.ctx (BitVec.ofNat 64 va) .store
  have hbad : writeGlobal s t.id 0 t.ctx (BitVec.ofNat 64 va) bs 0 = .bad code (if code = 0x12 then 0 else 1) := by
    simp only [writeGlobal, withLeaf, hleaf]
  rw [saveChunk, hbad]

theorem saveFree_of_no_vc (h : s.vcs = []) (first i n : Nat) : saveFree t first i n s = s := by
  induction n generalizing i with
  | zero => rfl
  | succ n ih => rw [saveFree, saveChunk_of_no_vc t h, ih]

theorem saveBank_of_no_vc (h : s.vcs = []) (slot : Nat) (mem : List Host.Cell) : saveBank s t slot mem = s := by
  unfold saveBank
  induction List.range 512 with
  | nil => rfl
  | cons i is ih => rw [List.foldl_cons, saveChunk_of_no_vc t h, ih]

theorem correctBank_vcs (s : State) (pool b o n : Nat) : (s.correctBank pool b o n).vcs = s.vcs := by
  unfold State.correctBank
  extract_lets
  split <;> rfl

/-- Reading the banks may correct them, and no team changes. -/
theorem writeSave_teams_of_no_vc (h : s.vcs = []) : (writeSave s t).teams = s.teams := by
  have hfold (l : List (Nat × Nat)) : ∀ s : State, s.vcs = [] → (l.foldl (fun (s : State) x =>
      saveBank (s.correctBank t.pool x.2 0 32768) t x.1 ((s.cluster t.pool).bank x.2).mem) s).teams = s.teams := by
    induction l with
    | nil => exact fun _ _ => rfl
    | cons x l ih =>
      intro s hs
      have hvcs : (s.correctBank t.pool x.2 0 32768).vcs = [] := (correctBank_vcs ..).trans hs
      rw [List.foldl_cons, saveBank_of_no_vc t hvcs, ih _ hvcs, correctBank_teams]
  have hfree := saveFree_of_no_vc t (s := { s with freeCtr := s.freeCtr + t.bankArea }) h s.freeCtr 0 (t.bankArea / 64)
  unfold writeSave
  extract_lets first s'
  rw [show s' = { s with freeCtr := s.freeCtr + t.bankArea } from hfree]
  exact hfold _ _ h

end

/-! ## The state -/

/-- CTXSAVE of the team whose handle S(8) holds, with its code to S(4). -/
def saveWord : Instr := .ctxsave 4 8

/-- A group of a command core in a run of that word. -/
def saveGroup : Group := probeGroup [encodeWord saveWord] 0 true

/-- The run that the group is in. -/
def saveRun : Run := { exitRun with words := [encodeWord saveWord] }

/-- The gang of the run. -/
def saveGang : Gang := { exitGang with run := some saveRun }

/-- The word as it issues. -/
def saveIssuer : Cur := { exitIssuer with word := encodeWord saveWord }

/-- A suspended team on core 8 with handle 0, which S(8) holds, and with bank 0 of its cluster. -/
def sleepingTeam : Team :=
  { probeTeam saveGroup with id := 1, command := false, core := 8, suspended := true, slots := [.attached 0] }

/-- The word about to issue; the team's bank is in retention. -/
def sleepingBank : State :=
  let s : State := { State.reset with teams := [(0, probeTeam saveGroup), (1, sleepingTeam)], cur := some saveIssuer }
  s.onBank sleepingTeam.pool 0 (fun b => { b with ret := .retained })

/-! ## What CTXSAVE does and what its claim says -/

/-- The claim of CTXSAVE for a suspended team. -/
def saveClaim : Claim := (ctxsaveClaims 4 8)[3]

theorem saveClaim_applies : saveClaim.Applies sleepingBank saveIssuer saveGroup saveGang saveRun where
  starts := ⟨⟨rfl, by decide +kernel, by decide +kernel, rfl⟩, rfl, rfl, by decide +kernel, by decide +kernel, by decide +kernel⟩
  meant := by decide +kernel

theorem Map.put_ne_nil {α : Type} (m : Map α) (i : Nat) (x : α) : m.put i x ≠ [] := by
  intro h
  have hfind := Map.find_put_self m i x
  rw [h] at hfind
  cases hfind

section
variable {s y : State} {c : Cur} {g : Group} {k : Gang} {run : Run} {t : Team}

/-- The claim saves the named team, whatever its banks do. -/
theorem saveClaim_effect (hnamed : teamByHandle s (g.rf.S (8 : BitVec 8).toNat) = some t) (hpair : s.pairOf t.id = [t.id])
    (hfind : s.teams.find t.id = some t) : saveClaim.effect c g run s = answers 4 0 (writeSave s t) c run := by
  simp only [saveClaim, ctxsaveClaims, onHandle, does, List.cons_append, List.nil_append, List.getElem_cons_succ, List.getElem_cons_zero,
    byHandle, hnamed, hpair, List.foldl_cons, List.foldl_nil, hfind]

/-- A word is on its way in a state with the teams of the one in which it issued. -/
theorem Underway.of_same_teams (h : Issuing s c g k run) (ht : s.teams.find c.team = some t) (hteams : y.teams = s.teams) :
    Underway y y c t g.rf g.fifo k.wait run.off :=
  ⟨rfl, fun _ => rfl, ⟨t.groups, hteams ▸ ht⟩, g, (State.curGroup?_congr hteams c).trans h.ofGroup, rfl, rfl, k, run, h.ofGang, rfl,
    h.inRun, rfl⟩

/-- Behind a word that has handed over an operation, one is under way. -/
theorem Underway.ops_ne_nil {n i : Nat} {o : Op} {rf : RegFile} {fifo : List Block} {w : Wait} {off : Nat}
    (h : Underway { s with opCtr := n, ops := s.ops.put i o } y c t rf fifo w off) : y.ops ≠ [] := by
  rw [h.ops_eq]
  exact Map.put_ne_nil _ _ _

end

/-- The claim answers the word with an operation. -/
theorem saveClaim_ops : ∃ y, keepWrites (saveClaim.uses saveIssuer saveGroup saveRun) saveIssuer saveGroup
    (saveClaim.effect saveIssuer saveGroup saveRun sleepingBank) = some y ∧ (wordOver saveIssuer sleepingBank false y).ops ≠ [] := by
  have hmay : MayIssue (saveClaim.uses saveIssuer saveGroup saveRun) sleepingBank saveIssuer saveGroup saveGang saveRun :=
    saveClaim_applies.starts
  have hteam : sleepingBank.teams.find saveIssuer.team = some (probeTeam saveGroup) := by decide +kernel
  have hsaved := Underway.of_same_teams hmay.toIssuing hteam (writeSave_teams_of_no_vc sleepingTeam (by decide +kernel))
  rw [saveClaim_effect (t := sleepingTeam) (by decide +kernel) (by decide +kernel) (by decide +kernel)]
  obtain ⟨hissued, -⟩ := hsaved.newOp (some saveRun.fa) (.ret (4 : BitVec 8).toNat [0]) rfl
  obtain ⟨y, hy, hkept⟩ := hissued.keepWrites (saveClaim.uses saveIssuer saveGroup saveRun) saveGroup rfl
  obtain ⟨z, hover, hz⟩ := hkept.wordOver (s := sleepingBank) (by decide +kernel)
  refine ⟨y, hy, ?_⟩
  rw [hz]
  exact hover.ops_ne_nil

/-- The operations under way after the word; none where it has no next state. -/
def opsAfterSave : Option (Map Op) :=
  match exec saveWord sleepingBank with
  | .next u => some u.ops
  | _ => none

/-- The word waits until the bank is awake, and no operation is under way. -/
theorem opsAfterSave_eq : opsAfterSave = some [] := by decide +kernel

/-- Refutes O17: CTXSAVE waits while a bank of the team that it saves leaves retention (R267), and its claim for a suspended team writes the
save area and answers at once. preemptSuspend_holds to preemptCloff_holds and ctxload_holds prove the tables of the nine other words,
ctxsaveCodes_hold the other claims of CTXSAVE. -/
theorem not_preemptActsOnTeamsAndClusters : ¬ Obligations.PreemptActsOnTeamsAndClusters := by
  rintro ⟨-, -, -, -, -, -, -, -, hsave, -⟩
  obtain ⟨y, hy, hops⟩ := saveClaim_ops
  have hnext := hsave 4 8 saveClaim (List.getElem_mem _) _ _ _ _ _ saveClaim_applies y hy
  have hnone := opsAfterSave_eq
  rw [opsAfterSave, show saveWord = .ctxsave 4 8 from rfl, hnext] at hnone
  exact hops (Option.some.inj hnone)

end Sys2Proof.Machine
end

section
/-! SUPPORT. Writes to one part of device space (R503), the end of a context's destruction (R345), and a kick beside a queue that starts off
its alignment (R347, R348). -/

namespace Sys2Proof.Machine

/-! ## Writes to one part of device space, and the end of a destruction (R345) -/

/-- A write takes effect by the parts that are of the event's kinds. -/
theorem deviceWrite_takes {i : Instr} {ks : List DevKind} (he : ∀ s, exec i s = onEvent (devWriteOf ks) s) : AllTake i (deviceWrite ks) := by
  refine List.forall_mem_cons.2 ⟨Event.holds_of _ he fun e s hdue => ?part, List.forall_mem_cons.2
    ⟨Event.holds_of _ he fun e s hdue => ?otherKind, List.forall_mem_singleton.2 (Event.holds_of _ he fun _ _ _ => rfl)⟩⟩
  all_goals
    obtain ⟨hone, hkind⟩ := Bool.and_eq_true_iff.1 hdue
    obtain ⟨u, hu⟩ := List.length_eq_one_iff.1 (eq_of_beq hone)
    simp only [hu, List.all_cons, List.all_nil, Bool.and_true, Bool.not_eq_true'] at hkind
    simp only [devWriteOf, idleWhen, hu, List.foldl_cons, List.foldl_nil, hkind, Bool.false_eq_true, if_true, if_false]

theorem contextDestructionDone_takes : AllTake .contextDestructionDone contextDestructionDoneClaims := by
  have he (s : State) : exec .contextDestructionDone s = execContextDestructionDone s := rfl
  refine whenDue_takes _ he (fun e s hdue => if_pos ?_) (fun e s hdue => if_neg (Bool.eq_false_iff.1 (Eq.trans ?_ hdue)))
  all_goals simp only [ctxBusy, Bool.not_or, Bool.and_assoc] at hdue ⊢
  exact hdue

/-! ## KICK_WRITE: a kick is looked up by its eight bytes, the claim's by its first byte -/

/-- A queue whose region ends after the first four bytes of `kickedQueue`'s control line. No write defines it: its base is not a multiple
of 64. -/
def strayQueue : Queue := { Queue.reset with v := true, base := 4 }

/-- A queue with its control line at offset 128. -/
def kickedQueue : Queue := { Queue.reset with v := true, base := 128 }

/-- A byte is written to the fifth byte of that line. -/
def strayKick : Subject := { bytes := cellsAt (qmemBase + 132) [0] }

/-- The write arrives where both queues are defined. -/
def strayKickState : State := { State.reset with subject := strayKick, queues := [(0, strayQueue), (1, kickedQueue)] }

/-- The errors that the fabric port counts after KICK_WRITE; none where it has no next state. -/
def errorsAfterKick (s : State) : Option Nat :=
  match exec .kickWrite s with
  | .next u => some u.fabric.errors
  | _ => none

/-- The eight bytes of the write begin in the stray queue's records, so it is no kick. -/
theorem strayKick_counts_no_error : errorsAfterKick strayKickState = some 0 := by decide +kernel

/-- The claim finds the other queue's KICK there, and counts an error. -/
theorem strayKick_claimed_error :
    ∃ x ∈ kickWriteClaims (qmemBase + 132) [0], x.due strayKick strayKickState = true ∧ (x.effect strayKick strayKickState).fabric.errors = 1 :=
  ⟨_, List.mem_cons_of_mem _ List.mem_cons_self, by decide +kernel, by decide +kernel⟩

/-- Refutes O30: a write to device space takes effect by its aligned eight bytes, and the table of KICK_WRITE looks the queue up by the
write's first byte. Beside a queue whose base is not a multiple of 64 the two find different queues: the write of one byte is a write of queue
memory, and the table counts an error.
deviceWrite_takes proves the claims of every step about a write of one part, contextDestructionDone_takes those of the end of a
destruction. -/
theorem not_deviceWritesTakeEffect : ¬ Obligations.DeviceWritesTakeEffect := by
  rintro ⟨hkick, -⟩
  obtain ⟨x, hx, hdue, hclaimed⟩ := strayKick_claimed_error
  have hcounted := strayKick_counts_no_error
  rw [errorsAfterKick, hkick _ _ x hx strayKickState hdue] at hcounted
  exact absurd (hclaimed.symm.trans (Option.some.inj hcounted)) (by decide)

end Sys2Proof.Machine
end

section
/-! SUPPORT. Command records (R347 to R352, R118): the turn of the record at a queue's HEAD, what records of each kind start with, and the
completion of a started record. -/

namespace Sys2Proof.Machine

/-! ## The turn of a record (R350, R351) -/

section
variable {i : Instr} {mine : Nat → Bool} {go : State → Nat → Queue → CmdRecord → State}

/-- What the turn of a queue's next record does, when it is one of the listed kinds. -/
def recordTurned (mine : Nat → Bool) (go : State → Nat → Queue → CmdRecord → State) (e : Subject) (s : State) : State :=
  match s.queues.find e.a with
  | none => s
  | some q =>
    if !mine (headRecord s q).kind || !canStart q (headRecord s q) then s else
    match (headRecord s q).bad with
    | some o => startRecord s e.a (headRecord s q) 0 0 (some (statusWord 0 0 o 1))
    | none =>
      if !statusOk s q.ctx (headRecord s q) then startRecord s e.a { headRecord s q with status := 0 } 0 0 (some (statusWord 0 0 0 6))
      else go s e.a q (headRecord s q)

theorem recordTurn_eq (mine : Nat → Bool) (go : State → Nat → Queue → CmdRecord → State) (s : State) :
    recordTurn mine go s = onEvent (recordTurned mine go) s := rfl

variable {s : State} {e : Subject} {q : Queue}

theorem recordTurned_of_bad {o : Nat} (hq : s.queues.find e.a = some q) (hstart : canStart q (headRecord s q) = true)
    (hmine : mine (headRecord s q).kind = true) (hbad : (headRecord s q).bad = some o) :
    recordTurned mine go e s = startRecord s e.a (headRecord s q) 0 0 (some (statusWord 0 0 o 1)) := by
  simp [recordTurned, hq, hstart, hmine, hbad]

theorem recordTurned_of_no_status (hq : s.queues.find e.a = some q) (hstart : canStart q (headRecord s q) = true)
    (hmine : mine (headRecord s q).kind = true) (hbad : (headRecord s q).bad = none)
    (hstatus : statusOk s q.ctx (headRecord s q) = false) :
    recordTurned mine go e s = startRecord s e.a { headRecord s q with status := 0 } 0 0 (some (statusWord 0 0 0 6)) := by
  simp [recordTurned, hq, hstart, hmine, hbad, hstatus]

/-- A well-formed record of the event's kind, with a status address that can be written, goes on. -/
theorem recordTurned_of_good (hq : s.queues.find e.a = some q) (hstart : canStart q (headRecord s q) = true)
    (hmine : mine (headRecord s q).kind = true) (hgood : goodRecord s q (headRecord s q) = true) :
    recordTurned mine go e s = go s e.a q (headRecord s q) := by
  obtain ⟨hbad, hstatus⟩ := Bool.and_eq_true_iff.1 hgood
  simp [recordTurned, hq, hstart, hmine, Option.isNone_iff_eq_none.1 hbad, hstatus]

theorem recordTurned_of_waiting
    (h : (s.queues.find e.a).all (fun q => !(mine (headRecord s q).kind && canStart q (headRecord s q))) = true) :
    recordTurned mine go e s = s := by
  unfold recordTurned
  cases hq : s.queues.find e.a with
  | none => rfl
  | some q =>
    rw [hq] at h
    exact if_pos (by simpa [imp_iff_not_or] using h)

/-- A step about the record at HEAD does what its claim says when its effect on a record that may start is the claim's. -/
theorem recordStep_holds {p : Queue → CmdRecord → Subject → State → Bool} {x : Queue → CmdRecord → Subject → State → State}
    (f : Subject → State → State) (he : ∀ s, exec i s = onEvent f s)
    (ho : ∀ e s q, s.queues.find e.a = some q → canStart q (headRecord s q) = true → p q (headRecord s q) e s = true →
      f e s = x q (headRecord s q) e s) : (recordStep p x).Holds i := by
  refine Event.holds_of f he fun e s hdue => ?_
  obtain ⟨q, hq, hp⟩ := (Option.any_eq_true _ _).1 hdue
  obtain ⟨hstart, hp⟩ := Bool.and_eq_true_iff.1 hp
  rw [ho e s q hq hstart hp]
  simp only [recordStep, hq]

/-- A step about a good record of one kind. -/
theorem goodStep_holds {kind : Nat} {p : Queue → CmdRecord → Subject → State → Bool} {x : Queue → CmdRecord → Subject → State → State}
    (hmine : mine kind = true) (he : ∀ s, exec i s = recordTurn mine go s)
    (ho : ∀ e s q, p q (headRecord s q) e s = true → go s e.a q (headRecord s q) = x q (headRecord s q) e s) :
    (recordStep (fun q r e s => r.kind == kind && goodRecord s q r && p q r e s) x).Holds i := by
  refine recordStep_holds _ (fun s => (he s).trans (recordTurn_eq ..)) fun e s q hq hstart hp => ?_
  obtain ⟨hgood, hp⟩ := Bool.and_eq_true_iff.1 hp
  obtain ⟨hkind, hgood⟩ := Bool.and_eq_true_iff.1 hgood
  rw [recordTurned_of_good hq hstart (eq_of_beq hkind ▸ hmine) hgood]
  exact ho e s q hp

/-- What every event of a record does beside its own effect. -/
theorem recordCommon_takes (he : ∀ s, exec i s = recordTurn mine go s) : AllTake i (recordCommon mine) := by
  refine List.forall_mem_cons.2 ⟨recordStep_holds _ (fun s => (he s).trans (recordTurn_eq ..)) fun e s q hq hstart hp => ?malformed,
    List.forall_mem_cons.2 ⟨recordStep_holds _ (fun s => (he s).trans (recordTurn_eq ..)) fun e s q hq hstart hp => ?unwritable,
    List.forall_mem_singleton.2 (Event.holds_of _ (fun s => (he s).trans (recordTurn_eq ..)) fun e s => recordTurned_of_waiting)⟩⟩
  case malformed =>
    obtain ⟨hmine, hbad⟩ := Bool.and_eq_true_iff.1 hp
    obtain ⟨o, ho⟩ := Option.isSome_iff_exists.1 hbad
    rw [recordTurned_of_bad hq hstart hmine ho, ho]
    rfl
  case unwritable =>
    obtain ⟨hmine, hstatus⟩ := Bool.and_eq_true_iff.1 hp
    obtain ⟨hmine, hbad⟩ := Bool.and_eq_true_iff.1 hmine
    exact recordTurned_of_no_status hq hstart hmine (Option.isNone_iff_eq_none.1 hbad) (Bool.not_eq_true' _ ▸ hstatus)

end

/-! ## NOP and WAIT records (R350) -/

theorem nopRecord_takes : AllTake .nopRecord nopRecordClaims := by
  refine List.forall_mem_cons.2 ⟨recordStep_holds _ (fun s => (recordTurn_eq .. : execNopRecord s = _)) fun e s q hq hstart hp => ?_,
    recordCommon_takes fun s => (rfl : execNopRecord s = _)⟩
  obtain ⟨hkind, hgood⟩ := Bool.and_eq_true_iff.1 hp
  exact recordTurned_of_good hq hstart (by simp [eq_of_beq hkind]) hgood

theorem waitRecord_takes : AllTake .waitRecord waitRecordClaims := by
  refine List.forall_mem_append.2 ⟨List.forall_mem_cons.2 ⟨recordStep_holds _ (fun s => (recordTurn_eq .. : execWaitRecord s = _))
      fun e s q hq hstart hp => ?waits,
    List.forall_mem_singleton.2 (goodStep_holds rfl (fun s => (rfl : execWaitRecord s = _)) fun e s q hp => if_pos (by simpa [imp_iff_not_or] using hp))⟩,
    recordCommon_takes fun s => (rfl : execWaitRecord s = _)⟩
  simp only [Bool.and_eq_true] at hp
  obtain ⟨⟨⟨hkind, hgood⟩, hdefined⟩, hctx⟩ := hp
  rw [recordTurned_of_good hq hstart hkind hgood]
  exact if_neg (by simp [hdefined, eq_of_beq hctx])

/-! ## LAUNCH records (R350, R352) -/

/-- Bytes that have been read, with the state after the read. -/
theorem of_read_ok {r : Reach} {x : List Byte × State} (h : (match r with | .ok bs s => some (bs, s) | _ => none) = some x) :
    r = .ok x.1 x.2 := by
  cases r with
  | ok bs s => cases h; rfl
  | _ => cases h

theorem launchRecord_takes : AllTake .launchRecord launchRecordClaims := by
  refine List.forall_mem_append.2 ⟨List.forall_mem_cons.2 ⟨goodStep_holds rfl (fun s => (rfl : execLaunchRecord s = _)) fun e s q hp => ?starts,
    List.forall_mem_cons.2 ⟨goodStep_holds rfl (fun s => (rfl : execLaunchRecord s = _)) fun e s q hp => ?faulty,
    List.forall_mem_singleton.2 (goodStep_holds rfl (fun s => (rfl : execLaunchRecord s = _)) fun e s q hp => ?tooLarge)⟩⟩,
    recordCommon_takes fun s => (rfl : execLaunchRecord s = _)⟩
  all_goals
    obtain ⟨⟨bs, s1⟩, hread, hp⟩ := (Option.any_eq_true _ _).1 hp
    have hok := of_read_ok hread
    dsimp only at hok hp ⊢
    simp only [hok]
  case starts =>
    obtain ⟨hp, hfree⟩ := Bool.and_eq_true_iff.1 hp
    obtain ⟨hdesc, hfits⟩ := Bool.and_eq_true_iff.1 hp
    obtain ⟨h, hh⟩ := Option.isSome_iff_exists.1 hfree
    simp only [Option.isNone_iff_eq_none.1 hdesc, hh, Option.getD_some]
    exact if_neg (by simpa using hfits)
  case faulty =>
    obtain ⟨⟨code, detail⟩, hf⟩ := Option.isSome_iff_exists.1 hp
    simp only [hf]
    rfl
  case tooLarge =>
    obtain ⟨hdesc, hfits⟩ := Bool.and_eq_true_iff.1 hp
    simp only [Option.isNone_iff_eq_none.1 hdesc]
    exact if_pos hfits

/-! ## LOAD records (R117, R118, R350) -/

theorem loadRecord_takes : AllTake .loadRecord loadRecordClaims := by
  refine List.forall_mem_append.2 ⟨List.forall_mem_cons.2 ⟨recordStep_holds _ (fun s => (recordTurn_eq .. : execLoadRecord s = _)) fun e s q hq hstart hp => ?loads,
    List.forall_mem_singleton.2 (goodStep_holds rfl (fun s => (rfl : execLoadRecord s = _)) fun e s q hp => if_pos (of_decide_eq_true hp))⟩,
    recordCommon_takes fun s => (rfl : execLoadRecord s = _)⟩
  obtain ⟨hp, himage⟩ := Bool.and_eq_true_iff.1 hp
  obtain ⟨hp, halign⟩ := Bool.and_eq_true_iff.1 hp
  obtain ⟨hkind, hgood⟩ := Bool.and_eq_true_iff.1 hp
  refine (recordTurned_of_good hq hstart hkind hgood).trans ?_
  obtain ⟨⟨img, s1⟩, himage⟩ := Option.isSome_iff_exists.1 himage
  have hok := of_read_ok himage
  dsimp only at hok ⊢
  rw [if_neg (not_not.2 (of_decide_eq_true halign))]
  simp only [hok]
  refine if_congr Iff.rfl rfl ?_
  rcases hkept : s1.images.find? (fun x => x.1 == (Tvf.ofBytes img).hash && x.2.1 == q.ctx) with _ | kept
  all_goals
    simp only [hkept, Option.map_none, Option.map_some, Option.getD_none, Option.getD_some, Option.isSome_none, Option.isSome_some]
    generalize Tvf.native _ _ = code
    rcases code with code | ⟨bytes, count⟩
    case error => rfl
    case ok =>
      refine if_congr Iff.rfl rfl ?_
      cases (globalWriteN (bytes.length / 64 + 2) s1 q.ctx (BitVec.ofNat 64 (headRecord s q).arg1) bytes).1 <;> rfl

/-! ## Completion (R350, R351) -/

theorem commandRecordComplete_takes : AllTake .commandRecordComplete commandRecordCompleteClaims := by
  refine List.forall_mem_cons.2 ⟨Event.holds_of _ (fun s => (rfl : execCommandRecordComplete s = _)) fun e s hdue => ?completes,
    List.forall_mem_singleton.2 (Event.holds_of _ (fun s => (rfl : execCommandRecordComplete s = _)) fun e s hdue => ?waits)⟩
  case completes =>
    obtain ⟨⟨r, w, s1⟩, hdone⟩ := Option.isSome_iff_exists.1 hdue
    simp only [hdone]
    obtain ⟨r', hr, hdone⟩ := Option.bind_eq_some_iff.1 hdone
    obtain ⟨⟨w', s2⟩, hresult, hdone⟩ := Option.bind_eq_some_iff.1 hdone
    obtain ⟨s3, hwrite, hdone⟩ := Option.map_eq_some_iff.1 hdone
    cases hdone
    simp only [hr, hresult, hwrite]
  case waits =>
    have hnone := Option.isNone_iff_eq_none.1 hdue
    dsimp only [idleWhen] at hnone ⊢
    split
    case h_1 => rfl
    case h_2 r hr =>
      simp only [hr, Option.bind_some] at hnone
      split
      case h_1 => rfl
      case h_2 w s2 hresult =>
        simp only [hresult, Option.bind_some, Option.map_eq_none_iff] at hnone
        simp only [hnone]

/-- Settles O31: a record that is malformed or has no status address is refused, any other of its event's kind starts as its rule says, and
a started record completes once its outcome is there and its status word is written. -/
theorem commandRecordsStartAndComplete : Obligations.CommandRecordsStartAndComplete :=
  ⟨nopRecord_takes, waitRecord_takes, launchRecord_takes, loadRecord_takes, commandRecordComplete_takes⟩

end Sys2Proof.Machine
end

section
/-! SUPPORT. The life of teams and groups (R175 to R184, R192, R353, R354, R362, R363, R491 to R494): placement, barriers, sleep, the end of
groups and teams, growth that nobody can get, and the limits. -/

namespace Sys2Proof.Machine

/-! ## Steps about a team or one of its groups -/

section
variable {i : Instr} (f : Subject → State → State)

/-- A step about the team that its subject names does what its claim says when its effect on that team is the claim's. -/
theorem teamStep_holds {p : Team → Subject → State → Bool} {x : Team → Subject → State → State} (he : ∀ s, exec i s = onEvent f s)
    (ho : ∀ e s t, s.teams.find e.a = some t → p t e s = true → f e s = x t e s) : (teamStep p x).Holds i := by
  refine Event.holds_of f he fun e s hdue => ?_
  obtain ⟨t, ht, hp⟩ := (Option.any_eq_true _ _).1 hdue
  rw [ho e s t ht hp]
  simp only [teamStep, ht]

/-- A step that acts on a team where it is due and leaves the state alone where it is not. -/
theorem teamStep_whenDue_takes {p : Team → Subject → State → Bool} {x : Team → Subject → State → State} (he : ∀ s, exec i s = onEvent f s)
    (hdue : ∀ e s t, s.teams.find e.a = some t → p t e s = true → f e s = x t e s)
    (hidle : ∀ e s t, s.teams.find e.a = some t → p t e s = false → f e s = s) :
    AllTake i [teamStep p x, teamStep (fun t e s => !p t e s) (fun _ _ s => s)] :=
  List.forall_mem_cons.2 ⟨teamStep_holds f he hdue, List.forall_mem_singleton.2
    (teamStep_holds f he fun e s t ht h => hidle e s t ht (Bool.not_eq_true' _ ▸ h))⟩

/-- A step about a group of the team that its subject names. -/
theorem groupStep_holds_of_effect {p : Team → Group → Subject → State → Bool} {x : Team → Group → Subject → State → State}
    (he : ∀ s, exec i s = onEvent f s)
    (ho : ∀ e s t g, s.teams.find e.a = some t → s.group? e.a e.b = some g → p t g e s = true → f e s = x t g e s) :
    (groupStep p x).Holds i :=
  groupStep_holds fun s t g ht hg hp => by rw [he, onEvent, ho s.subject s t g ht hg hp]

end

/-! ## TEAM_PLACEMENT (R353, R354) -/

theorem teamPlacement_takes : AllTake .teamPlacement teamPlacementClaims := by
  refine teamStep_whenDue_takes _ (fun s => (rfl : execTeamPlacement s = _)) (fun e s t ht hdue => ?places) fun e s t ht hdue => ?stands
  all_goals
    have hsite : (if t.paired = true then (⟨e.b, [8 * e.b + e.c % 8], [8 * e.b + e.c / 8 % 8]⟩ : Site)
        else if e.flag = true then ⟨e.b, [8 * e.b + e.c % 8 / 2 * 2, 8 * e.b + e.c % 8 / 2 * 2 + 1], []⟩
        else ⟨e.b, [8 * e.b + e.c % 8], []⟩) = siteOf t e := by
      simp [siteOf, Team.paired]
    have hsingle : (t.copy == CopyRole.only) = !t.paired := by simp [Team.paired, bne]
    simp only [hsingle] at hdue
    simp only [ht, hsite]
  case places =>
    obtain ⟨hdue, hplaced⟩ := Bool.and_eq_true_iff.1 hdue
    exact if_neg (by simpa [and_assoc, imp_iff_not_or, or_assoc] using hdue)
  case stands =>
    obtain hdue | hplaced := Bool.and_eq_false_iff.1 hdue
    · exact if_pos (by simpa [imp_iff_not_or, or_assoc] using hdue)
    · rw [Option.isSome_eq_false_iff, Option.isNone_iff_eq_none] at hplaced
      rw [hplaced]
      exact ite_self _

/-! ## The end of a group and of a team (R175) -/

theorem groupRetire_takes : AllTake .groupRetire groupRetireClaims := by
  refine List.forall_mem_cons.2 ⟨groupStep_holds_of_effect _ (fun s => (rfl : execGroupRetire s = _)) fun e s t g ht hg hdue => ?retires,
    List.forall_mem_cons.2 ⟨groupStep_holds_of_effect _ (fun s => (rfl : execGroupRetire s = _)) fun e s t g ht hg hdue => ?late,
    List.forall_mem_singleton.2 (groupStep_holds_of_effect _ (fun s => (rfl : execGroupRetire s = _)) fun e s t g ht hg hdue => ?stands)⟩⟩
  all_goals simp only [ht, hg]
  case stands => exact if_pos hdue
  all_goals
    obtain ⟨hover, hlate⟩ := Bool.and_eq_true_iff.1 hdue
    refine (if_neg (by simp [hover])).trans ?_
  case retires => rw [List.isEmpty_iff.1 hlate]
  case late =>
    cases hl : g.late with
    | nil => simp [hl] at hlate
    | cons r rest => rfl

theorem teamRetire_takes : AllTake .teamRetire teamRetireClaims := by
  refine teamStep_whenDue_takes _ (fun s => (rfl : execTeamRetire s = _)) (fun e s t ht hdue => ?retires) fun e s t ht hdue => ?stands
  all_goals
    have hall : ((s.pairOf t.id).all fun i => match s.teams.find i with | some x => teamOver s x | none => true) =
        (s.pairOf t.id).all fun i => (s.teams.find i).all (teamOver s) := by
      congr 1
      funext i
      cases s.teams.find i <;> rfl
    simp only [ht]
    refine (congrArg (fun b : Bool => if t.copy = .trailing ∨ (!b) = true then s else _) hall).trans ?_
  case retires => exact if_neg (by simpa using hdue)
  case stands => exact if_pos (by simpa [imp_iff_not_or] using hdue)

/-! ## Growth that nobody can get (R184) -/

/-- The groups of a core-half that ask for registers. -/
def growAsking (e : Subject) (s : State) : List (Team × Group) := (halfGroups s e.a e.b).filter (fun x => x.2.asks.isSome)

/-- Nobody of a core-half goes on, and none of its teams is leaving. -/
def growStuck (e : Subject) (s : State) : Bool :=
  (halfGroups s e.a e.b).all (fun x => growBlocked x.1 x.2 && !x.1.suspended && !x.1.command && x.1.fail.isNone) &&
  (growAsking e s).all (fun x => !waitReady s x.1 x.2 (.grow (x.2.asks.getD 0)))

/-- The team that is to leave: of the youngest group beside the oldest one's team, or that team. -/
def growVictim (e : Subject) (s : State) : Option Team :=
  if (growAsking e s).isEmpty then none else (oldestOf (halfGroups s e.a e.b)).map (fun old =>
    ((youngestOf ((halfGroups s e.a e.b).filter (fun x => !(s.pairOf old.1.id).contains x.1.id))).map (·.1)).getD old.1)

/-- A team is asked to leave, and begins to. -/
def evictForGrowth (s : State) (t : Team) : State :=
  (pauseTeam ((s.pairOf t.id).foldl (fun (s : State) i => s.onTeam i (fun t => { t with evictReq := true })) s) t.id).hiddenOp t.id
    (.evict t.id 512 false)

/-- Somebody goes on or leaves, as the model asks for it. -/
theorem not_growStuck (e : Subject) (s : State) : growStuck e s = false ↔
    ((halfGroups s e.a e.b).any (fun x => !growBlocked x.1 x.2) = true ∨
      (growAsking e s).any (fun x => waitReady s x.1 x.2 (.grow (x.2.asks.getD 0))) = true) ∨
    (halfGroups s e.a e.b).any (fun x => x.1.suspended || x.1.command || x.1.fail.isSome) = true := by
  simp only [growStuck, Bool.and_eq_false_iff, List.all_eq_false, List.any_eq_true, Bool.not_eq_true, Bool.not_eq_true', Bool.not_eq_false,
    Bool.not_eq_false', Bool.or_eq_true, Option.isNone_eq_false_iff]
  constructor
  · rintro (⟨x, hx, ((h | h) | h) | h⟩ | ⟨x, hx, h⟩)
    · exact .inl (.inl ⟨x, hx, h⟩)
    · exact .inr ⟨x, hx, .inl (.inl h)⟩
    · exact .inr ⟨x, hx, .inl (.inr h)⟩
    · exact .inr ⟨x, hx, .inr h⟩
    · exact .inl (.inr ⟨x, hx, h⟩)
  · rintro ((⟨x, hx, h⟩ | ⟨x, hx, h⟩) | ⟨x, hx, (h | h) | h⟩)
    · exact .inl ⟨x, hx, .inl (.inl (.inl h))⟩
    · exact .inr ⟨x, hx, h⟩
    · exact .inl ⟨x, hx, .inl (.inl (.inr h))⟩
    · exact .inl ⟨x, hx, .inl (.inr h)⟩
    · exact .inl ⟨x, hx, .inr h⟩

theorem growVictim_of_none_asking {e : Subject} {s : State} (h : (growAsking e s).isEmpty = true) : growVictim e s = none := if_pos h

theorem exec_growDeadlockEviction (s : State) : exec .growDeadlockEviction s = onEvent (fun e s =>
    if growStuck e s then (match growVictim e s with | some t => evictForGrowth s t | none => s) else s) s := by
  refine (congrArg (onEvent · s) ?_ : execGrowDeadlockEviction s = _)
  funext e s
  dsimp only
  by_cases hask : (growAsking e s).isEmpty = true
  · rw [growVictim_of_none_asking hask]
    exact (if_pos (.inl (Bool.or_eq_true_iff.2 (.inl (Bool.or_eq_true_iff.2 (.inl hask)))))).trans (ite_self _).symm
  by_cases hstuck : growStuck e s = true
  · have hgone := mt (not_growStuck e s).2 (ne_false_of_eq_true hstuck)
    rw [if_pos hstuck, growVictim, if_neg hask]
    refine (if_neg ?_).trans ?_
    · rintro (h | h)
      · obtain h | h := Bool.or_eq_true_iff.1 h
        · obtain h | h := Bool.or_eq_true_iff.1 h
          · exact hask h
          · exact hgone (.inl (.inl h))
        · exact hgone (.inl (.inr h))
      · exact hgone (.inr h)
    cases oldestOf (halfGroups s e.a e.b) with
    | none => rfl
    | some old =>
      dsimp only [Option.map_some]
      cases youngestOf _ <;> rfl
  · rw [if_neg hstuck]
    obtain (h | h) | h := (not_growStuck e s).1 (Bool.eq_false_iff.2 hstuck)
    · exact if_pos (.inl (Bool.or_eq_true_iff.2 (.inl (Bool.or_eq_true_iff.2 (.inr h)))))
    · exact if_pos (.inl (Bool.or_eq_true_iff.2 (.inr h)))
    · exact if_pos (.inr h)

theorem growDeadlockEviction_takes : AllTake .growDeadlockEviction growDeadlockEvictionClaims := by
  refine List.forall_mem_cons.2 ⟨Event.holds_of _ exec_growDeadlockEviction fun e s hdue => ?evicts,
    List.forall_mem_singleton.2 (Event.holds_of _ exec_growDeadlockEviction fun e s hdue => ?stands)⟩
  case evicts =>
    obtain ⟨hstuck, -⟩ := Bool.and_eq_true_iff.1 hdue
    exact if_pos hstuck
  case stands =>
    have hdue : (!(growStuck e s && (growVictim e s).isSome)) = true := hdue
    by_cases hstuck : growStuck e s = true
    · have hnone : growVictim e s = none := by simpa [hstuck] using hdue
      rw [hnone]
      exact ite_self _
    · exact if_neg hstuck

/-! ## Sleep (R180) -/

/-- The gang that the subject names, where its sleep is over. -/
def sleepOver (t : Team) (g : Group) (e : Subject) (s : State) : Option (Gang × Nat) :=
  match g.gang? e.c with
  | some k => (match k.wait with
    | .sleep n => if t.phase = .resident ∧ (if t.suspended then catchesUp s t g && decide (t.suspendedAt + n ≤ s.clock)
        else decide (n ≤ s.clock)) = true then some (k, n) else none
    | _ => none)
  | none => none

/-- What SLEEP_EXPIRY does about a group. -/
def wakeSleeper (t : Team) (g : Group) (e : Subject) (s : State) : State :=
  match sleepOver t g e s with
  | some (k, _) => s.finishWord t.id g.id k.id
  | none => s

theorem exec_sleepExpiry (s : State) : exec .sleepExpiry s = onEvent (fun e s =>
    match s.teams.find e.a, s.group? e.a e.b with
    | some t, some g => wakeSleeper t g e s
    | _, _ => s) s := by
  refine (congrArg (onEvent · s) ?_ : execSleepExpiry s = _)
  funext e s
  cases s.teams.find e.a with
  | none => rfl
  | some t =>
  cases s.group? e.a e.b with
  | none => rfl
  | some g =>
  simp only [wakeSleeper, sleepOver]
  cases g.gang? e.c with
  | none => rfl
  | some k =>
  dsimp only
  cases k.wait with
  | sleep n =>
    dsimp only
    by_cases hover : t.phase = .resident ∧ (if t.suspended then catchesUp s t g && decide (t.suspendedAt + n ≤ s.clock)
        else decide (n ≤ s.clock)) = true
    · rw [if_pos hover, if_pos hover]
    · rw [if_neg hover, if_neg hover]
  | _ => rfl

theorem sleepExpiry_takes : AllTake .sleepExpiry sleepExpiryClaims := by
  refine List.forall_mem_cons.2 ⟨groupStep_holds_of_effect _ exec_sleepExpiry fun e s t g ht hg _ => ?wakes,
    List.forall_mem_singleton.2 (groupStep_holds_of_effect _ exec_sleepExpiry fun e s t g ht hg hdue => ?sleeps)⟩
  all_goals simp only [ht, hg]
  case wakes => rfl
  case sleeps =>
    have hnone : sleepOver t g e s = none := Option.isNone_iff_eq_none.1 hdue
    simp only [wakeSleeper, hnone]

/-! ## Limits (R192, R362, R363, R493, R494) -/

theorem groupWatchdogExpiry_takes : AllTake .groupWatchdogExpiry groupWatchdogExpiryClaims := by
  refine List.forall_mem_cons.2 ⟨groupStep_holds_of_effect _ (fun s => (rfl : execGroupWatchdogExpiry s = _)) fun e s t g ht hg hdue => ?command,
    List.forall_mem_cons.2 ⟨groupStep_holds_of_effect _ (fun s => (rfl : execGroupWatchdogExpiry s = _)) fun e s t g ht hg hdue => ?user,
    List.forall_mem_singleton.2 (groupStep_holds_of_effect _ (fun s => (rfl : execGroupWatchdogExpiry s = _)) fun e s t g ht hg hdue => ?stands)⟩⟩
  all_goals
    simp only [ht, hg]
    cases hk : g.gangs
  case command.nil | user.nil => simp [hk] at hdue
  case stands.nil => exact ite_self _
  case stands.cons k ks =>
    refine if_pos ?_
    simpa [hk, imp_iff_not_or, or_assoc] using hdue
  all_goals
    obtain ⟨hdue, hcommand⟩ := Bool.and_eq_true_iff.1 hdue
    refine (if_neg (by simpa [hk, and_assoc] using hdue)).trans ?_
  case command.cons k ks => exact if_pos hcommand
  case user.cons k ks => exact if_neg (by simpa using hcommand)

theorem clusterWatchdogFire_takes : AllTake .clusterWatchdogFire clusterWatchdogFireClaims := by
  refine whenDue_takes _ (fun s => (rfl : execClusterWatchdogFire s = _)) (fun e s hdue => ?fires) fun e s hdue => ?idle
  case fires => exact if_neg (by simpa [and_assoc] using hdue)
  case idle => exact if_pos (by simpa [imp_iff_not_or, or_assoc] using hdue)

theorem commandCoreWatchdogExpiry_takes : AllTake .commandCoreWatchdogExpiry commandCoreWatchdogExpiryClaims := by
  refine List.forall_mem_cons.2 ⟨Event.holds_of _ (fun s => (rfl : execCommandCoreWatchdogExpiry s = _)) fun e s hdue => ?starts,
    List.forall_mem_cons.2 ⟨Event.holds_of _ (fun s => (rfl : execCommandCoreWatchdogExpiry s = _)) fun e s hdue => ?resets,
    List.forall_mem_singleton.2 (Event.holds_of _ (fun s => (rfl : execCommandCoreWatchdogExpiry s = _)) fun e s hdue => ?idle)⟩⟩
  case idle =>
    dsimp only
    cases hn : s.mgmt.ccount.find e.a with
    | none => rfl
    | some n => exact if_pos (by simpa [idleWhen, hn, imp_iff_not_or] using hdue)
  all_goals
    obtain ⟨hdue, hmarigold⟩ := Bool.and_eq_true_iff.1 hdue
    obtain ⟨hlimit, hlate⟩ := Bool.and_eq_true_iff.1 hdue
    obtain ⟨n, hn, hlate⟩ := (Option.any_eq_true _ _).1 hlate
    simp only [hn]
    refine (if_neg (by simpa using ⟨bne_iff_ne.1 hlimit, of_decide_eq_true hlate⟩)).trans ?_
  case starts =>
    obtain ⟨m, hm⟩ := Option.isSome_iff_exists.1 hmarigold
    dsimp only at hm ⊢
    rw [hm]
  case resets =>
    have hm := Option.isNone_iff_eq_none.1 hmarigold
    dsimp only at hm ⊢
    rw [hm]

/-- A team, or its other copy, is on its way out. -/
def leaving (s : State) (t : Team) : Bool :=
  s.ops.any (fun o => match o.2.body with | .evict k _ _ => (s.pairOf t.id).contains k | _ => false)

theorem suspensionLimitExpiry_takes : AllTake .suspensionLimitExpiry suspensionLimitExpiryClaims := by
  refine teamStep_whenDue_takes _ (fun s => (rfl : execSuspensionLimitExpiry s = _)) (fun e s t ht hdue => ?resumes) fun e s t ht hdue => ?stands
  all_goals
    simp only [ht]
    change (t.phase == .resident && t.suspended && decide (t.suspendedAt + suspLimit s ≤ s.clock) && !leaving s t) = _ at hdue
  case resumes =>
    simp only [Bool.and_eq_true, beq_iff_eq, decide_eq_true_eq, Bool.not_eq_true'] at hdue
    obtain ⟨⟨⟨hphase, hsuspended⟩, hlate⟩, hstays⟩ := hdue
    refine if_neg ?_
    rintro (h | h | h | h)
    · exact h hphase
    · rw [hsuspended] at h; cases h
    · exact ne_true_of_eq_false hstays h
    · exact Nat.not_lt.2 hlate h
  case stands =>
    simp only [Bool.and_eq_false_iff, beq_eq_false_iff_ne, decide_eq_false_iff_not, Bool.not_eq_false'] at hdue
    obtain ((h | h) | h) | h := hdue
    · exact if_pos (.inl h)
    · exact if_pos (.inr (.inl (by rw [h]; rfl)))
    · exact if_pos (.inr (.inr (.inr (Nat.not_le.1 h))))
    · exact if_pos (.inr (.inr (.inl h)))

theorem ringClusterWaitTimeout_takes : AllTake .ringClusterWaitTimeout ringClusterWaitTimeoutClaims := by
  refine teamStep_whenDue_takes _ (fun s => (rfl : execRingClusterWaitTimeout s = _)) (fun e s t ht hdue => ?evicted) fun e s t ht hdue => ?stands
  all_goals simp only [ht]
  case stands => exact if_pos (beq_eq_false_iff_ne.1 hdue)
  case evicted =>
    refine (if_neg (not_not.2 (eq_of_beq hdue))).trans ?_
    congr 2
    funext k
    cases (s.cluster k).door <;> rfl

/-! ## Barriers (R177, R178) -/

theorem barrierComplete_takes : AllTake .barrierComplete barrierCompleteClaims := by
  refine teamStep_whenDue_takes _ (fun s => (rfl : execBarrierComplete s = _)) (fun e s t ht hdue => ?passes) fun e s t ht hdue => ?stands
  all_goals simp only [ht]
  case passes =>
    simp only [Bool.and_eq_true, Bool.not_eq_true', Option.isNone_iff_eq_none, and_assoc] at hdue
    obtain ⟨hgroups, hmet, hfail, hreleased⟩ := hdue
    refine if_neg ?_
    rw [hgroups, hmet, hfail, hreleased]
    decide
  case stands =>
    simp only [Bool.and_eq_false_iff, Bool.not_eq_false', Option.isNone_eq_false_iff] at hdue
    obtain ((h | h) | h) | h := hdue
    · exact if_pos (.inl h)
    · exact if_pos (.inr (.inl (by rw [h]; rfl)))
    · exact if_pos (.inr (.inr (.inl h)))
    · exact if_pos (.inr (.inr (.inr (by rw [h]; rfl))))

theorem barpGenerationComplete_takes : AllTake .barpGenerationComplete barpGenerationCompleteClaims := by
  refine List.forall_mem_cons.2 ⟨teamStep_holds _ (fun s => (rfl : execBarpGenerationComplete s = _)) fun e s t ht hdue => ?arrives,
    List.forall_mem_cons.2 ⟨teamStep_holds _ (fun s => (rfl : execBarpGenerationComplete s = _)) fun e s t ht hdue => ?refused,
    List.forall_mem_cons.2 ⟨teamStep_holds _ (fun s => (rfl : execBarpGenerationComplete s = _)) fun e s t ht hdue => ?passes,
    List.forall_mem_singleton.2 (teamStep_holds _ (fun s => (rfl : execBarpGenerationComplete s = _)) fun e s t ht hdue => ?stands)⟩⟩⟩
  all_goals
    simp only [ht]
    dsimp only at hdue ⊢
    cases hfail : t.fail.isSome
  case arrives.true | refused.true | passes.true => simp [hfail] at hdue
  case stands.true => exact if_pos rfl
  all_goals
    simp only [hfail, Bool.false_eq_true, if_false, false_or] at hdue ⊢
    cases hlate : t.lateArrival e.b
  all_goals simp only [hlate, Option.any_none, Option.any_some, Option.isSome_none, Option.isSome_some, Option.isNone_none, Option.isNone_some,
    Bool.false_eq_true, if_false, if_true, Bool.false_and, Bool.true_and] at hdue ⊢
  case arrives.false.some => exact if_pos hdue
  case refused.false.some => exact if_neg (by simpa using hdue)
  all_goals cases hclosed : (t.barp e.b).closed
  all_goals simp only [hclosed, List.head?_nil, List.head?_cons, Option.any_none, Option.any_some, Option.all_some, Bool.false_eq_true] at hdue ⊢
  case passes.false.none.cons => exact if_neg (by simp [hdue])
  case stands.false.none.cons => exact if_pos hdue

/-- Settles O32: a team is placed where it fits and retires when all of its groups are over; each limit ends or evicts exactly the team
that it is about; and a barrier passes when everybody has arrived. -/
theorem teamsArePlacedWatchedAndRetired : Obligations.TeamsArePlacedWatchedAndRetired :=
  ⟨teamPlacement_takes, groupRetire_takes, teamRetire_takes, growDeadlockEviction_takes, sleepExpiry_takes, groupWatchdogExpiry_takes,
    clusterWatchdogFire_takes, commandCoreWatchdogExpiry_takes, suspensionLimitExpiry_takes, ringClusterWaitTimeout_takes,
    barrierComplete_takes, barpGenerationComplete_takes⟩

end Sys2Proof.Machine
end
